-- ==== Sys2Proof/Word.lean ====
section
/-! DEFINITION. The word types of the VX4 (00 R5, 04 R86, 09 R180) and the finite table with a default that holds
registers, slots, cores and tiles. -/
namespace Sys2Proof

abbrev Byte := BitVec 8
abbrev Half := BitVec 16
abbrev Word := BitVec 32
abbrev Dword := BitVec 64
/-- One 64-byte vector register or memory line (01 R23, 14 R298). -/
abbrev Line := BitVec 512
/-- A code address (01 R15). -/
abbrev CodeAddr := BitVec 48

/-- A table from keys to values: an entry that is not listed reads as the default the reader names. -/
abbrev Tab (α : Type) := List (Nat × α)

namespace Tab

/-- The value at key `k`, or `d` where none is listed. -/
def get {α : Type} (d : α) : Tab α → Nat → α
  | [], _ => d
  | (j, v) :: m, k => if j = k then v else get d m k

/-- The table with `v` at key `k`, keys kept rising. -/
def set {α : Type} : Tab α → Nat → α → Tab α
  | [], k, v => [(k, v)]
  | (j, w) :: m, k, v =>
    if j = k then (k, v) :: m
    else if k < j then (k, v) :: (j, w) :: m
    else (j, w) :: set m k v

/-- Whether key `k` is listed. -/
def has {α : Type} (m : Tab α) (k : Nat) : Bool := m.any (fun e => e.1 == k)

/-- The table without key `k`. -/
def erase {α : Type} (m : Tab α) (k : Nat) : Tab α := m.filter (fun e => e.1 != k)

end Tab

end Sys2Proof
end

