-- ==== Sys2Proof/Syntax.lean ====
section
/-! DEFINITION. The instruction type: one constructor per row of the opcode table (02 R50 to R57, 12 R265), the encoded
instructions with their encoding fields, then the events of the table with what each acts on. -/
namespace Sys2Proof

/-- What a decode of one line of tile memory finds (14 R298): for each of the four byte columns nothing, a correction that
names a bank, or no decodable codeword. The arrival of soft errors is an input of the model (20 R423). -/
inductive ColumnRead where
  | clean
  | names (bank : Nat)
  | undecodable
  deriving DecidableEq, Repr

abbrev LineRead := List ColumnRead

/-- The operations and events of the part. In an encoded instruction `m` is the switch marker S (02 R46) and every other
field is named as the opcode table names it. In an event `t` is a tile name, `c` a core, `k` a slot, `md` a module and `n` the
index, in the state's own list, of the thing the event acts on. -/
inductive Instr where
  /-- ADD (R107): Writes rs1 + rs2 into rd. -/
  | add (m : Bool) (d : BitVec 5) (a : BitVec 5) (b : BitVec 5)
  /-- SUB (R107): Writes rs1 − rs2 into rd. -/
  | sub (m : Bool) (d : BitVec 5) (a : BitVec 5) (b : BitVec 5)
  /-- AND (R107): Writes the bitwise AND of rs1 and rs2 into rd. -/
  | and (m : Bool) (d : BitVec 5) (a : BitVec 5) (b : BitVec 5)
  /-- OR (R107): Writes the bitwise OR of rs1 and rs2 into rd. -/
  | or (m : Bool) (d : BitVec 5) (a : BitVec 5) (b : BitVec 5)
  /-- XOR (R107): Writes the bitwise XOR of rs1 and rs2 into rd. -/
  | xor (m : Bool) (d : BitVec 5) (a : BitVec 5) (b : BitVec 5)
  /-- ANDN (R107): Writes rs1 AND NOT rs2 into rd. -/
  | andn (m : Bool) (d : BitVec 5) (a : BitVec 5) (b : BitVec 5)
  /-- ORN (R107): Writes rs1 OR NOT rs2 into rd. -/
  | orn (m : Bool) (d : BitVec 5) (a : BitVec 5) (b : BitVec 5)
  /-- XNOR (R107): Writes NOT (rs1 XOR rs2) into rd. -/
  | xnor (m : Bool) (d : BitVec 5) (a : BitVec 5) (b : BitVec 5)
  /-- SHL (R107): Shifts rs1 left by rs2[5:0] and writes rd. -/
  | shl (m : Bool) (d : BitVec 5) (a : BitVec 5) (b : BitVec 5)
  /-- SHR (R107): Shifts rs1 right by rs2[5:0], shifting in zeros, and writes rd. -/
  | shr (m : Bool) (d : BitVec 5) (a : BitVec 5) (b : BitVec 5)
  /-- SRA (R107): Shifts rs1 right arithmetically by rs2[5:0] and writes rd. -/
  | sra (m : Bool) (d : BitVec 5) (a : BitVec 5) (b : BitVec 5)
  /-- ROL (R107): Rotates rs1 left by rs2[5:0] and writes rd. -/
  | rol (m : Bool) (d : BitVec 5) (a : BitVec 5) (b : BitVec 5)
  /-- ROR (R107): Rotates rs1 right by rs2[5:0] and writes rd. -/
  | ror (m : Bool) (d : BitVec 5) (a : BitVec 5) (b : BitVec 5)
  /-- MIN.S (R107): Writes the signed lesser of rs1 and rs2 into rd. -/
  | minS (m : Bool) (d : BitVec 5) (a : BitVec 5) (b : BitVec 5)
  /-- MIN.Z (R107): Writes the unsigned lesser of rs1 and rs2 into rd. -/
  | minZ (m : Bool) (d : BitVec 5) (a : BitVec 5) (b : BitVec 5)
  /-- MAX.S (R107): Writes the signed greater of rs1 and rs2 into rd. -/
  | maxS (m : Bool) (d : BitVec 5) (a : BitVec 5) (b : BitVec 5)
  /-- MAX.Z (R107): Writes the unsigned greater of rs1 and rs2 into rd. -/
  | maxZ (m : Bool) (d : BitVec 5) (a : BitVec 5) (b : BitVec 5)
  /-- ADD.W (R107): Writes the 32-bit sum, sign-extended, into rd. -/
  | addW (m : Bool) (d : BitVec 5) (a : BitVec 5) (b : BitVec 5)
  /-- SUB.W (R107): Writes the 32-bit difference, sign-extended, into rd. -/
  | subW (m : Bool) (d : BitVec 5) (a : BitVec 5) (b : BitVec 5)
  /-- SHL.W (R107): Shifts the low 32 bits left by rs2[4:0] and sign-extends into rd. -/
  | shlW (m : Bool) (d : BitVec 5) (a : BitVec 5) (b : BitVec 5)
  /-- SHR.W (R107): Shifts the low 32 bits right logically by rs2[4:0] and sign-extends into rd. -/
  | shrW (m : Bool) (d : BitVec 5) (a : BitVec 5) (b : BitVec 5)
  /-- SRA.W (R107): Shifts the low 32 bits right arithmetically by rs2[4:0] into rd. -/
  | sraW (m : Bool) (d : BitVec 5) (a : BitVec 5) (b : BitVec 5)
  /-- MUL (R108): Writes the low 64 bits of rs1 × rs2 into rd as a short result. -/
  | mul (m : Bool) (d : BitVec 5) (a : BitVec 5) (b : BitVec 5)
  /-- MULH.S (R108): Writes the high 64 bits of the signed 128-bit product as a long result. -/
  | mulhS (m : Bool) (d : BitVec 5) (a : BitVec 5) (b : BitVec 5)
  /-- MULH.Z (R108): Writes the high 64 bits of the unsigned 128-bit product as a long result. -/
  | mulhZ (m : Bool) (d : BitVec 5) (a : BitVec 5) (b : BitVec 5)
  /-- MULH.SZ (R108): Writes the high 64 bits of the signed-by-unsigned product as a long result. -/
  | mulhSz (m : Bool) (d : BitVec 5) (a : BitVec 5) (b : BitVec 5)
  /-- DIV.S (R109): Writes the signed quotient, with the defined results for division by zero and overflow. -/
  | divS (m : Bool) (d : BitVec 5) (a : BitVec 5) (b : BitVec 5)
  /-- DIV.Z (R109): Writes the unsigned quotient; division by zero gives all ones. -/
  | divZ (m : Bool) (d : BitVec 5) (a : BitVec 5) (b : BitVec 5)
  /-- REM.S (R109): Writes the signed remainder, with the sign of rs1. -/
  | remS (m : Bool) (d : BitVec 5) (a : BitVec 5) (b : BitVec 5)
  /-- REM.Z (R109): Writes the unsigned remainder; division by zero gives the dividend. -/
  | remZ (m : Bool) (d : BitVec 5) (a : BitVec 5) (b : BitVec 5)
  /-- MUL.W (R108): Writes the 32-bit product, sign-extended, into rd. -/
  | mulW (m : Bool) (d : BitVec 5) (a : BitVec 5) (b : BitVec 5)
  /-- CLZ (R110): Counts the leading zero bits of rs1. -/
  | clz (m : Bool) (d : BitVec 5) (a : BitVec 5)
  /-- CTZ (R110): Counts the trailing zero bits of rs1. -/
  | ctz (m : Bool) (d : BitVec 5) (a : BitVec 5)
  /-- POPC (R110): Counts the one bits of rs1. -/
  | popc (m : Bool) (d : BitVec 5) (a : BitVec 5)
  /-- BSWAP (R110): Reverses the byte order of rs1. -/
  | bswap (m : Bool) (d : BitVec 5) (a : BitVec 5)
  /-- BREV (R110): Reverses the bit order of rs1. -/
  | brev (m : Bool) (d : BitVec 5) (a : BitVec 5)
  /-- SEXT.B (R110): Sign-extends rs1[7:0]. -/
  | sextB (m : Bool) (d : BitVec 5) (a : BitVec 5)
  /-- SEXT.H (R110): Sign-extends rs1[15:0]. -/
  | sextH (m : Bool) (d : BitVec 5) (a : BitVec 5)
  /-- SEXT.W (R110): Sign-extends rs1[31:0]. -/
  | sextW (m : Bool) (d : BitVec 5) (a : BitVec 5)
  /-- ZEXT.B (R110): Zero-extends rs1[7:0]. -/
  | zextB (m : Bool) (d : BitVec 5) (a : BitVec 5)
  /-- ZEXT.H (R110): Zero-extends rs1[15:0]. -/
  | zextH (m : Bool) (d : BitVec 5) (a : BitVec 5)
  /-- ZEXT.W (R110): Zero-extends rs1[31:0]. -/
  | zextW (m : Bool) (d : BitVec 5) (a : BitVec 5)
  /-- ADDI (R111): Adds a sign-extended 14-bit immediate to rs1. -/
  | addi (m : Bool) (d : BitVec 5) (a : BitVec 5) (i : BitVec 14)
  /-- ANDI (R111): ANDs rs1 with a sign-extended 14-bit immediate. -/
  | andi (m : Bool) (d : BitVec 5) (a : BitVec 5) (i : BitVec 14)
  /-- ORI (R111): ORs rs1 with a sign-extended 14-bit immediate. -/
  | ori (m : Bool) (d : BitVec 5) (a : BitVec 5) (i : BitVec 14)
  /-- XORI (R111): XORs rs1 with a sign-extended 14-bit immediate. -/
  | xori (m : Bool) (d : BitVec 5) (a : BitVec 5) (i : BitVec 14)
  /-- SHLI (R112): Shifts rs1 left by an immediate amount. -/
  | shli (m : Bool) (d : BitVec 5) (a : BitVec 5) (n : BitVec 6)
  /-- SHRI (R112): Shifts rs1 right logically by an immediate amount. -/
  | shri (m : Bool) (d : BitVec 5) (a : BitVec 5) (n : BitVec 6)
  /-- SRAI (R112): Shifts rs1 right arithmetically by an immediate amount. -/
  | srai (m : Bool) (d : BitVec 5) (a : BitVec 5) (n : BitVec 6)
  /-- ROLI (R112): Rotates rs1 left by an immediate amount. -/
  | roli (m : Bool) (d : BitVec 5) (a : BitVec 5) (n : BitVec 6)
  /-- SHLI.W (R112): Shifts the low 32 bits left by an immediate up to 31, sign-extended. -/
  | shliW (m : Bool) (d : BitVec 5) (a : BitVec 5) (n : BitVec 6)
  /-- SHRI.W (R112): Shifts the low 32 bits right logically by an immediate up to 31. -/
  | shriW (m : Bool) (d : BitVec 5) (a : BitVec 5) (n : BitVec 6)
  /-- SRAI.W (R112): Shifts the low 32 bits right arithmetically by an immediate up to 31. -/
  | sraiW (m : Bool) (d : BitVec 5) (a : BitVec 5) (n : BitVec 6)
  /-- LUI (R113): Writes the sign-extended imm19 shifted left 13 into rd. -/
  | lui (m : Bool) (d : BitVec 5) (i : BitVec 19)
  /-- AUIPC (R113): Writes the code address PC + (imm19 << 13) as a virtual address. -/
  | auipc (m : Bool) (d : BitVec 5) (i : BitVec 19)
  /-- LIH (R113): Replaces rd[63:32] with imm19 sign-extended from bit 50. -/
  | lih (m : Bool) (d : BitVec 5) (i : BitVec 19)
  /-- BFX.Z (R114): Extracts a bit field of rs1 zero-extended. -/
  | bfxZ (m : Bool) (d : BitVec 5) (a : BitVec 5) (p : BitVec 6) (l : BitVec 6)
  /-- BFX.S (R114): Extracts a bit field of rs1 sign-extended. -/
  | bfxS (m : Bool) (d : BitVec 5) (a : BitVec 5) (p : BitVec 6) (l : BitVec 6)
  /-- BFI (R114): Inserts the low bits of rs1 into a field of rd. -/
  | bfi (m : Bool) (d : BitVec 5) (a : BitVec 5) (p : BitVec 6) (l : BitVec 6)
  /-- CMP (R115): Writes a predicate with the outcome of a register comparison. -/
  | cmp (m : Bool) (p : BitVec 4) (a : BitVec 5) (b : BitVec 5) (c : BitVec 9)
  /-- CMPI (R115): Writes a predicate with the outcome of a comparison against an immediate. -/
  | cmpi (m : Bool) (p : BitVec 4) (a : BitVec 5) (c : BitVec 4) (i : BitVec 10)
  /-- PAND (R116): Writes the AND of two predicates. -/
  | pand (m : Bool) (d : BitVec 4) (a : BitVec 4) (b : BitVec 4)
  /-- POR (R116): Writes the OR of two predicates. -/
  | por (m : Bool) (d : BitVec 4) (a : BitVec 4) (b : BitVec 4)
  /-- PXOR (R116): Writes the XOR of two predicates. -/
  | pxor (m : Bool) (d : BitVec 4) (a : BitVec 4) (b : BitVec 4)
  /-- PANDN (R116): Writes pa AND NOT pb. -/
  | pandn (m : Bool) (d : BitVec 4) (a : BitVec 4) (b : BitVec 4)
  /-- PNOT (R116): Writes the complement of a predicate. -/
  | pnot (m : Bool) (d : BitVec 4) (a : BitVec 4)
  /-- PRD (R116): Reads one predicate, or the whole predicate set for p0, into rd. -/
  | prd (m : Bool) (d : BitVec 5) (q : BitVec 4)
  /-- PWR (R116): Writes one predicate, or p15–p1 for p0, from rs1. -/
  | pwr (m : Bool) (a : BitVec 5) (q : BitVec 4)
  /-- SEL (R116): Selects rs1 or rs2 into rd by a predicate. -/
  | sel (m : Bool) (d : BitVec 5) (a : BitVec 5) (b : BitVec 5) (q : BitVec 4)
  /-- J (R119): Jumps to a PC-relative target. -/
  | j (m : Bool) (i : BitVec 24)
  /-- CALL (R119): Pushes the return address and jumps to a PC-relative target. -/
  | call (m : Bool) (i : BitVec 24)
  /-- BP (R119): Branches when a predicate is 1. -/
  | bp (m : Bool) (p : BitVec 4) (i : BitVec 19)
  /-- BNP (R119): Branches when a predicate is 0. -/
  | bnp (m : Bool) (p : BitVec 4) (i : BitVec 19)
  /-- JR (R120): Jumps to the code address held in rs1. -/
  | jr (m : Bool) (a : BitVec 5)
  /-- CALLR (R120): Pushes the return address and jumps to the code address in rs1. -/
  | callr (m : Bool) (a : BitVec 5)
  /-- RET (R121): Pops the return-address store into PC, trapping LINK_UNDERFLOW or RETURN_EMPTY when empty. -/
  | ret (m : Bool)
  /-- BZ (R119): Branches when rs1 is zero. -/
  | bz (m : Bool) (oLo : BitVec 5) (a : BitVec 5) (o : BitVec 14)
  /-- BNZ (R119): Branches when rs1 is nonzero. -/
  | bnz (m : Bool) (oLo : BitVec 5) (a : BitVec 5) (o : BitVec 14)
  /-- NOP (R124): Has no effect. -/
  | nop (m : Bool)
  /-- YIELD (R124): Defers the thread's turns to READY siblings for 15 cycles. -/
  | yield (m : Bool)
  /-- EXIT (R125): Ends the thread, releasing its resources and sending its retire note. -/
  | exit (m : Bool)
  /-- SLEEP (R126): Suspends the thread in SLEEPING for rs1 cycles or until WAKE. -/
  | sleep (m : Bool) (a : BitVec 5)
  /-- C.MV (R47): Compact copy of one register into another. -/
  | cMv (m : Bool) (a : BitVec 5) (b : BitVec 5)
  /-- C.ADD (R47): Compact a ← a + b. -/
  | cAdd (m : Bool) (a : BitVec 5) (b : BitVec 5)
  /-- C.SUB (R47): Compact a ← a − b. -/
  | cSub (m : Bool) (a : BitVec 5) (b : BitVec 5)
  /-- C.AND (R47): Compact a ← a AND b. -/
  | cAnd (m : Bool) (a : BitVec 5) (b : BitVec 5)
  /-- C.OR (R47): Compact a ← a OR b. -/
  | cOr (m : Bool) (a : BitVec 5) (b : BitVec 5)
  /-- C.XOR (R47): Compact a ← a XOR b. -/
  | cXor (m : Bool) (a : BitVec 5) (b : BitVec 5)
  /-- C.SHLI (R47): Compact left shift by an immediate. -/
  | cShli (m : Bool) (a : BitVec 5) (n : BitVec 5)
  /-- C.SHRI (R47): Compact logical right shift by an immediate. -/
  | cShri (m : Bool) (a : BitVec 5) (n : BitVec 5)
  /-- C.SRAI (R47): Compact arithmetic right shift by an immediate. -/
  | cSrai (m : Bool) (a : BitVec 5) (n : BitVec 5)
  /-- C.ADDI (R47): Compact add of a 5-bit signed immediate. -/
  | cAddi (m : Bool) (a : BitVec 5) (n : BitVec 5)
  /-- C.LI (R47): Compact load of a 5-bit signed immediate. -/
  | cLi (m : Bool) (a : BitVec 5) (n : BitVec 5)
  /-- C.LD (R47): Compact LD.D with offset 0. -/
  | cLd (m : Bool) (a : BitVec 5) (b : BitVec 5)
  /-- C.ST (R47): Compact ST.D with offset 0. -/
  | cSt (m : Bool) (a : BitVec 5) (b : BitVec 5)
  /-- C.CMPEQ (R47): Compact compare for equality into p1. -/
  | cCmpeq (m : Bool) (a : BitVec 5) (b : BitVec 5)
  /-- C.CMPLT (R47): Compact signed less-than compare into p1. -/
  | cCmplt (m : Bool) (a : BitVec 5) (b : BitVec 5)
  /-- C.BP1 (R47): Compact branch on p1. -/
  | cBp1 (m : Bool) (o : BitVec 10)
  /-- LD (R130): Loads 1 to 8 bytes at the owner, locally, by migration or by remote read. -/
  | ld (m : Bool) (d : BitVec 5) (a : BitVec 5) (f : BitVec 3) (i : BitVec 11)
  /-- LDR (R131): Loads without ever migrating, as a remote read when owned elsewhere. -/
  | ldr (m : Bool) (d : BitVec 5) (a : BitVec 5) (f : BitVec 3) (i : BitVec 11)
  /-- ST (R130): Stores 1 to 8 bytes at the owner, buffered, migrating or posted. -/
  | st (m : Bool) (d : BitVec 5) (a : BitVec 5) (f : BitVec 3) (i : BitVec 11)
  /-- STR (R131): Posts a store that never migrates. -/
  | str (m : Bool) (d : BitVec 5) (a : BitVec 5) (f : BitVec 3) (i : BitVec 11)
  /-- LDFE (R132): Waits until the word is full, reads it and sets it empty. -/
  | ldfe (m : Bool) (d : BitVec 5) (a : BitVec 5) (i : BitVec 11)
  /-- LDFF (R132): Waits until the word is full and reads it. -/
  | ldff (m : Bool) (d : BitVec 5) (a : BitVec 5) (i : BitVec 11)
  /-- STEF (R132): Waits until the word is empty, writes it and sets it full. -/
  | stef (m : Bool) (d : BitVec 5) (a : BitVec 5) (i : BitVec 11)
  /-- STFF (R132): Writes the word and sets it full without waiting. -/
  | stff (m : Bool) (d : BitVec 5) (a : BitVec 5) (i : BitVec 11)
  /-- FEPROBE (R132): Reads the full-empty bit of a word. -/
  | feprobe (m : Bool) (d : BitVec 5) (a : BitVec 5) (i : BitVec 11)
  /-- FESET (R132): Sets the full-empty bit of a word from rs[0]. -/
  | feset (m : Bool) (d : BitVec 5) (a : BitVec 5) (i : BitVec 11)
  /-- MIGRATE (R141): Moves the thread to the owner of an address without an access. -/
  | migrate (m : Bool) (a : BitVec 5) (i : BitVec 11)
  /-- PIN (R141): Sets PINCNT to 63. -/
  | pin (m : Bool)
  /-- UNPIN (R141): Clears PINCNT and BOUNCE. -/
  | unpin (m : Bool)
  /-- HOME (R141): Migrates the thread to its creating tile. -/
  | home (m : Bool)
  /-- HERE (R141): Writes the current tile's name into rd. -/
  | here (m : Bool) (d : BitVec 5)
  /-- RAMO (R149): Posts an atomic operation to the owner with no result. -/
  | ramo (m : Bool) (a : BitVec 5) (b : BitVec 5) (p : BitVec 4) (z : BitVec 2) (o : BitVec 3)
  /-- AMO (R149): Performs a fetching atomic at the owner and returns the old value. -/
  | amo (m : Bool) (d : BitVec 5) (a : BitVec 5) (b : BitVec 5) (p : BitVec 4) (z : BitVec 2) (o : BitVec 3)
  /-- CAS (R155): Compares and swaps a word at the owner, returning the old value. -/
  | cas (m : Bool) (d : BitVec 5) (a : BitVec 5) (b : BitVec 5) (c : BitVec 5) (z : BitVec 1) (o : BitVec 2)
  /-- FENCE (R157): Holds the thread until the conditions of its kind and scope hold. -/
  | fence (m : Bool) (s : BitVec 3) (k : BitVec 3)
  /-- BAR.INIT (R160): Reinitialises a barrier object and releases waiters of other phases. -/
  | barInit (m : Bool) (a : BitVec 5) (b : BitVec 5)
  /-- BAR.ARR (R160): Counts an arrival at a barrier object and returns word 0. -/
  | barArr (m : Bool) (d : BitVec 5) (a : BitVec 5) (b : BitVec 5)
  /-- BAR.WAIT (R161): Waits until the barrier's phase differs from the named one. -/
  | barWait (m : Bool) (d : BitVec 5) (a : BitVec 5) (b : BitVec 5)
  /-- BAR.ARRW (R160): Arrives at a barrier and waits for the phase to complete. -/
  | barArrw (m : Bool) (d : BitVec 5) (a : BitVec 5) (b : BitVec 5)
  /-- BAR.CMB (R160): Arrives with count 1 and combines a value into word 1. -/
  | barCmb (m : Bool) (d : BitVec 5) (a : BitVec 5) (b : BitVec 5)
  /-- BAR.CMBW (R160): Arrives with a combine value and waits for the phase's final value. -/
  | barCmbw (m : Bool) (d : BitVec 5) (a : BitVec 5) (b : BitVec 5)
  /-- HBAR (R165): Arrives at a hierarchical barrier episode of the named level without combining. -/
  | hbar (m : Bool) (l : BitVec 3)
  /-- HBAR.CMB (R166): Arrives at a hierarchical barrier with a value and returns the combined result. -/
  | hbarCmb (m : Bool) (d : BitVec 5) (a : BitVec 5) (l : BitVec 3) (o : BitVec 3)
  /-- TIME (R168): Reads the tile timebase into rd. -/
  | time (m : Bool) (d : BitVec 5)
  /-- WAITT (R168): Sleeps until the timebase reaches rs1. -/
  | waitt (m : Bool) (a : BitVec 5)
  /-- CYCLE (R168): Reads the partition's resident-cycle count into rd. -/
  | cycle (m : Bool) (d : BitVec 5)
  /-- FADD (R172): Floating-point addition rounded once. -/
  | fadd (m : Bool) (d : BitVec 5) (a : BitVec 5) (b : BitVec 5) (f : BitVec 2) (r : BitVec 3)
  /-- FSUB (R172): Floating-point subtraction rounded once. -/
  | fsub (m : Bool) (d : BitVec 5) (a : BitVec 5) (b : BitVec 5) (f : BitVec 2) (r : BitVec 3)
  /-- FMUL (R172): Floating-point multiplication rounded once. -/
  | fmul (m : Bool) (d : BitVec 5) (a : BitVec 5) (b : BitVec 5) (f : BitVec 2) (r : BitVec 3)
  /-- FDIV (R172): Floating-point division rounded once. -/
  | fdiv (m : Bool) (d : BitVec 5) (a : BitVec 5) (b : BitVec 5) (f : BitVec 2) (r : BitVec 3)
  /-- FSQRT (R172): Floating-point square root rounded once. -/
  | fsqrt (m : Bool) (d : BitVec 5) (a : BitVec 5) (f : BitVec 2) (r : BitVec 3)
  /-- FMIN (R173): Returns the lesser operand unchanged. -/
  | fmin (m : Bool) (d : BitVec 5) (a : BitVec 5) (b : BitVec 5) (f : BitVec 2)
  /-- FMAX (R173): Returns the greater operand unchanged. -/
  | fmax (m : Bool) (d : BitVec 5) (a : BitVec 5) (b : BitVec 5) (f : BitVec 2)
  /-- FSGNJ (R174): Copies rs1 with the sign of rs2. -/
  | fsgnj (m : Bool) (d : BitVec 5) (a : BitVec 5) (b : BitVec 5) (f : BitVec 2)
  /-- FSGNJN (R174): Copies rs1 with the inverted sign of rs2. -/
  | fsgnjn (m : Bool) (d : BitVec 5) (a : BitVec 5) (b : BitVec 5) (f : BitVec 2)
  /-- FSGNJX (R174): Copies rs1 with the XOR of both signs. -/
  | fsgnjx (m : Bool) (d : BitVec 5) (a : BitVec 5) (b : BitVec 5) (f : BitVec 2)
  /-- FCLASS (R175): Writes a one-hot class mask of the operand. -/
  | fclass (m : Bool) (d : BitVec 5) (a : BitVec 5) (f : BitVec 2)
  /-- FMA (R176): Fused a × b + c rounded once under FRM. -/
  | fma (m : Bool) (d : BitVec 5) (a : BitVec 5) (b : BitVec 5) (c : BitVec 5) (f : BitVec 2)
  /-- FMS (R176): Fused a × b − c. -/
  | fms (m : Bool) (d : BitVec 5) (a : BitVec 5) (b : BitVec 5) (c : BitVec 5) (f : BitVec 2)
  /-- FNMA (R176): Fused −(a × b + c). -/
  | fnma (m : Bool) (d : BitVec 5) (a : BitVec 5) (b : BitVec 5) (c : BitVec 5) (f : BitVec 2)
  /-- FNMS (R176): Fused −(a × b − c). -/
  | fnms (m : Bool) (d : BitVec 5) (a : BitVec 5) (b : BitVec 5) (c : BitVec 5) (f : BitVec 2)
  /-- FCMP (R177): Writes a predicate with a floating-point comparison. -/
  | fcmp (m : Bool) (p : BitVec 4) (a : BitVec 5) (b : BitVec 5) (c : BitVec 4) (f : BitVec 2)
  /-- FCVT (R179): Converts between scalar integer and floating types. -/
  | fcvt (m : Bool) (d : BitVec 5) (a : BitVec 5) (f : BitVec 4) (o : BitVec 4) (r : BitVec 3) (u : BitVec 1)
  /-- VADD (R185): Element-wise vector addition under a mask. -/
  | vadd (m : Bool) (d : BitVec 3) (k : BitVec 2) (a : BitVec 3) (b : BitVec 3) (t : BitVec 4)
  /-- VSUB (R185): Element-wise vector subtraction. -/
  | vsub (m : Bool) (d : BitVec 3) (k : BitVec 2) (a : BitVec 3) (b : BitVec 3) (t : BitVec 4)
  /-- VMUL (R185): Element-wise vector multiplication. -/
  | vmul (m : Bool) (d : BitVec 3) (k : BitVec 2) (a : BitVec 3) (b : BitVec 3) (t : BitVec 4)
  /-- VMULH (R185): Element-wise high half of the integer product. -/
  | vmulh (m : Bool) (d : BitVec 3) (k : BitVec 2) (a : BitVec 3) (b : BitVec 3) (t : BitVec 4)
  /-- VMIN (R185): Element-wise minimum. -/
  | vmin (m : Bool) (d : BitVec 3) (k : BitVec 2) (a : BitVec 3) (b : BitVec 3) (t : BitVec 4)
  /-- VMAX (R185): Element-wise maximum. -/
  | vmax (m : Bool) (d : BitVec 3) (k : BitVec 2) (a : BitVec 3) (b : BitVec 3) (t : BitVec 4)
  /-- VAND (R185): Element-wise bitwise AND. -/
  | vand (m : Bool) (d : BitVec 3) (k : BitVec 2) (a : BitVec 3) (b : BitVec 3) (t : BitVec 4)
  /-- VOR (R185): Element-wise bitwise OR. -/
  | vor (m : Bool) (d : BitVec 3) (k : BitVec 2) (a : BitVec 3) (b : BitVec 3) (t : BitVec 4)
  /-- VXOR (R185): Element-wise bitwise XOR. -/
  | vxor (m : Bool) (d : BitVec 3) (k : BitVec 2) (a : BitVec 3) (b : BitVec 3) (t : BitVec 4)
  /-- VSHL (R185): Element-wise left shift. -/
  | vshl (m : Bool) (d : BitVec 3) (k : BitVec 2) (a : BitVec 3) (b : BitVec 3) (t : BitVec 4)
  /-- VSHR (R185): Element-wise logical right shift. -/
  | vshr (m : Bool) (d : BitVec 3) (k : BitVec 2) (a : BitVec 3) (b : BitVec 3) (t : BitVec 4)
  /-- VSRA (R185): Element-wise arithmetic right shift. -/
  | vsra (m : Bool) (d : BitVec 3) (k : BitVec 2) (a : BitVec 3) (b : BitVec 3) (t : BitVec 4)
  /-- VABS (R185): Element-wise absolute value. -/
  | vabs (m : Bool) (d : BitVec 3) (k : BitVec 2) (a : BitVec 3) (t : BitVec 4)
  /-- VNEG (R185): Element-wise negation. -/
  | vneg (m : Bool) (d : BitVec 3) (k : BitVec 2) (a : BitVec 3) (t : BitVec 4)
  /-- VFMA (R186): Element-wise fused a × b + c into vd. -/
  | vfma (m : Bool) (d : BitVec 3) (k : BitVec 2) (a : BitVec 3) (b : BitVec 3) (t : BitVec 4)
  /-- VFMS (R186): Element-wise fused a × b − c. -/
  | vfms (m : Bool) (d : BitVec 3) (k : BitVec 2) (a : BitVec 3) (b : BitVec 3) (t : BitVec 4)
  /-- VFNMA (R186): Element-wise fused −(a × b + c). -/
  | vfnma (m : Bool) (d : BitVec 3) (k : BitVec 2) (a : BitVec 3) (b : BitVec 3) (t : BitVec 4)
  /-- VCMP (R187): Writes all 16 bits of a destination mask from an element-wise comparison. -/
  | vcmp (m : Bool) (d : BitVec 3) (k : BitVec 2) (a : BitVec 3) (b : BitVec 3) (t : BitVec 4) (c : BitVec 5)
  /-- VSEL (R188): Selects each element from vs1 or vs2 by the mask. -/
  | vsel (m : Bool) (d : BitVec 3) (k : BitVec 2) (a : BitVec 3) (b : BitVec 3) (t : BitVec 4)
  /-- VPERM (R188): Permutes vs1 by indices in vs2. -/
  | vperm (m : Bool) (d : BitVec 3) (k : BitVec 2) (a : BitVec 3) (b : BitVec 3) (t : BitVec 4)
  /-- VBCAST (R188): Broadcasts a scalar into the active elements. -/
  | vbcast (m : Bool) (v : BitVec 3) (k : BitVec 2) (g : BitVec 5) (t : BitVec 4)
  /-- VEXT (R188): Extracts one element into a general register. -/
  | vext (m : Bool) (v : BitVec 3) (g : BitVec 5) (h : BitVec 5) (t : BitVec 4)
  /-- VINS (R188): Inserts a scalar into one element. -/
  | vins (m : Bool) (v : BitVec 3) (g : BitVec 5) (h : BitVec 5) (t : BitVec 4)
  /-- VIOTA (R188): Writes each active element's count of lower active elements. -/
  | viota (m : Bool) (d : BitVec 3) (k : BitVec 2) (t : BitVec 4)
  /-- VRSUM (R189): Sums the active elements into a general register. -/
  | vrsum (m : Bool) (v : BitVec 3) (k : BitVec 2) (g : BitVec 5) (t : BitVec 4)
  /-- VRMAX (R189): Reduces the active elements to their maximum. -/
  | vrmax (m : Bool) (v : BitVec 3) (k : BitVec 2) (g : BitVec 5) (t : BitVec 4)
  /-- VRMIN (R189): Reduces the active elements to their minimum. -/
  | vrmin (m : Bool) (v : BitVec 3) (k : BitVec 2) (g : BitVec 5) (t : BitVec 4)
  /-- VRMAXABS (R189): Reduces the active elements to their largest magnitude. -/
  | vrmaxabs (m : Bool) (v : BitVec 3) (k : BitVec 2) (g : BitVec 5) (t : BitVec 4)
  /-- VCVT (R190): Converts vector elements between two types. -/
  | vcvt (m : Bool) (d : BitVec 3) (k : BitVec 2) (a : BitVec 3) (o : BitVec 4) (f : BitVec 4)
  /-- VQUANT (R191): Quantises 16 FP32 elements by a scale into replicated 8-bit bytes. -/
  | vquant (m : Bool) (v : BitVec 3) (k : BitVec 2) (g : BitVec 5) (r : BitVec 3) (u : BitVec 1) (t : BitVec 4)
  /-- VDEQ (R191): Dequantises 16 packed bytes by a scale into FP32. -/
  | vdeq (m : Bool) (v : BitVec 3) (k : BitVec 2) (g : BitVec 5) (t : BitVec 4)
  /-- VDOT (R192): Accumulates per-lane dot products into vd. -/
  | vdot (m : Bool) (d : BitVec 3) (k : BitVec 2) (a : BitVec 3) (b : BitVec 3) (t : BitVec 4)
  /-- VDOTS (R192): Accumulates per-lane dot products with saturation. -/
  | vdots (m : Bool) (d : BitVec 3) (k : BitVec 2) (a : BitVec 3) (b : BitVec 3) (t : BitVec 4)
  /-- VLD (R193): Loads a 64-byte block into a vector register by the LD path. -/
  | vld (m : Bool) (v : BitVec 3) (k : BitVec 2) (g : BitVec 5) (i : BitVec 5)
  /-- VST (R193): Stores the active lanes of a 64-byte block by the ST path. -/
  | vst (m : Bool) (v : BitVec 3) (k : BitVec 2) (g : BitVec 5) (i : BitVec 5)
  /-- VLDS (R194): Loads 16 strided 32-bit elements, each local or remote. -/
  | vlds (m : Bool) (v : BitVec 3) (k : BitVec 2) (g : BitVec 5) (h : BitVec 5) (t : BitVec 4)
  /-- VSTS (R194): Stores 16 strided 32-bit elements, each local or posted. -/
  | vsts (m : Bool) (v : BitVec 3) (k : BitVec 2) (g : BitVec 5) (h : BitVec 5) (t : BitVec 4)
  /-- VGTH (R194): Gathers 16 indexed 32-bit elements. -/
  | vgth (m : Bool) (v : BitVec 3) (k : BitVec 2) (g : BitVec 5) (x : BitVec 3) (t : BitVec 4)
  /-- VSCT (R194): Scatters 16 indexed 32-bit elements. -/
  | vsct (m : Bool) (v : BitVec 3) (k : BitVec 2) (g : BitVec 5) (x : BitVec 3) (t : BitVec 4)
  /-- KAND (R196): ANDs two masks. -/
  | kand (m : Bool) (d : BitVec 3) (a : BitVec 3) (b : BitVec 3)
  /-- KOR (R196): ORs two masks. -/
  | kor (m : Bool) (d : BitVec 3) (a : BitVec 3) (b : BitVec 3)
  /-- KXOR (R196): XORs two masks. -/
  | kxor (m : Bool) (d : BitVec 3) (a : BitVec 3) (b : BitVec 3)
  /-- KNOT (R196): Complements a mask. -/
  | knot (m : Bool) (d : BitVec 3) (a : BitVec 3)
  /-- KMOV.GK (R196): Writes a mask from g1[15:0]. -/
  | kmovGk (m : Bool) (v : BitVec 3) (g : BitVec 5)
  /-- KMOV.KG (R196): Writes a mask into a general register. -/
  | kmovKg (m : Bool) (v : BitVec 3) (g : BitVec 5)
  /-- KPOP (R196): Counts the ones of a mask. -/
  | kpop (m : Bool) (v : BitVec 3) (g : BitVec 5)
  /-- KTEST (R196): Tests two masks for containment and overlap. -/
  | ktest (m : Bool) (v : BitVec 3) (k : BitVec 2) (g : BitVec 5)
  /-- VFREE (R197): Clears a vector register's live bit. -/
  | vfree (m : Bool) (d : BitVec 3)
  /-- VMOV (R197): Copies the active lanes of one vector register to another. -/
  | vmov (m : Bool) (d : BitVec 3) (k : BitVec 2) (a : BitVec 3)
  /-- MLEASE (R214): Takes the Trestle lease or joins its FIFO in LEASEWAIT. -/
  | mlease (m : Bool)
  /-- MTRYL (R214): Takes the lease if free, without joining the FIFO. -/
  | mtryl (m : Bool) (d : BitVec 5)
  /-- MREL (R218): Releases accumulator slots and optionally the lease. -/
  | mrel (m : Bool) (a : BitVec 5)
  /-- MISSUE (R219): Validates a parameter block and queues a Trestle command. -/
  | missue (m : Bool) (d : BitVec 5) (a : BitVec 5)
  /-- MWAIT (R220): Waits until the completed sequence number reaches rs1. -/
  | mwait (m : Bool) (d : BitVec 5) (a : BitVec 5)
  /-- MSEQ (R220): Returns D, Q or a slot status word. -/
  | mseq (m : Bool) (d : BitVec 5) (a : BitVec 5)
  /-- MACCV (R220): Reads a 64-byte chunk of an accumulator slot into a vector register. -/
  | maccv (m : Bool) (v : BitVec 3) (a : BitVec 5)
  /-- MACCW (R220): Writes a vector register into a chunk of an accumulator slot. -/
  | maccw (m : Bool) (v : BitVec 3) (a : BitVec 5)
  /-- SPAWN (R227): Creates a thread at the current tile. -/
  | spawn (m : Bool) (d : BitVec 5) (b : BitVec 5) (c : BitVec 5)
  /-- SPAWNAT (R227): Creates a thread at the owner of an address. -/
  | spawnat (m : Bool) (d : BitVec 5) (b : BitVec 5) (c : BitVec 5)
  /-- SPAWNANY (R227): Creates a donatable thread at the current tile. -/
  | spawnany (m : Bool) (d : BitVec 5) (b : BitVec 5) (c : BitVec 5)
  /-- TID (R230): Writes the thread's TID into rd. -/
  | tid (m : Bool) (d : BitVec 5)
  /-- PRIO (R230): Sets the thread's dispatch priority. -/
  | prio (m : Bool) (a : BitVec 5)
  /-- QSEND (R233): Posts a 32-byte record to a plain queue. -/
  | qsend (m : Bool) (g : BitVec 5) (h : BitVec 5)
  /-- QRECV (R235): Takes a record or token from a plain queue, waiting in QWAIT if empty. -/
  | qrecv (m : Bool) (g : BitVec 5) (h : BitVec 5) (c : BitVec 5)
  /-- QEOS (R236): Posts an end-of-stream token to a plain queue. -/
  | qeos (m : Bool) (h : BitVec 5)
  /-- QSTAT (R237): Returns a plain queue's state. -/
  | qstat (m : Bool) (d : BitVec 5) (h : BitVec 5)
  /-- DSEND (R239): Posts a multiplicity record to a D-queue. -/
  | dsend (m : Bool) (g : BitVec 5) (h : BitVec 5)
  /-- DRECV (R240): Takes a released record or round token from a D-queue. -/
  | drecv (m : Bool) (g : BitVec 5) (h : BitVec 5) (c : BitVec 5)
  /-- DSEAL (R242): Posts a round-close note, optionally final, to a D-queue. -/
  | dseal (m : Bool) (h : BitVec 5) (c : BitVec 5)
  /-- DQUIET (R243): Returns a D-queue's released-round state. -/
  | dquiet (m : Bool) (d : BitVec 5) (h : BitVec 5)
  /-- XUPD (R244): Adds a multiplicity change to an arrangement-index entry. -/
  | xupd (m : Bool) (d : BitVec 5) (h : BitVec 5) (c : BitVec 5)
  /-- XSCAN (R245): Returns the next entry of a key at or above a cursor. -/
  | xscan (m : Bool) (g : BitVec 5) (h : BitVec 5)
  /-- XCNT (R246): Returns the summed multiplicity of a key. -/
  | xcnt (m : Bool) (d : BitVec 5) (h : BitVec 5) (c : BitVec 5)
  /-- CPY (R255): Queues a copy of rs3 bytes counted into an arrival word. -/
  | cpy (m : Bool) (a : BitVec 5) (b : BitVec 5) (c : BitVec 5) (l : BitVec 5)
  /-- CPY2D (R260): Queues a row-by-row copy described by a parameter block. -/
  | cpy2d (m : Bool) (a : BitVec 5) (b : BitVec 5)
  /-- AWINIT (R253): Arms an arrival word with a new TARGET, optionally clearing it. -/
  | awinit (m : Bool) (d : BitVec 5) (b : BitVec 5) (c : BitVec 5)
  /-- AWWAIT (R254): Waits until an arrival word's generation differs from rs2. -/
  | awwait (m : Bool) (d : BitVec 5) (b : BitVec 5) (c : BitVec 5)
  /-- SCSTART (R269): Loads an image into a Bookend and starts it. -/
  | scstart (m : Bool) (d : BitVec 5) (b : BitVec 5) (c : BitVec 5)
  /-- SCMAIL (R270): Offers a word to a Bookend's inbox. -/
  | scmail (m : Bool) (d : BitVec 5) (b : BitVec 5) (c : BitVec 5)
  /-- SCWAIT (R270): Waits for and takes the oldest word of a Bookend's outbox. -/
  | scwait (m : Bool) (d : BitVec 5) (c : BitVec 5)
  /-- SYSR (R36): Reads a system register or counter by number. -/
  | sysr (m : Bool) (d : BitVec 5) (i : BitVec 11)
  /-- SYSW (R36): Writes a system register, counter or router register by number. -/
  | sysw (m : Bool) (a : BitVec 5) (i : BitVec 11)
  /-- TRAP (R274): Traps with cause TRAP and the immediate in TH_VALUE. -/
  | trap (m : Bool) (i : BitVec 11)
  /-- SYSCALL (R274): Traps with cause SYSCALL to enter supervisor privilege. -/
  | syscall (m : Bool)
  /-- ERET (R275): Returns from a trap to PPRIV at EPC. -/
  | eret (m : Bool)
  /-- BRK (R274): Traps BREAK, or halts the core when BRKHALT is set. -/
  | brk (m : Bool)
  /-- WAKE (R276): Sends a wake message naming a TID to a tile. -/
  | wake (m : Bool) (a : BitVec 5) (b : BitVec 5)
  /-- INVAL (R277): Sends a translation invalidation to the owners of a range and waits for acknowledgement. -/
  | inval (m : Bool) (b : BitVec 5)
  /-- SEGLD (R278): Broadcasts a segment table to every tile of the partition. -/
  | segld (m : Bool) (b : BitVec 5)
  /-- BK.RD (R265): Bookend reads a 32-bit word remotely. -/
  | bkRd (d : BitVec 5) (a : BitVec 5)
  /-- BK.WR (R265): Bookend posts a 32-bit store. -/
  | bkWr (a : BitVec 5) (b : BitVec 5)
  /-- BK.GET (R265): Bookend copies bytes from a virtual address into its data store. -/
  | bkGet (d : BitVec 5) (a : BitVec 5) (b : BitVec 5) (c : BitVec 5)
  /-- BK.PUT (R265): Bookend copies bytes from its data store to a virtual address, posted. -/
  | bkPut (d : BitVec 5) (a : BitVec 5) (b : BitVec 5) (c : BitVec 5)
  /-- BK.WAIT (R265): Bookend waits for outstanding transfers or an inbox word. -/
  | bkWait (d : BitVec 5) (a : BitVec 5) (b : BitVec 5)
  /-- BK.SIG (R265): Bookend appends a word to its outbox. -/
  | bkSig (a : BitVec 5) (b : BitVec 5)
  /-- BOOKEND_BASE_INSTRUCTION (R262): A Bookend executes one RV32IMC or Zicsr instruction in machine mode. -/
  | bookendBaseInstruction (w : BitVec 32)
  /-- LONG_RESULT_RETURN (R64): A long result is written, flags are ORed in and waiting threads may become READY. -/
  | longResultReturn (t c k n : Nat)
  /-- NORMALISER_SERVICE_END (R99): The normaliser finishes a 24-cycle service and starts the next request. -/
  | normaliserServiceEnd (t : Nat)
  /-- SLEEP_DEADLINE (R126): The timebase reaches a SLEEP or WAITT deadline and the thread becomes READY. -/
  | sleepDeadline (t c k : Nat)
  /-- VECTOR_BIND (R329): The Sideboard arbiter binds vector queue heads to free lane groups by deficit round-robin. -/
  | vectorBind (t : Nat)
  /-- STORE_BUFFER_DRAIN (R282): The oldest store-buffer entry of a core is performed in the owner order. -/
  | storeBufferDrain (t c : Nat) (bad : Bool)
  /-- MIGRATION_COMMIT (R135): The injection port accepts a context packet and the departure update is made. -/
  | migrationCommit (t c k : Nat)
  /-- DEPARTURE_CONVERT (R137): After 2,048 cycles of refusal the migration is abandoned and the access goes remote. -/
  | departureConvert (t c k : Nat)
  /-- HUTCH_ADMIT (R319): The Hutch admits a migrated, spawned or donated context into its ring or spill region. -/
  | hutchAdmit (n : Nat)
  /-- HUTCH_DISPATCH (R321): The Hutch starts loading a waiting context into a free slot. -/
  | hutchDispatch (t : Nat)
  /-- CONTEXT_LOAD_DONE (R321): A context load ends, the thread becomes READY and a migrated access is performed. -/
  | contextLoadDone (t c k : Nat)
  /-- IDLE_DONATION_REQUEST (R323): After 1,024 idle cycles a tile asks its neighbours for contexts. -/
  | idleDonationRequest (t : Nat)
  /-- DONATION_SHIP (R323): A neighbour receiving a donation request ships up to 4 unissued SPAWNANY contexts. -/
  | donationShip (n : Nat)
  /-- PARK_MOVE (R327): A thread waiting 4,096 resident cycles is moved to the parked area. -/
  | parkMove (t c k : Nat)
  /-- WAKE_MESSAGE (R328): A wake message reaches a tile and wakes, returns, reissues or refuses the named thread or operations. -/
  | wakeMessage (n : Nat)
  /-- RETIRE_NOTE (R42): A retire note frees a sequence number at the creating tile. -/
  | retireNote (n : Nat)
  /-- QUOTA_INCREMENT (R229): A fetching increment of the live-thread count is performed at the origin tile. -/
  | quotaIncrement (n : Nat)
  /-- QUOTA_DECREMENT (R229): A posted decrement of the live-thread count is performed at the origin tile. -/
  | quotaDecrement (n : Nat)
  /-- REMOTE_REQUEST (R129): A REQ packet is performed at its owner and answered. -/
  | remoteRequest (n : Nat)
  /-- REMOTE_RESPONSE (R129): A response reaches the requester and completes its remote operation. -/
  | remoteResponse (n : Nat)
  /-- POSTED_OP (R146): A posted operation is performed at its owner and acknowledged. -/
  | postedOp (n : Nat)
  /-- POSTED_ACK (R146): An acknowledgement decrements the thread's posted count, recording any denial. -/
  | postedAck (n : Nat)
  /-- WAITER_RETRY (R133): A request answered with retry is presented again every 256 cycles. -/
  | waiterRetry (t c k : Nat)
  /-- FE_BUDGET_EXPIRE (R134): A full-empty wait budget runs out and the waiter is removed or withdrawn. -/
  | feBudgetExpire (t c k : Nat)
  /-- FE_WITHDRAW_ACK (R134): The owner acknowledges a withdrawal and the thread traps FE_TIMEOUT. -/
  | feWithdrawAck (n : Nat)
  /-- BAR_WAIT_TIMEOUT (R161): A barrier waiter's budget runs out and it traps BARRIER_TIMEOUT. -/
  | barWaitTimeout (t c k : Nat)
  /-- HBAR_TREE_ARRIVE (R384): A COLL arrival reaches a tree node, which combines and sends up once all children arrive. -/
  | hbarTreeArrive (n : Nat)
  /-- HBAR_TREE_RELEASE (R166): The root's release reaches participants with the episode's result. -/
  | hbarTreeRelease (n : Nat)
  /-- HBAR_TIMEOUT (R167): An HBAR waiter's budget runs out and it traps BARRIER_TIMEOUT. -/
  | hbarTimeout (t c k : Nat)
  /-- QUEUE_RECORD_APPEND (R233): A record or token reaches a plain queue's owner and is appended or refused. -/
  | queueRecordAppend (n : Nat)
  /-- RESEND_RETRY (R234): A refused record in the resend buffer is sent again every 256 cycles. -/
  | resendRetry (t : Nat)
  /-- DRESSER_RECORD_APPLY (R359): The Dresser consolidates a D-queue record into its window or spills it. -/
  | dresserRecordApply (n : Nat)
  /-- DRESSER_NOTE (R360): A round-close note is counted and may begin the release of round B. -/
  | dresserNote (n : Nat)
  /-- BAND_PASS (R361): The Dresser makes a pass over the spill ring for one band of a release. -/
  | bandPass (t q : Nat)
  /-- TRESTLE_COMMAND_START (R211): The Trestle starts the next accepted command. -/
  | trestleCommandStart (t : Nat)
  /-- TRESTLE_STEP (R213): A command step starts once its operand lines have arrived. -/
  | trestleStep (t : Nat)
  /-- TRESTLE_COMMAND_COMPLETE (R211): A command completes, clearing BUSY and advancing D. -/
  | trestleCommandComplete (t : Nat)
  /-- OPERAND_LINE_REQUEST (R210): An operand line request is served at its owner or joins a multicast window. -/
  | operandLineRequest (n : Nat)
  /-- MCAST_WINDOW_EXPIRE (R210): A 256-cycle combine window ends and the line is multicast to its joiners. -/
  | mcastWindowExpire (t n : Nat)
  /-- OPERAND_LINE_ARRIVE (R213): An operand line reaches the Trestle's operand buffers. -/
  | operandLineArrive (n : Nat)
  /-- LEASE_EXPIRE_TIME (R214): 65,536 resident cycles since grant expire the lease. -/
  | leaseExpireTime (t : Nat)
  /-- COPY_PIECE_ISSUE (R256): The copy engine sends the read command of the next piece. -/
  | copyPieceIssue (t : Nat)
  /-- COPY_READ (R256): The source owner reads a piece and sends it to the destination owner. -/
  | copyRead (n : Nat)
  /-- COPY_WRITE (R256): The destination owner writes a piece and sends its count. -/
  | copyWrite (n : Nat)
  /-- ARRIVAL_COUNT (R252): A piece's byte count is applied to an arrival word, possibly completing generations. -/
  | arrivalCount (n : Nat)
  /-- PAGE_WALK_COMPLETE (R336): A page walk ends present, absent, protected or malformed. -/
  | pageWalkComplete (t n : Nat)
  /-- FAULT_RECORD_WRITE (R341): A fault record is written to the fault queue and the doorbell filled, retrying every 256 cycles when full. -/
  | faultRecordWrite (t : Nat)
  /-- INVAL_COMMAND (R347): An owner drops entries, aborts walks, drains uses and acknowledges an invalidation. -/
  | invalCommand (n : Nat)
  /-- SYS_BROADCAST_ACK (R278): An acknowledgement of INVAL, SEGLD or RT_CLASS broadcast reaches the issuing tile. -/
  | sysBroadcastAck (n : Nat)
  /-- SEGLD_TABLE (R31): A tile receives a broadcast segment table and checks each descriptor. -/
  | segldTable (n : Nat)
  /-- RT_CLASS_UPDATE (R378): A router receives a class-table write broadcast. -/
  | rtClassUpdate (n : Nat)
  /-- CLASS_SWITCH_TAKE (R378): At the agreed timebase value every router takes the new POST entry and resumes. -/
  | classSwitchTake (t : Nat)
  /-- VAULT_FILL_RETURN (R303): A vault miss's fill returns and its joined requests are performed in order. -/
  | vaultFillReturn (t n errs : Nat)
  /-- WRITEBACK_ENTRY_FREE (R303): A write-back entry drains and a waiting miss copies its victim and issues its read. -/
  | writebackEntryFree (t n : Nat)
  /-- PREFETCH_ISSUE (R304): A trained stream issues a whole-line prefetch. -/
  | prefetchIssue (t n : Nat)
  /-- SCRUB_READ (R300): The scrubber reads a line, correcting, poisoning or marking a bank failed. -/
  | scrubRead (t line : Nat) (seen : LineRead)
  /-- ROUTER_HOP (R381): A packet moves to the next router when the downstream virtual channel has room. -/
  | routerHop (n : Nat)
  /-- AGE_TICK (R388): Every 256 cycles each router increments the AGE of the packets it holds. -/
  | ageTick (md : Nat)
  /-- PERIODIC_DRAIN (R389): Every 65,536 cycles routers suspend and move one candidate per link along the drain circuit. -/
  | periodicDrain (md : Nat)
  /-- LINK_FAILURE (R390): A link that fails 16 retries becomes dead and firmware recomputes the fabric tables. -/
  | linkFailure (md site port : Nat)
  /-- ROUTER_FAILURE (R393): A router failure strands tiles and the tables are recomputed. -/
  | routerFailure (md site plane : Nat)
  /-- NAME_TABLE_SWITCH (R392): At the agreed timebase value all routers switch to new name tables. -/
  | nameTableSwitch (md : Nat)
  /-- TILE_RESET (R394): A tile's units are reset for fault containment while its routers run on. -/
  | tileReset (t : Nat)
  /-- NONRESIDENT_SPILL (R351): A message for a non-resident ASID goes to its spill region or is refused and re-offered every 256 cycles. -/
  | nonresidentSpill (n : Nat)
  /-- GANG_STOP (R349): At T each tile stops issue, drains and parks its units and ejects the partition's packets. -/
  | gangStop (t : Nat)
  /-- GANG_SAVE (R350): Once every tile is parked, each tile saves the partition state to the vault. -/
  | gangSave (t : Nat)
  /-- GANG_RESUME (R352): At the agreed value tiles restore state, re-inject fall-out, deliver spills and restart. -/
  | gangResume (asid : Nat)
  /-- POWER_ON_RESET (R414): At power-on or module reset the Bureau runs the boot chain. -/
  | powerOnReset (md : Nat)
  /-- RECOVERY_INSTALL (R416): MG_RCMD command 1 checks and installs the staged firmware image. -/
  | recoveryInstall (md : Nat)
  /-- RECOVERY_LOG_RESET (R418): MG_RCMD command 2 applies a signed retirement-log reset. -/
  | recoveryLogReset (md : Nat)
  /-- HOST_REGISTER_WRITE (R400): A host write to a BAR0 register with no behaviour of its own. -/
  | hostRegisterWrite (md port off : Nat) (val : BitVec 64)
  /-- MG_SEM_READ (R401): A semaphore read returns its value and acquires it for the reading port. -/
  | mgSemRead (md port n : Nat)
  /-- MG_SEM_WRITE (R401): A write of 0 from the holding port releases a semaphore. -/
  | mgSemWrite (md port n : Nat) (val : BitVec 64)
  /-- MG_LQTAIL (R404): A tail write submits launch records once earlier writes are performed. -/
  | mgLqtail (md port : Nat) (val : BitVec 64)
  /-- LAUNCH_VALIDATE (R312): The Bureau copies and validates a submitted launch record. -/
  | launchValidate (md : Nat)
  /-- LAUNCH_PLACE (R316): An eligible gang is placed whole on its free rectangle. -/
  | launchPlace (md lid : Nat)
  /-- BACKFILL_FENCE (R315): After 10 ms unplaced, the head gang's tiles are fenced from other gangs. -/
  | backfillFence (md : Nat)
  /-- LAUNCH_COMPLETE (R317): A drained launch frees its tiles and writes its completion record. -/
  | launchComplete (md lid : Nat)
  /-- MG_RETIRE (R419): A host retirement write retires a unit by gang switch and repair. -/
  | mgRetire (md port : Nat) (val : BitVec 64)
  /-- MG_ABORT (R405): A host write stops and discards a launch, completing it ABORTED. -/
  | mgAbort (md port : Nat) (val : BitVec 64)
  /-- MG_CTX (R400): A host write loads the selected slot's context while halted. -/
  | mgCtx (md port off : Nat) (val : BitVec 64)
  /-- DBG_HALT (R409): A HALT write latches a halt time H for the module or pod. -/
  | dbgHalt (md : Nat) (pod : Bool)
  /-- DBG_RESUME (R409): A RESUME write sets a resume time, or restarts BRK-stopped cores. -/
  | dbgResume (md : Nat) (pod : Bool)
  /-- DBG_FREEZE (R413): A FREEZE write while halted stops every clock of the module. -/
  | dbgFreeze (md : Nat)
  /-- DBG_BRKHALT (R410): A BRKHALT write makes BRK halt its core instead of trapping. -/
  | dbgBrkhalt (md : Nat) (on : Bool)
  /-- MG_DBGSTEP (R411): A TID write steps one HALTED thread by one instruction. -/
  | mgDbgstep (md : Nat) (val : BitVec 64)
  /-- DEBUG_HALT_TAKE (R409): At H every core stops issue and units fall out as at a gang stop. -/
  | debugHaltTake (md : Nat)
  /-- DEBUG_RESUME_TAKE (R409): At the resume value fall-out is re-injected and issue restarts. -/
  | debugResumeTake (md : Nat)
  /-- STEP_END (R411): A debug step ends and the units halt again with reason 3. -/
  | stepEnd (md : Nat)
  /-- APERTURE_READ (R402): A host read at BAR2 becomes remote reads of device memory. -/
  | apertureRead (md port off size : Nat)
  /-- APERTURE_WRITE (R402): A host write at BAR2 becomes posted writes of device memory. -/
  | apertureWrite (md port off : Nat) (bytes : List (BitVec 8))
  /-- PORT_LINK_DOWN (R399): A port's link goes down, releasing its semaphores and stopping its launch queue. -/
  | portLinkDown (md port : Nat)
  /-- HOST_COMPLETION_TIMEOUT (R407): A host-window operation without completion in 50 ms traps or records a denial. -/
  | hostCompletionTimeout (n : Nat)
  /-- GET_VERSION (R422): SPDM request answered by the responder. -/
  | getVersion (md port : Nat)
  /-- GET_CAPABILITIES (R422): SPDM capabilities request. -/
  | getCapabilities (md port : Nat)
  /-- NEGOTIATE_ALGORITHMS (R422): SPDM algorithm negotiation request. -/
  | negotiateAlgorithms (md port : Nat)
  /-- GET_DIGESTS (R422): SPDM certificate digest request. -/
  | getDigests (md port : Nat)
  /-- GET_CERTIFICATE (R422): SPDM request for the identity certificate. -/
  | getCertificate (md port : Nat)
  /-- CHALLENGE (R422): SPDM challenge signed with the module's key. -/
  | challenge (md port : Nat) (nonce : BitVec 256)
  /-- GET_MEASUREMENTS (R422): SPDM request for the five measurements. -/
  | getMeasurements (md port n : Nat)
  /-- POWER_EXCURSION (R424): Supply or temperature out of range for 10 ms stops every resident partition. -/
  | powerExcursion (md : Nat)
  /-- POWER_RESTORED (R424): 1 s after values return the Bureau resumes placement. -/
  | powerRestored (md : Nat)
  /-- THERMAL_SHUTDOWN (R424): Beyond the hard temperature limit the module removes its own power. -/
  | thermalShutdown (md : Nat)
  /-- ILLEGAL_ENCODING (R61): An issued halfword or word that R61 does not accept as an instruction traps ILLEGAL with its bits in TH_VALUE. -/
  | illegalEncoding (w : BitVec 32)
  /-- FETCH_FAULT (R15): An issue turn whose fetch fails the segment checks traps SEG_INVALID, SEG_RIGHTS or SEG_BOUNDS with EPC at the fetch address. -/
  | fetchFault (cause : BitVec 8)
  /-- HOST_LINK_UP (R399): A host port's PCI Express link trains up again, so its port router counts for the host component and the port can take launch records again. -/
  | hostLinkUp (md port : Nat)
  /-- EJECTION_PORT_REOPEN (R394): The Bureau reopens a reset tile's ejection port, and the packets that wait there for the tile are delivered. -/
  | ejectionPortReopen (t : Nat)
  deriving DecidableEq, Repr

end Sys2Proof
end

