-- ==== Sys2Proof/WellFormed.lean ====
section
/-! DEFINITION. Which instructions are well formed: the checks of 02 R48, R53, R55, R56, R58, R59, R60 and R61 on the fields
of an encoded instruction, each with the name of the check that refuses. -/
namespace Sys2Proof

/-- Why a bit pattern is no instruction (02 R61). -/
inductive DecodeError where
  /-- fewer bytes than the first halfword's length bit asks for -/
  | truncated
  /-- the halfword 0x0000 (R48) -/
  | zeroHalfword
  /-- a reserved major opcode (R54) -/
  | reservedMajor
  /-- a selector value that R55, R56 or R57 does not list -/
  | selector
  /-- a nonzero reserved field (R53) -/
  | reservedField
  /-- a general-register field holding 24 to 31 (R48, R53) -/
  | register
  /-- a register group past g23, or a status register inside it (R53, 11 R224) -/
  | group
  /-- a mask field outside its range (R53) -/
  | mask
  /-- a type code the operation does not accept (R58, R59, R60) -/
  | typeCode
  /-- a static rounding field of 5 or 6 (R55) -/
  | rounding
  /-- a combination that R56 excludes -/
  | combination
  deriving DecidableEq, Repr

namespace Instr

/-- A general-register field names g0 to g23 (02 R53). -/
def reg (r : BitVec 5) : Bool := decide (r.toNat < 24)

def regs (rs : List (BitVec 5)) : Bool := rs.all reg

/-- A group of four consecutive registers ends at g23 or below (02 R53). -/
def group (r : BitVec 5) : Bool := decide (r.toNat + 3 ≤ 23)

/-- A status register lies outside the group it accompanies (11 R224). -/
def outside (g c : BitVec 5) : Bool := decide (c.toNat < g.toNat) || decide (g.toNat + 3 < c.toNat)

/-- A destination mask is k1 to k3 (02 R53). -/
def maskDest (k : BitVec 3) : Bool := decide (1 ≤ k.toNat) && decide (k.toNat ≤ 3)

/-- A source mask is k0 to k3 (02 R53). -/
def maskSource (k : BitVec 3) : Bool := decide (k.toNat ≤ 3)

/-- A rounding field holds 0 to 4 or 7 (02 R55). -/
def rounding (r : BitVec 3) : Bool := decide (r.toNat ≤ 4) || decide (r.toNat = 7)

/-- The type codes of class I (02 R58). -/
def tyI (t : BitVec 4) : Bool := [0, 1, 5, 6, 7, 8].contains t.toNat
/-- The type codes of class F (02 R58). -/
def tyF (t : BitVec 4) : Bool := [2, 3, 4].contains t.toNat
def tyIF (t : BitVec 4) : Bool := tyI t || tyF t
/-- The types of VABS and VNEG (02 R59). -/
def tyAbs (t : BitVec 4) : Bool := [0, 5, 7].contains t.toNat || tyF t
def tyAny (t : BitVec 4) : Bool := decide (t.toNat ≤ 10)
/-- The packed types of VQUANT and VDEQ (02 R59). -/
def tyPack (t : BitVec 4) : Bool := [7, 9, 10].contains t.toNat
/-- The types of VDOT and VDOTS (02 R59). -/
def tyDot (t : BitVec 4) : Bool := [3, 4, 7, 8].contains t.toNat
/-- The types of the element-wise memory forms (02 R59). -/
def tyMem (t : BitVec 4) : Bool := [0, 1, 2].contains t.toNat

/-- The name of the first check of a list that fails. -/
def firstDefect : List (Bool × DecodeError) → Option DecodeError
  | [] => none
  | (ok, e) :: rest => if ok then firstDefect rest else some e

/-- The first check of 02 R61 that the fields of an instruction fail; an event has no encoding and fails none. -/
def defect : Instr → Option DecodeError
  | .add _ d a b => firstDefect [(regs [d, a, b], .register)]
  | .sub _ d a b => firstDefect [(regs [d, a, b], .register)]
  | .and _ d a b => firstDefect [(regs [d, a, b], .register)]
  | .or _ d a b => firstDefect [(regs [d, a, b], .register)]
  | .xor _ d a b => firstDefect [(regs [d, a, b], .register)]
  | .andn _ d a b => firstDefect [(regs [d, a, b], .register)]
  | .orn _ d a b => firstDefect [(regs [d, a, b], .register)]
  | .xnor _ d a b => firstDefect [(regs [d, a, b], .register)]
  | .shl _ d a b => firstDefect [(regs [d, a, b], .register)]
  | .shr _ d a b => firstDefect [(regs [d, a, b], .register)]
  | .sra _ d a b => firstDefect [(regs [d, a, b], .register)]
  | .rol _ d a b => firstDefect [(regs [d, a, b], .register)]
  | .ror _ d a b => firstDefect [(regs [d, a, b], .register)]
  | .minS _ d a b => firstDefect [(regs [d, a, b], .register)]
  | .minZ _ d a b => firstDefect [(regs [d, a, b], .register)]
  | .maxS _ d a b => firstDefect [(regs [d, a, b], .register)]
  | .maxZ _ d a b => firstDefect [(regs [d, a, b], .register)]
  | .addW _ d a b => firstDefect [(regs [d, a, b], .register)]
  | .subW _ d a b => firstDefect [(regs [d, a, b], .register)]
  | .shlW _ d a b => firstDefect [(regs [d, a, b], .register)]
  | .shrW _ d a b => firstDefect [(regs [d, a, b], .register)]
  | .sraW _ d a b => firstDefect [(regs [d, a, b], .register)]
  | .mul _ d a b => firstDefect [(regs [d, a, b], .register)]
  | .mulhS _ d a b => firstDefect [(regs [d, a, b], .register)]
  | .mulhZ _ d a b => firstDefect [(regs [d, a, b], .register)]
  | .mulhSz _ d a b => firstDefect [(regs [d, a, b], .register)]
  | .divS _ d a b => firstDefect [(regs [d, a, b], .register)]
  | .divZ _ d a b => firstDefect [(regs [d, a, b], .register)]
  | .remS _ d a b => firstDefect [(regs [d, a, b], .register)]
  | .remZ _ d a b => firstDefect [(regs [d, a, b], .register)]
  | .mulW _ d a b => firstDefect [(regs [d, a, b], .register)]
  | .clz _ d a => firstDefect [(regs [d, a], .register)]
  | .ctz _ d a => firstDefect [(regs [d, a], .register)]
  | .popc _ d a => firstDefect [(regs [d, a], .register)]
  | .bswap _ d a => firstDefect [(regs [d, a], .register)]
  | .brev _ d a => firstDefect [(regs [d, a], .register)]
  | .sextB _ d a => firstDefect [(regs [d, a], .register)]
  | .sextH _ d a => firstDefect [(regs [d, a], .register)]
  | .sextW _ d a => firstDefect [(regs [d, a], .register)]
  | .zextB _ d a => firstDefect [(regs [d, a], .register)]
  | .zextH _ d a => firstDefect [(regs [d, a], .register)]
  | .zextW _ d a => firstDefect [(regs [d, a], .register)]
  | .addi _ d a _ => firstDefect [(regs [d, a], .register)]
  | .andi _ d a _ => firstDefect [(regs [d, a], .register)]
  | .ori _ d a _ => firstDefect [(regs [d, a], .register)]
  | .xori _ d a _ => firstDefect [(regs [d, a], .register)]
  | .shli _ d a _ => firstDefect [(regs [d, a], .register)]
  | .shri _ d a _ => firstDefect [(regs [d, a], .register)]
  | .srai _ d a _ => firstDefect [(regs [d, a], .register)]
  | .roli _ d a _ => firstDefect [(regs [d, a], .register)]
  | .shliW _ d a n => firstDefect [(regs [d, a], .register), (decide (n.toNat ≤ 31), .combination)]
  | .shriW _ d a n => firstDefect [(regs [d, a], .register), (decide (n.toNat ≤ 31), .combination)]
  | .sraiW _ d a n => firstDefect [(regs [d, a], .register), (decide (n.toNat ≤ 31), .combination)]
  | .lui _ d _ => firstDefect [(regs [d], .register)]
  | .auipc _ d _ => firstDefect [(regs [d], .register)]
  | .lih _ d _ => firstDefect [(regs [d], .register)]
  | .bfxZ _ d a p l => firstDefect [(regs [d, a], .register), (decide (p.toNat + l.toNat + 1 ≤ 64), .combination)]
  | .bfxS _ d a p l => firstDefect [(regs [d, a], .register), (decide (p.toNat + l.toNat + 1 ≤ 64), .combination)]
  | .bfi _ d a p l => firstDefect [(regs [d, a], .register), (decide (p.toNat + l.toNat + 1 ≤ 64), .combination)]
  | .cmp _ _ a b c => firstDefect [(regs [a, b], .register), (decide (c.toNat ≤ 10), .selector)]
  | .cmpi _ _ a c _ => firstDefect [(regs [a], .register), (decide (c.toNat ≤ 10), .selector)]
  | .pand _ _ _ _ => none
  | .por _ _ _ _ => none
  | .pxor _ _ _ _ => none
  | .pandn _ _ _ _ => none
  | .pnot _ _ _ => none
  | .prd _ d _ => firstDefect [(regs [d], .register)]
  | .pwr _ a _ => firstDefect [(regs [a], .register)]
  | .sel _ d a b _ => firstDefect [(regs [d, a, b], .register)]
  | .j _ _ => none
  | .call _ _ => none
  | .bp _ _ _ => none
  | .bnp _ _ _ => none
  | .jr _ a => firstDefect [(regs [a], .register)]
  | .callr _ a => firstDefect [(regs [a], .register)]
  | .ret _ => none
  | .bz _ _ a _ => firstDefect [(regs [a], .register)]
  | .bnz _ _ a _ => firstDefect [(regs [a], .register)]
  | .nop _ => none
  | .yield _ => none
  | .exit _ => none
  | .sleep _ a => firstDefect [(regs [a], .register)]
  | .cMv m a b => firstDefect [(regs [a, b], .register), (m || a != 0 || b != 0, .zeroHalfword)]
  | .cAdd _ a b => firstDefect [(regs [a, b], .register)]
  | .cSub _ a b => firstDefect [(regs [a, b], .register)]
  | .cAnd _ a b => firstDefect [(regs [a, b], .register)]
  | .cOr _ a b => firstDefect [(regs [a, b], .register)]
  | .cXor _ a b => firstDefect [(regs [a, b], .register)]
  | .cShli _ a _ => firstDefect [(regs [a], .register)]
  | .cShri _ a _ => firstDefect [(regs [a], .register)]
  | .cSrai _ a _ => firstDefect [(regs [a], .register)]
  | .cAddi _ a _ => firstDefect [(regs [a], .register)]
  | .cLi _ a _ => firstDefect [(regs [a], .register)]
  | .cLd _ a b => firstDefect [(regs [a, b], .register)]
  | .cSt _ a b => firstDefect [(regs [a, b], .register)]
  | .cCmpeq _ a b => firstDefect [(regs [a, b], .register)]
  | .cCmplt _ a b => firstDefect [(regs [a, b], .register)]
  | .cBp1 _ _ => none
  | .ld _ d a f _ => firstDefect [(regs [d, a], .register), (decide (f.toNat ≤ 6), .selector)]
  | .ldr _ d a f _ => firstDefect [(regs [d, a], .register), (decide (f.toNat ≤ 6), .selector)]
  | .st _ d a f _ => firstDefect [(regs [d, a], .register), (decide (f.toNat ≤ 3), .selector)]
  | .str _ d a f _ => firstDefect [(regs [d, a], .register), (decide (f.toNat ≤ 3), .selector)]
  | .ldfe _ d a _ => firstDefect [(regs [d, a], .register)]
  | .ldff _ d a _ => firstDefect [(regs [d, a], .register)]
  | .stef _ d a _ => firstDefect [(regs [d, a], .register)]
  | .stff _ d a _ => firstDefect [(regs [d, a], .register)]
  | .feprobe _ d a _ => firstDefect [(regs [d, a], .register)]
  | .feset _ d a _ => firstDefect [(regs [d, a], .register)]
  | .migrate _ a _ => firstDefect [(regs [a], .register)]
  | .pin _ => none
  | .unpin _ => none
  | .home _ => none
  | .here _ d => firstDefect [(regs [d], .register)]
  | .ramo _ a b p z o => firstDefect [(regs [a, b], .register), (decide (p.toNat ≤ 10), .selector), (decide (z.toNat ≤ 1), .combination), (decide (o.toNat ≤ 3), .combination)]
  | .amo _ d a b p z o => firstDefect [(regs [d, a, b], .register), (decide (p.toNat ≤ 10), .selector), (decide (z.toNat ≤ 1), .combination), (decide (o.toNat ≤ 3), .combination)]
  | .cas _ d a b c _ _ => firstDefect [(regs [d, a, b, c], .register)]
  | .fence _ s k => firstDefect [(decide (k.toNat ≤ 3), .combination), (decide (s.toNat ≤ 2), .combination)]
  | .barInit _ a b => firstDefect [(regs [a, b], .register)]
  | .barArr _ d a b => firstDefect [(regs [d, a, b], .register)]
  | .barWait _ d a b => firstDefect [(regs [d, a, b], .register)]
  | .barArrw _ d a b => firstDefect [(regs [d, a, b], .register)]
  | .barCmb _ d a b => firstDefect [(regs [d, a, b], .register)]
  | .barCmbw _ d a b => firstDefect [(regs [d, a, b], .register)]
  | .hbar _ l => firstDefect [(decide (1 ≤ l.toNat) && decide (l.toNat ≤ 4), .combination)]
  | .hbarCmb _ d a l o => firstDefect [(regs [d, a], .register), (decide (1 ≤ l.toNat) && decide (l.toNat ≤ 4), .combination), (decide (o.toNat ≤ 5), .combination)]
  | .time _ d => firstDefect [(regs [d], .register)]
  | .waitt _ a => firstDefect [(regs [a], .register)]
  | .cycle _ d => firstDefect [(regs [d], .register)]
  | .fadd _ d a b _ r => firstDefect [(regs [d, a, b], .register), (rounding r, .rounding)]
  | .fsub _ d a b _ r => firstDefect [(regs [d, a, b], .register), (rounding r, .rounding)]
  | .fmul _ d a b _ r => firstDefect [(regs [d, a, b], .register), (rounding r, .rounding)]
  | .fdiv _ d a b _ r => firstDefect [(regs [d, a, b], .register), (rounding r, .rounding)]
  | .fsqrt _ d a _ r => firstDefect [(regs [d, a], .register), (rounding r, .rounding)]
  | .fmin _ d a b _ => firstDefect [(regs [d, a, b], .register)]
  | .fmax _ d a b _ => firstDefect [(regs [d, a, b], .register)]
  | .fsgnj _ d a b _ => firstDefect [(regs [d, a, b], .register)]
  | .fsgnjn _ d a b _ => firstDefect [(regs [d, a, b], .register)]
  | .fsgnjx _ d a b _ => firstDefect [(regs [d, a, b], .register)]
  | .fclass _ d a _ => firstDefect [(regs [d, a], .register)]
  | .fma _ d a b c _ => firstDefect [(regs [d, a, b, c], .register)]
  | .fms _ d a b c _ => firstDefect [(regs [d, a, b, c], .register)]
  | .fnma _ d a b c _ => firstDefect [(regs [d, a, b, c], .register)]
  | .fnms _ d a b c _ => firstDefect [(regs [d, a, b, c], .register)]
  | .fcmp _ _ a b c _ => firstDefect [(regs [a, b], .register), (decide (c.toNat ≤ 3), .selector)]
  | .fcvt _ d a f o r _ => firstDefect [(regs [d, a], .register), (rounding r, .rounding), (decide (f.toNat ≤ 9) && decide (o.toNat ≤ 9), .typeCode), (f != o, .combination)]
  | .vadd _ _ _ _ _ t => firstDefect [(tyIF t, .typeCode)]
  | .vsub _ _ _ _ _ t => firstDefect [(tyIF t, .typeCode)]
  | .vmul _ _ _ _ _ t => firstDefect [(tyIF t, .typeCode)]
  | .vmulh _ _ _ _ _ t => firstDefect [(tyI t, .typeCode)]
  | .vmin _ _ _ _ _ t => firstDefect [(tyIF t, .typeCode)]
  | .vmax _ _ _ _ _ t => firstDefect [(tyIF t, .typeCode)]
  | .vand _ _ _ _ _ t => firstDefect [(tyI t, .typeCode)]
  | .vor _ _ _ _ _ t => firstDefect [(tyI t, .typeCode)]
  | .vxor _ _ _ _ _ t => firstDefect [(tyI t, .typeCode)]
  | .vshl _ _ _ _ _ t => firstDefect [(tyI t, .typeCode)]
  | .vshr _ _ _ _ _ t => firstDefect [(tyI t, .typeCode)]
  | .vsra _ _ _ _ _ t => firstDefect [(tyI t, .typeCode)]
  | .vabs _ _ _ _ t => firstDefect [(tyAbs t, .typeCode)]
  | .vneg _ _ _ _ t => firstDefect [(tyAbs t, .typeCode)]
  | .vfma _ _ _ _ _ t => firstDefect [(tyF t, .typeCode)]
  | .vfms _ _ _ _ _ t => firstDefect [(tyF t, .typeCode)]
  | .vfnma _ _ _ _ _ t => firstDefect [(tyF t, .typeCode)]
  | .vcmp _ d _ _ _ t c => firstDefect [(decide (c.toNat ≤ 6), .selector), (maskDest d, .mask), (if c.toNat = 6 then tyF t else tyIF t, .typeCode)]
  | .vsel _ _ _ _ _ t => firstDefect [(tyAny t, .typeCode)]
  | .vperm _ _ _ _ _ t => firstDefect [(tyAny t, .typeCode)]
  | .vbcast _ _ _ g t => firstDefect [(regs [g], .register), (tyAny t, .typeCode)]
  | .vext _ _ g h t => firstDefect [(regs [g, h], .register), (tyAny t, .typeCode)]
  | .vins _ _ g h t => firstDefect [(regs [g, h], .register), (tyAny t, .typeCode)]
  | .viota _ _ _ t => firstDefect [(tyI t, .typeCode)]
  | .vrsum _ _ _ g t => firstDefect [(regs [g], .register), (tyIF t, .typeCode)]
  | .vrmax _ _ _ g t => firstDefect [(regs [g], .register), (tyIF t, .typeCode)]
  | .vrmin _ _ _ g t => firstDefect [(regs [g], .register), (tyIF t, .typeCode)]
  | .vrmaxabs _ _ _ g t => firstDefect [(regs [g], .register), (tyF t, .typeCode)]
  | .vcvt _ _ _ _ o f => firstDefect [(tyAny f && tyAny o, .typeCode), (f != o, .combination)]
  | .vquant _ _ _ g r _ t => firstDefect [(regs [g], .register), (rounding r, .rounding), (tyPack t, .typeCode)]
  | .vdeq _ _ _ g t => firstDefect [(regs [g], .register), (tyPack t, .typeCode)]
  | .vdot _ _ _ _ _ t => firstDefect [(tyDot t, .typeCode)]
  | .vdots _ _ _ _ _ t => firstDefect [(tyDot t, .typeCode)]
  | .vld _ _ _ g _ => firstDefect [(regs [g], .register)]
  | .vst _ _ _ g _ => firstDefect [(regs [g], .register)]
  | .vlds _ _ _ g h t => firstDefect [(regs [g, h], .register), (tyMem t, .typeCode)]
  | .vsts _ _ _ g h t => firstDefect [(regs [g, h], .register), (tyMem t, .typeCode)]
  | .vgth _ _ _ g _ t => firstDefect [(regs [g], .register), (tyMem t, .typeCode)]
  | .vsct _ _ _ g _ t => firstDefect [(regs [g], .register), (tyMem t, .typeCode)]
  | .kand _ d a b => firstDefect [(maskDest d && maskSource a && maskSource b, .mask)]
  | .kor _ d a b => firstDefect [(maskDest d && maskSource a && maskSource b, .mask)]
  | .kxor _ d a b => firstDefect [(maskDest d && maskSource a && maskSource b, .mask)]
  | .knot _ d a => firstDefect [(maskDest d && maskSource a, .mask)]
  | .kmovGk _ v g => firstDefect [(regs [g], .register), (maskDest v, .mask)]
  | .kmovKg _ v g => firstDefect [(regs [g], .register), (maskSource v, .mask)]
  | .kpop _ v g => firstDefect [(regs [g], .register), (maskSource v, .mask)]
  | .ktest _ v _ g => firstDefect [(regs [g], .register), (maskSource v, .mask)]
  | .vfree _ _ => none
  | .vmov _ _ _ _ => none
  | .mlease _ => none
  | .mtryl _ d => firstDefect [(regs [d], .register)]
  | .mrel _ a => firstDefect [(regs [a], .register)]
  | .missue _ d a => firstDefect [(regs [d, a], .register)]
  | .mwait _ d a => firstDefect [(regs [d, a], .register)]
  | .mseq _ d a => firstDefect [(regs [d, a], .register)]
  | .maccv _ _ a => firstDefect [(regs [a], .register)]
  | .maccw _ _ a => firstDefect [(regs [a], .register)]
  | .spawn _ d b c => firstDefect [(regs [d, b, c], .register)]
  | .spawnat _ d b c => firstDefect [(regs [d, b, c], .register)]
  | .spawnany _ d b c => firstDefect [(regs [d, b, c], .register)]
  | .tid _ d => firstDefect [(regs [d], .register)]
  | .prio _ a => firstDefect [(regs [a], .register)]
  | .qsend _ g h => firstDefect [(regs [g, h], .register), (group g, .group)]
  | .qrecv _ g h c => firstDefect [(regs [g, h, c], .register), (group g, .group), (outside g c, .group)]
  | .qeos _ h => firstDefect [(regs [h], .register)]
  | .qstat _ d h => firstDefect [(regs [d, h], .register)]
  | .dsend _ g h => firstDefect [(regs [g, h], .register), (group g, .group)]
  | .drecv _ g h c => firstDefect [(regs [g, h, c], .register), (group g, .group), (outside g c, .group)]
  | .dseal _ h c => firstDefect [(regs [h, c], .register)]
  | .dquiet _ d h => firstDefect [(regs [d, h], .register)]
  | .xupd _ d h c => firstDefect [(regs [d, h, c], .register), (group c, .group)]
  | .xscan _ g h => firstDefect [(regs [g, h], .register), (group g, .group)]
  | .xcnt _ d h c => firstDefect [(regs [d, h, c], .register)]
  | .cpy _ a b c l => firstDefect [(regs [a, b, c, l], .register)]
  | .cpy2d _ a b => firstDefect [(regs [a, b], .register)]
  | .awinit _ d b c => firstDefect [(regs [d, b, c], .register)]
  | .awwait _ d b c => firstDefect [(regs [d, b, c], .register)]
  | .scstart _ d b c => firstDefect [(regs [d, b, c], .register)]
  | .scmail _ d b c => firstDefect [(regs [d, b, c], .register)]
  | .scwait _ d c => firstDefect [(regs [d, c], .register)]
  | .sysr _ d _ => firstDefect [(regs [d], .register)]
  | .sysw _ a _ => firstDefect [(regs [a], .register)]
  | .trap _ _ => none
  | .syscall _ => none
  | .eret _ => none
  | .brk _ => none
  | .wake _ a b => firstDefect [(regs [a, b], .register)]
  | .inval _ b => firstDefect [(regs [b], .register)]
  | .segld _ b => firstDefect [(regs [b], .register)]
  | .bkRd _ _ => none
  | .bkWr _ _ => none
  | .bkGet _ _ _ _ => none
  | .bkPut _ _ _ _ => none
  | .bkWait _ _ _ => none
  | .bkSig _ _ => none
  | .bookendBaseInstruction .. => none
  | .longResultReturn .. => none
  | .normaliserServiceEnd .. => none
  | .sleepDeadline .. => none
  | .vectorBind .. => none
  | .storeBufferDrain .. => none
  | .migrationCommit .. => none
  | .departureConvert .. => none
  | .hutchAdmit .. => none
  | .hutchDispatch .. => none
  | .contextLoadDone .. => none
  | .idleDonationRequest .. => none
  | .donationShip .. => none
  | .parkMove .. => none
  | .wakeMessage .. => none
  | .retireNote .. => none
  | .quotaIncrement .. => none
  | .quotaDecrement .. => none
  | .remoteRequest .. => none
  | .remoteResponse .. => none
  | .postedOp .. => none
  | .postedAck .. => none
  | .waiterRetry .. => none
  | .feBudgetExpire .. => none
  | .feWithdrawAck .. => none
  | .barWaitTimeout .. => none
  | .hbarTreeArrive .. => none
  | .hbarTreeRelease .. => none
  | .hbarTimeout .. => none
  | .queueRecordAppend .. => none
  | .resendRetry .. => none
  | .dresserRecordApply .. => none
  | .dresserNote .. => none
  | .bandPass .. => none
  | .trestleCommandStart .. => none
  | .trestleStep .. => none
  | .trestleCommandComplete .. => none
  | .operandLineRequest .. => none
  | .mcastWindowExpire .. => none
  | .operandLineArrive .. => none
  | .leaseExpireTime .. => none
  | .copyPieceIssue .. => none
  | .copyRead .. => none
  | .copyWrite .. => none
  | .arrivalCount .. => none
  | .pageWalkComplete .. => none
  | .faultRecordWrite .. => none
  | .invalCommand .. => none
  | .sysBroadcastAck .. => none
  | .segldTable .. => none
  | .rtClassUpdate .. => none
  | .classSwitchTake .. => none
  | .vaultFillReturn .. => none
  | .writebackEntryFree .. => none
  | .prefetchIssue .. => none
  | .scrubRead .. => none
  | .routerHop .. => none
  | .ageTick .. => none
  | .periodicDrain .. => none
  | .linkFailure .. => none
  | .routerFailure .. => none
  | .nameTableSwitch .. => none
  | .tileReset .. => none
  | .nonresidentSpill .. => none
  | .gangStop .. => none
  | .gangSave .. => none
  | .gangResume .. => none
  | .powerOnReset .. => none
  | .recoveryInstall .. => none
  | .recoveryLogReset .. => none
  | .hostRegisterWrite .. => none
  | .mgSemRead .. => none
  | .mgSemWrite .. => none
  | .mgLqtail .. => none
  | .launchValidate .. => none
  | .launchPlace .. => none
  | .backfillFence .. => none
  | .launchComplete .. => none
  | .mgRetire .. => none
  | .mgAbort .. => none
  | .mgCtx .. => none
  | .dbgHalt .. => none
  | .dbgResume .. => none
  | .dbgFreeze .. => none
  | .dbgBrkhalt .. => none
  | .mgDbgstep .. => none
  | .debugHaltTake .. => none
  | .debugResumeTake .. => none
  | .stepEnd .. => none
  | .apertureRead .. => none
  | .apertureWrite .. => none
  | .portLinkDown .. => none
  | .hostCompletionTimeout .. => none
  | .getVersion .. => none
  | .getCapabilities .. => none
  | .negotiateAlgorithms .. => none
  | .getDigests .. => none
  | .getCertificate .. => none
  | .challenge .. => none
  | .getMeasurements .. => none
  | .powerExcursion .. => none
  | .powerRestored .. => none
  | .thermalShutdown .. => none
  | .illegalEncoding .. => none
  | .fetchFault .. => none
  | .hostLinkUp .. => none
  | .ejectionPortReopen .. => none

end Instr

/-- An instruction all of whose fields pass the checks of 02 R61. -/
def WellFormed (i : Instr) : Prop := i.defect = none

/-- The same check as a Boolean. -/
def wellFormed (i : Instr) : Bool := decide (i.defect = none)

end Sys2Proof
end

