-- ==== Sys2Proof/Decode.lean ====
section
/-! DEFINITION. The decoder and the encoder of 02 R45 to R61 and 12 R265: one row per encoding, a mask, a pattern and the
fields; a decoder total on any bytes, which refuses by name; and the words of an instruction. -/
namespace Sys2Proof

/-- Bits lo to lo + n - 1 of a word. -/
def bits (w lo n : Nat) : BitVec n := BitVec.ofNat n (w / 2 ^ lo)

/-- Bit lo of a word. -/
def flag (w lo : Nat) : Bool := w / 2 ^ lo % 2 == 1

/-- One encoding: the fixed bits (mask and their pattern) and the instruction its fields name. -/
structure Row where
  pattern : Nat
  mask : Nat
  build : Nat → Instr

def Row.covers (r : Row) (w : Nat) : Bool := w &&& r.mask == r.pattern

/-- The sixteen compact forms (02 R47). -/
def rowsCompact : List Row := [
  ⟨0x0000, 0x001f, fun w => .cMv (flag w 15) (bits w 5 5) (bits w 10 5)⟩,
  ⟨0x0002, 0x001f, fun w => .cAdd (flag w 15) (bits w 5 5) (bits w 10 5)⟩,
  ⟨0x0004, 0x001f, fun w => .cSub (flag w 15) (bits w 5 5) (bits w 10 5)⟩,
  ⟨0x0006, 0x001f, fun w => .cAnd (flag w 15) (bits w 5 5) (bits w 10 5)⟩,
  ⟨0x0008, 0x001f, fun w => .cOr (flag w 15) (bits w 5 5) (bits w 10 5)⟩,
  ⟨0x000a, 0x001f, fun w => .cXor (flag w 15) (bits w 5 5) (bits w 10 5)⟩,
  ⟨0x000c, 0x001f, fun w => .cShli (flag w 15) (bits w 5 5) (bits w 10 5)⟩,
  ⟨0x000e, 0x001f, fun w => .cShri (flag w 15) (bits w 5 5) (bits w 10 5)⟩,
  ⟨0x0010, 0x001f, fun w => .cSrai (flag w 15) (bits w 5 5) (bits w 10 5)⟩,
  ⟨0x0012, 0x001f, fun w => .cAddi (flag w 15) (bits w 5 5) (bits w 10 5)⟩,
  ⟨0x0014, 0x001f, fun w => .cLi (flag w 15) (bits w 5 5) (bits w 10 5)⟩,
  ⟨0x0016, 0x001f, fun w => .cLd (flag w 15) (bits w 5 5) (bits w 10 5)⟩,
  ⟨0x0018, 0x001f, fun w => .cSt (flag w 15) (bits w 5 5) (bits w 10 5)⟩,
  ⟨0x001a, 0x001f, fun w => .cCmpeq (flag w 15) (bits w 5 5) (bits w 10 5)⟩,
  ⟨0x001c, 0x001f, fun w => .cCmplt (flag w 15) (bits w 5 5) (bits w 10 5)⟩,
  ⟨0x001e, 0x001f, fun w => .cBp1 (flag w 15) (bits w 5 10)⟩]

/-- Majors 0x00 to 0x02 (02 R55). -/
def rowsAlu : List Row := [
  ⟨0x00000001, 0xff8000fd, fun w => .add (flag w 1) (bits w 8 5) (bits w 13 5) (bits w 18 5)⟩,
  ⟨0x00800001, 0xff8000fd, fun w => .sub (flag w 1) (bits w 8 5) (bits w 13 5) (bits w 18 5)⟩,
  ⟨0x01000001, 0xff8000fd, fun w => .and (flag w 1) (bits w 8 5) (bits w 13 5) (bits w 18 5)⟩,
  ⟨0x01800001, 0xff8000fd, fun w => .or (flag w 1) (bits w 8 5) (bits w 13 5) (bits w 18 5)⟩,
  ⟨0x02000001, 0xff8000fd, fun w => .xor (flag w 1) (bits w 8 5) (bits w 13 5) (bits w 18 5)⟩,
  ⟨0x02800001, 0xff8000fd, fun w => .andn (flag w 1) (bits w 8 5) (bits w 13 5) (bits w 18 5)⟩,
  ⟨0x03000001, 0xff8000fd, fun w => .orn (flag w 1) (bits w 8 5) (bits w 13 5) (bits w 18 5)⟩,
  ⟨0x03800001, 0xff8000fd, fun w => .xnor (flag w 1) (bits w 8 5) (bits w 13 5) (bits w 18 5)⟩,
  ⟨0x04000001, 0xff8000fd, fun w => .shl (flag w 1) (bits w 8 5) (bits w 13 5) (bits w 18 5)⟩,
  ⟨0x04800001, 0xff8000fd, fun w => .shr (flag w 1) (bits w 8 5) (bits w 13 5) (bits w 18 5)⟩,
  ⟨0x05000001, 0xff8000fd, fun w => .sra (flag w 1) (bits w 8 5) (bits w 13 5) (bits w 18 5)⟩,
  ⟨0x05800001, 0xff8000fd, fun w => .rol (flag w 1) (bits w 8 5) (bits w 13 5) (bits w 18 5)⟩,
  ⟨0x06000001, 0xff8000fd, fun w => .ror (flag w 1) (bits w 8 5) (bits w 13 5) (bits w 18 5)⟩,
  ⟨0x06800001, 0xff8000fd, fun w => .minS (flag w 1) (bits w 8 5) (bits w 13 5) (bits w 18 5)⟩,
  ⟨0x07000001, 0xff8000fd, fun w => .minZ (flag w 1) (bits w 8 5) (bits w 13 5) (bits w 18 5)⟩,
  ⟨0x07800001, 0xff8000fd, fun w => .maxS (flag w 1) (bits w 8 5) (bits w 13 5) (bits w 18 5)⟩,
  ⟨0x08000001, 0xff8000fd, fun w => .maxZ (flag w 1) (bits w 8 5) (bits w 13 5) (bits w 18 5)⟩,
  ⟨0x10000001, 0xff8000fd, fun w => .addW (flag w 1) (bits w 8 5) (bits w 13 5) (bits w 18 5)⟩,
  ⟨0x10800001, 0xff8000fd, fun w => .subW (flag w 1) (bits w 8 5) (bits w 13 5) (bits w 18 5)⟩,
  ⟨0x11000001, 0xff8000fd, fun w => .shlW (flag w 1) (bits w 8 5) (bits w 13 5) (bits w 18 5)⟩,
  ⟨0x11800001, 0xff8000fd, fun w => .shrW (flag w 1) (bits w 8 5) (bits w 13 5) (bits w 18 5)⟩,
  ⟨0x12000001, 0xff8000fd, fun w => .sraW (flag w 1) (bits w 8 5) (bits w 13 5) (bits w 18 5)⟩,
  ⟨0x00000005, 0xff8000fd, fun w => .mul (flag w 1) (bits w 8 5) (bits w 13 5) (bits w 18 5)⟩,
  ⟨0x00800005, 0xff8000fd, fun w => .mulhS (flag w 1) (bits w 8 5) (bits w 13 5) (bits w 18 5)⟩,
  ⟨0x01000005, 0xff8000fd, fun w => .mulhZ (flag w 1) (bits w 8 5) (bits w 13 5) (bits w 18 5)⟩,
  ⟨0x01800005, 0xff8000fd, fun w => .mulhSz (flag w 1) (bits w 8 5) (bits w 13 5) (bits w 18 5)⟩,
  ⟨0x02000005, 0xff8000fd, fun w => .divS (flag w 1) (bits w 8 5) (bits w 13 5) (bits w 18 5)⟩,
  ⟨0x02800005, 0xff8000fd, fun w => .divZ (flag w 1) (bits w 8 5) (bits w 13 5) (bits w 18 5)⟩,
  ⟨0x03000005, 0xff8000fd, fun w => .remS (flag w 1) (bits w 8 5) (bits w 13 5) (bits w 18 5)⟩,
  ⟨0x03800005, 0xff8000fd, fun w => .remZ (flag w 1) (bits w 8 5) (bits w 13 5) (bits w 18 5)⟩,
  ⟨0x04000005, 0xff8000fd, fun w => .mulW (flag w 1) (bits w 8 5) (bits w 13 5) (bits w 18 5)⟩,
  ⟨0x00000009, 0xfffc00fd, fun w => .clz (flag w 1) (bits w 8 5) (bits w 13 5)⟩,
  ⟨0x00800009, 0xfffc00fd, fun w => .ctz (flag w 1) (bits w 8 5) (bits w 13 5)⟩,
  ⟨0x01000009, 0xfffc00fd, fun w => .popc (flag w 1) (bits w 8 5) (bits w 13 5)⟩,
  ⟨0x01800009, 0xfffc00fd, fun w => .bswap (flag w 1) (bits w 8 5) (bits w 13 5)⟩,
  ⟨0x02000009, 0xfffc00fd, fun w => .brev (flag w 1) (bits w 8 5) (bits w 13 5)⟩,
  ⟨0x02800009, 0xfffc00fd, fun w => .sextB (flag w 1) (bits w 8 5) (bits w 13 5)⟩,
  ⟨0x03000009, 0xfffc00fd, fun w => .sextH (flag w 1) (bits w 8 5) (bits w 13 5)⟩,
  ⟨0x03800009, 0xfffc00fd, fun w => .sextW (flag w 1) (bits w 8 5) (bits w 13 5)⟩,
  ⟨0x04000009, 0xfffc00fd, fun w => .zextB (flag w 1) (bits w 8 5) (bits w 13 5)⟩,
  ⟨0x04800009, 0xfffc00fd, fun w => .zextH (flag w 1) (bits w 8 5) (bits w 13 5)⟩,
  ⟨0x05000009, 0xfffc00fd, fun w => .zextW (flag w 1) (bits w 8 5) (bits w 13 5)⟩]

/-- Majors 0x03 to 0x0E (02 R55, R56). -/
def rowsImm : List Row := [
  ⟨0x0000000d, 0x000000fd, fun w => .addi (flag w 1) (bits w 8 5) (bits w 13 5) (bits w 18 14)⟩,
  ⟨0x00000011, 0x000000fd, fun w => .andi (flag w 1) (bits w 8 5) (bits w 13 5) (bits w 18 14)⟩,
  ⟨0x00000015, 0x000000fd, fun w => .ori (flag w 1) (bits w 8 5) (bits w 13 5) (bits w 18 14)⟩,
  ⟨0x00000019, 0x000000fd, fun w => .xori (flag w 1) (bits w 8 5) (bits w 13 5) (bits w 18 14)⟩,
  ⟨0x0000001d, 0xe07c00fd, fun w => .shli (flag w 1) (bits w 8 5) (bits w 13 5) (bits w 23 6)⟩,
  ⟨0x2000001d, 0xe07c00fd, fun w => .shri (flag w 1) (bits w 8 5) (bits w 13 5) (bits w 23 6)⟩,
  ⟨0x4000001d, 0xe07c00fd, fun w => .srai (flag w 1) (bits w 8 5) (bits w 13 5) (bits w 23 6)⟩,
  ⟨0x6000001d, 0xe07c00fd, fun w => .roli (flag w 1) (bits w 8 5) (bits w 13 5) (bits w 23 6)⟩,
  ⟨0x8000001d, 0xe07c00fd, fun w => .shliW (flag w 1) (bits w 8 5) (bits w 13 5) (bits w 23 6)⟩,
  ⟨0xa000001d, 0xe07c00fd, fun w => .shriW (flag w 1) (bits w 8 5) (bits w 13 5) (bits w 23 6)⟩,
  ⟨0xc000001d, 0xe07c00fd, fun w => .sraiW (flag w 1) (bits w 8 5) (bits w 13 5) (bits w 23 6)⟩,
  ⟨0x00000021, 0x000000fd, fun w => .lui (flag w 1) (bits w 8 5) (bits w 13 19)⟩,
  ⟨0x00000025, 0x000000fd, fun w => .auipc (flag w 1) (bits w 8 5) (bits w 13 19)⟩,
  ⟨0x00000029, 0x000000fd, fun w => .lih (flag w 1) (bits w 8 5) (bits w 13 19)⟩,
  ⟨0x0000002d, 0xc00000fd, fun w => .bfxZ (flag w 1) (bits w 8 5) (bits w 13 5) (bits w 18 6) (bits w 24 6)⟩,
  ⟨0x4000002d, 0xc00000fd, fun w => .bfxS (flag w 1) (bits w 8 5) (bits w 13 5) (bits w 18 6) (bits w 24 6)⟩,
  ⟨0x8000002d, 0xc00000fd, fun w => .bfi (flag w 1) (bits w 8 5) (bits w 13 5) (bits w 18 6) (bits w 24 6)⟩,
  ⟨0x00000031, 0x000010fd, fun w => .cmp (flag w 1) (bits w 8 4) (bits w 13 5) (bits w 18 5) (bits w 23 9)⟩,
  ⟨0x00000035, 0x000010fd, fun w => .cmpi (flag w 1) (bits w 8 4) (bits w 13 5) (bits w 18 4) (bits w 22 10)⟩,
  ⟨0x00000039, 0xffc210fd, fun w => .pand (flag w 1) (bits w 8 4) (bits w 13 4) (bits w 18 4)⟩,
  ⟨0x00800039, 0xffc210fd, fun w => .por (flag w 1) (bits w 8 4) (bits w 13 4) (bits w 18 4)⟩,
  ⟨0x01000039, 0xffc210fd, fun w => .pxor (flag w 1) (bits w 8 4) (bits w 13 4) (bits w 18 4)⟩,
  ⟨0x01800039, 0xffc210fd, fun w => .pandn (flag w 1) (bits w 8 4) (bits w 13 4) (bits w 18 4)⟩,
  ⟨0x02000039, 0xfffe10fd, fun w => .pnot (flag w 1) (bits w 8 4) (bits w 13 4)⟩,
  ⟨0x02800039, 0x0fffe0fd, fun w => .prd (flag w 1) (bits w 8 5) (bits w 28 4)⟩,
  ⟨0x03000039, 0x0ffc1ffd, fun w => .pwr (flag w 1) (bits w 13 5) (bits w 28 4)⟩,
  ⟨0x03800039, 0x0f8000fd, fun w => .sel (flag w 1) (bits w 8 5) (bits w 13 5) (bits w 18 5) (bits w 28 4)⟩]

/-- Majors 0x10 to 0x16 (02 R55). -/
def rowsFlow : List Row := [
  ⟨0x00000041, 0x000000fd, fun w => .j (flag w 1) (bits w 8 24)⟩,
  ⟨0x00000045, 0x000000fd, fun w => .call (flag w 1) (bits w 8 24)⟩,
  ⟨0x00000049, 0x000010fd, fun w => .bp (flag w 1) (bits w 8 4) (bits w 13 19)⟩,
  ⟨0x00001049, 0x000010fd, fun w => .bnp (flag w 1) (bits w 8 4) (bits w 13 19)⟩,
  ⟨0x0000004d, 0xfffc1ffd, fun w => .jr (flag w 1) (bits w 13 5)⟩,
  ⟨0x0080004d, 0xfffc1ffd, fun w => .callr (flag w 1) (bits w 13 5)⟩,
  ⟨0x0100004d, 0xfffffffd, fun w => .ret (flag w 1)⟩,
  ⟨0x00000051, 0x000000fd, fun w => .bz (flag w 1) (bits w 8 5) (bits w 13 5) (bits w 18 14)⟩,
  ⟨0x00000055, 0x000000fd, fun w => .bnz (flag w 1) (bits w 8 5) (bits w 13 5) (bits w 18 14)⟩,
  ⟨0x00000059, 0xfffffffd, fun w => .nop (flag w 1)⟩,
  ⟨0x00800059, 0xfffffffd, fun w => .yield (flag w 1)⟩,
  ⟨0x01000059, 0xfffffffd, fun w => .exit (flag w 1)⟩,
  ⟨0x01800059, 0xfffc1ffd, fun w => .sleep (flag w 1) (bits w 13 5)⟩]

/-- Majors 0x18 to 0x1D (06 R127). -/
def rowsMem : List Row := [
  ⟨0x00000061, 0x000000fd, fun w => .ld (flag w 1) (bits w 8 5) (bits w 13 5) (bits w 18 3) (bits w 21 11)⟩,
  ⟨0x00000065, 0x000000fd, fun w => .ldr (flag w 1) (bits w 8 5) (bits w 13 5) (bits w 18 3) (bits w 21 11)⟩,
  ⟨0x00000069, 0x000000fd, fun w => .st (flag w 1) (bits w 8 5) (bits w 13 5) (bits w 18 3) (bits w 21 11)⟩,
  ⟨0x0000006d, 0x000000fd, fun w => .str (flag w 1) (bits w 8 5) (bits w 13 5) (bits w 18 3) (bits w 21 11)⟩,
  ⟨0x00000071, 0x001c00fd, fun w => .ldfe (flag w 1) (bits w 8 5) (bits w 13 5) (bits w 21 11)⟩,
  ⟨0x00040071, 0x001c00fd, fun w => .ldff (flag w 1) (bits w 8 5) (bits w 13 5) (bits w 21 11)⟩,
  ⟨0x00080071, 0x001c00fd, fun w => .stef (flag w 1) (bits w 8 5) (bits w 13 5) (bits w 21 11)⟩,
  ⟨0x000c0071, 0x001c00fd, fun w => .stff (flag w 1) (bits w 8 5) (bits w 13 5) (bits w 21 11)⟩,
  ⟨0x00100071, 0x001c00fd, fun w => .feprobe (flag w 1) (bits w 8 5) (bits w 13 5) (bits w 21 11)⟩,
  ⟨0x00140071, 0x001c00fd, fun w => .feset (flag w 1) (bits w 8 5) (bits w 13 5) (bits w 21 11)⟩,
  ⟨0x00000075, 0x001c1ffd, fun w => .migrate (flag w 1) (bits w 13 5) (bits w 21 11)⟩,
  ⟨0x00040075, 0xfffffffd, fun w => .pin (flag w 1)⟩,
  ⟨0x00080075, 0xfffffffd, fun w => .unpin (flag w 1)⟩,
  ⟨0x000c0075, 0xfffffffd, fun w => .home (flag w 1)⟩,
  ⟨0x00100075, 0xffffe0fd, fun w => .here (flag w 1) (bits w 8 5)⟩]

/-- Majors 0x20 to 0x26 (02 R55, R56). -/
def rowsRemote : List Row := [
  ⟨0x00000081, 0x00001ffd, fun w => .ramo (flag w 1) (bits w 13 5) (bits w 18 5) (bits w 23 4) (bits w 27 2) (bits w 29 3)⟩,
  ⟨0x00000085, 0x000000fd, fun w => .amo (flag w 1) (bits w 8 5) (bits w 13 5) (bits w 18 5) (bits w 23 4) (bits w 27 2) (bits w 29 3)⟩,
  ⟨0x00000089, 0x200000fd, fun w => .cas (flag w 1) (bits w 8 5) (bits w 13 5) (bits w 18 5) (bits w 23 5) (bits w 28 1) (bits w 30 2)⟩,
  ⟨0x0000008d, 0xe07ffffd, fun w => .fence (flag w 1) (bits w 23 3) (bits w 26 3)⟩,
  ⟨0x00000091, 0xff801ffd, fun w => .barInit (flag w 1) (bits w 13 5) (bits w 18 5)⟩,
  ⟨0x00800091, 0xff8000fd, fun w => .barArr (flag w 1) (bits w 8 5) (bits w 13 5) (bits w 18 5)⟩,
  ⟨0x01000091, 0xff8000fd, fun w => .barWait (flag w 1) (bits w 8 5) (bits w 13 5) (bits w 18 5)⟩,
  ⟨0x01800091, 0xff8000fd, fun w => .barArrw (flag w 1) (bits w 8 5) (bits w 13 5) (bits w 18 5)⟩,
  ⟨0x02000091, 0xff8000fd, fun w => .barCmb (flag w 1) (bits w 8 5) (bits w 13 5) (bits w 18 5)⟩,
  ⟨0x02800091, 0xff8000fd, fun w => .barCmbw (flag w 1) (bits w 8 5) (bits w 13 5) (bits w 18 5)⟩,
  ⟨0x00000095, 0xfc7ffffd, fun w => .hbar (flag w 1) (bits w 23 3)⟩,
  ⟨0x04000095, 0x1c7c00fd, fun w => .hbarCmb (flag w 1) (bits w 8 5) (bits w 13 5) (bits w 23 3) (bits w 29 3)⟩,
  ⟨0x00000099, 0xffffe0fd, fun w => .time (flag w 1) (bits w 8 5)⟩,
  ⟨0x00800099, 0xfffc1ffd, fun w => .waitt (flag w 1) (bits w 13 5)⟩,
  ⟨0x01000099, 0xffffe0fd, fun w => .cycle (flag w 1) (bits w 8 5)⟩]

/-- Majors 0x28 to 0x2B (02 R55, R56). -/
def rowsFloat : List Row := [
  ⟨0x000000a1, 0x078000fd, fun w => .fadd (flag w 1) (bits w 8 5) (bits w 13 5) (bits w 18 5) (bits w 27 2) (bits w 29 3)⟩,
  ⟨0x008000a1, 0x078000fd, fun w => .fsub (flag w 1) (bits w 8 5) (bits w 13 5) (bits w 18 5) (bits w 27 2) (bits w 29 3)⟩,
  ⟨0x010000a1, 0x078000fd, fun w => .fmul (flag w 1) (bits w 8 5) (bits w 13 5) (bits w 18 5) (bits w 27 2) (bits w 29 3)⟩,
  ⟨0x018000a1, 0x078000fd, fun w => .fdiv (flag w 1) (bits w 8 5) (bits w 13 5) (bits w 18 5) (bits w 27 2) (bits w 29 3)⟩,
  ⟨0x020000a1, 0x07fc00fd, fun w => .fsqrt (flag w 1) (bits w 8 5) (bits w 13 5) (bits w 27 2) (bits w 29 3)⟩,
  ⟨0x028000a1, 0xe78000fd, fun w => .fmin (flag w 1) (bits w 8 5) (bits w 13 5) (bits w 18 5) (bits w 27 2)⟩,
  ⟨0x030000a1, 0xe78000fd, fun w => .fmax (flag w 1) (bits w 8 5) (bits w 13 5) (bits w 18 5) (bits w 27 2)⟩,
  ⟨0x038000a1, 0xe78000fd, fun w => .fsgnj (flag w 1) (bits w 8 5) (bits w 13 5) (bits w 18 5) (bits w 27 2)⟩,
  ⟨0x040000a1, 0xe78000fd, fun w => .fsgnjn (flag w 1) (bits w 8 5) (bits w 13 5) (bits w 18 5) (bits w 27 2)⟩,
  ⟨0x048000a1, 0xe78000fd, fun w => .fsgnjx (flag w 1) (bits w 8 5) (bits w 13 5) (bits w 18 5) (bits w 27 2)⟩,
  ⟨0x050000a1, 0xe7fc00fd, fun w => .fclass (flag w 1) (bits w 8 5) (bits w 13 5) (bits w 27 2)⟩,
  ⟨0x000000a5, 0xc00000fd, fun w => .fma (flag w 1) (bits w 8 5) (bits w 13 5) (bits w 18 5) (bits w 23 5) (bits w 28 2)⟩,
  ⟨0x400000a5, 0xc00000fd, fun w => .fms (flag w 1) (bits w 8 5) (bits w 13 5) (bits w 18 5) (bits w 23 5) (bits w 28 2)⟩,
  ⟨0x800000a5, 0xc00000fd, fun w => .fnma (flag w 1) (bits w 8 5) (bits w 13 5) (bits w 18 5) (bits w 23 5) (bits w 28 2)⟩,
  ⟨0xc00000a5, 0xc00000fd, fun w => .fnms (flag w 1) (bits w 8 5) (bits w 13 5) (bits w 18 5) (bits w 23 5) (bits w 28 2)⟩,
  ⟨0x000000a9, 0xe00010fd, fun w => .fcmp (flag w 1) (bits w 8 4) (bits w 13 5) (bits w 18 5) (bits w 23 4) (bits w 27 2)⟩,
  ⟨0x000000ad, 0xc00000fd, fun w => .fcvt (flag w 1) (bits w 8 5) (bits w 13 5) (bits w 18 4) (bits w 22 4) (bits w 26 3) (bits w 29 1)⟩]

/-- Majors 0x2C to 0x35 (02 R57). -/
def rowsVector : List Row := [
  ⟨0x000000b1, 0xf87800fd, fun w => .vadd (flag w 1) (bits w 8 3) (bits w 11 2) (bits w 13 3) (bits w 16 3) (bits w 23 4)⟩,
  ⟨0x080000b1, 0xf87800fd, fun w => .vsub (flag w 1) (bits w 8 3) (bits w 11 2) (bits w 13 3) (bits w 16 3) (bits w 23 4)⟩,
  ⟨0x100000b1, 0xf87800fd, fun w => .vmul (flag w 1) (bits w 8 3) (bits w 11 2) (bits w 13 3) (bits w 16 3) (bits w 23 4)⟩,
  ⟨0x180000b1, 0xf87800fd, fun w => .vmulh (flag w 1) (bits w 8 3) (bits w 11 2) (bits w 13 3) (bits w 16 3) (bits w 23 4)⟩,
  ⟨0x200000b1, 0xf87800fd, fun w => .vmin (flag w 1) (bits w 8 3) (bits w 11 2) (bits w 13 3) (bits w 16 3) (bits w 23 4)⟩,
  ⟨0x280000b1, 0xf87800fd, fun w => .vmax (flag w 1) (bits w 8 3) (bits w 11 2) (bits w 13 3) (bits w 16 3) (bits w 23 4)⟩,
  ⟨0x300000b1, 0xf87800fd, fun w => .vand (flag w 1) (bits w 8 3) (bits w 11 2) (bits w 13 3) (bits w 16 3) (bits w 23 4)⟩,
  ⟨0x380000b1, 0xf87800fd, fun w => .vor (flag w 1) (bits w 8 3) (bits w 11 2) (bits w 13 3) (bits w 16 3) (bits w 23 4)⟩,
  ⟨0x400000b1, 0xf87800fd, fun w => .vxor (flag w 1) (bits w 8 3) (bits w 11 2) (bits w 13 3) (bits w 16 3) (bits w 23 4)⟩,
  ⟨0x480000b1, 0xf87800fd, fun w => .vshl (flag w 1) (bits w 8 3) (bits w 11 2) (bits w 13 3) (bits w 16 3) (bits w 23 4)⟩,
  ⟨0x500000b1, 0xf87800fd, fun w => .vshr (flag w 1) (bits w 8 3) (bits w 11 2) (bits w 13 3) (bits w 16 3) (bits w 23 4)⟩,
  ⟨0x580000b1, 0xf87800fd, fun w => .vsra (flag w 1) (bits w 8 3) (bits w 11 2) (bits w 13 3) (bits w 16 3) (bits w 23 4)⟩,
  ⟨0x600000b1, 0xf87f00fd, fun w => .vabs (flag w 1) (bits w 8 3) (bits w 11 2) (bits w 13 3) (bits w 23 4)⟩,
  ⟨0x680000b1, 0xf87f00fd, fun w => .vneg (flag w 1) (bits w 8 3) (bits w 11 2) (bits w 13 3) (bits w 23 4)⟩,
  ⟨0x000000b5, 0xf87800fd, fun w => .vfma (flag w 1) (bits w 8 3) (bits w 11 2) (bits w 13 3) (bits w 16 3) (bits w 23 4)⟩,
  ⟨0x080000b5, 0xf87800fd, fun w => .vfms (flag w 1) (bits w 8 3) (bits w 11 2) (bits w 13 3) (bits w 16 3) (bits w 23 4)⟩,
  ⟨0x100000b5, 0xf87800fd, fun w => .vfnma (flag w 1) (bits w 8 3) (bits w 11 2) (bits w 13 3) (bits w 16 3) (bits w 23 4)⟩,
  ⟨0x000000b9, 0x007800fd, fun w => .vcmp (flag w 1) (bits w 8 3) (bits w 11 2) (bits w 13 3) (bits w 16 3) (bits w 23 4) (bits w 27 5)⟩,
  ⟨0x000000bd, 0xf87800fd, fun w => .vsel (flag w 1) (bits w 8 3) (bits w 11 2) (bits w 13 3) (bits w 16 3) (bits w 23 4)⟩,
  ⟨0x080000bd, 0xf87800fd, fun w => .vperm (flag w 1) (bits w 8 3) (bits w 11 2) (bits w 13 3) (bits w 16 3) (bits w 23 4)⟩,
  ⟨0x100000bd, 0xf87c00fd, fun w => .vbcast (flag w 1) (bits w 8 3) (bits w 11 2) (bits w 13 5) (bits w 23 4)⟩,
  ⟨0x180000bd, 0xf80018fd, fun w => .vext (flag w 1) (bits w 8 3) (bits w 13 5) (bits w 18 5) (bits w 23 4)⟩,
  ⟨0x200000bd, 0xf80018fd, fun w => .vins (flag w 1) (bits w 8 3) (bits w 13 5) (bits w 18 5) (bits w 23 4)⟩,
  ⟨0x280000bd, 0xf87fe0fd, fun w => .viota (flag w 1) (bits w 8 3) (bits w 11 2) (bits w 23 4)⟩,
  ⟨0x000000c1, 0xf87c00fd, fun w => .vrsum (flag w 1) (bits w 8 3) (bits w 11 2) (bits w 13 5) (bits w 23 4)⟩,
  ⟨0x080000c1, 0xf87c00fd, fun w => .vrmax (flag w 1) (bits w 8 3) (bits w 11 2) (bits w 13 5) (bits w 23 4)⟩,
  ⟨0x100000c1, 0xf87c00fd, fun w => .vrmin (flag w 1) (bits w 8 3) (bits w 11 2) (bits w 13 5) (bits w 23 4)⟩,
  ⟨0x180000c1, 0xf87c00fd, fun w => .vrmaxabs (flag w 1) (bits w 8 3) (bits w 11 2) (bits w 13 5) (bits w 23 4)⟩,
  ⟨0x000000c5, 0xf80700fd, fun w => .vcvt (flag w 1) (bits w 8 3) (bits w 11 2) (bits w 13 3) (bits w 19 4) (bits w 23 4)⟩,
  ⟨0x080000c5, 0xf84000fd, fun w => .vquant (flag w 1) (bits w 8 3) (bits w 11 2) (bits w 13 5) (bits w 18 3) (bits w 21 1) (bits w 23 4)⟩,
  ⟨0x100000c5, 0xf87c00fd, fun w => .vdeq (flag w 1) (bits w 8 3) (bits w 11 2) (bits w 13 5) (bits w 23 4)⟩,
  ⟨0x000000c9, 0xf87800fd, fun w => .vdot (flag w 1) (bits w 8 3) (bits w 11 2) (bits w 13 3) (bits w 16 3) (bits w 23 4)⟩,
  ⟨0x080000c9, 0xf87800fd, fun w => .vdots (flag w 1) (bits w 8 3) (bits w 11 2) (bits w 13 3) (bits w 16 3) (bits w 23 4)⟩,
  ⟨0x000000cd, 0xff8000fd, fun w => .vld (flag w 1) (bits w 8 3) (bits w 11 2) (bits w 13 5) (bits w 18 5)⟩,
  ⟨0x080000cd, 0xff8000fd, fun w => .vst (flag w 1) (bits w 8 3) (bits w 11 2) (bits w 13 5) (bits w 18 5)⟩,
  ⟨0x100000cd, 0xf80000fd, fun w => .vlds (flag w 1) (bits w 8 3) (bits w 11 2) (bits w 13 5) (bits w 18 5) (bits w 23 4)⟩,
  ⟨0x180000cd, 0xf80000fd, fun w => .vsts (flag w 1) (bits w 8 3) (bits w 11 2) (bits w 13 5) (bits w 18 5) (bits w 23 4)⟩,
  ⟨0x200000cd, 0xf86000fd, fun w => .vgth (flag w 1) (bits w 8 3) (bits w 11 2) (bits w 13 5) (bits w 18 3) (bits w 23 4)⟩,
  ⟨0x280000cd, 0xf86000fd, fun w => .vsct (flag w 1) (bits w 8 3) (bits w 11 2) (bits w 13 5) (bits w 18 3) (bits w 23 4)⟩,
  ⟨0x000000d1, 0xfff818fd, fun w => .kand (flag w 1) (bits w 8 3) (bits w 13 3) (bits w 16 3)⟩,
  ⟨0x080000d1, 0xfff818fd, fun w => .kor (flag w 1) (bits w 8 3) (bits w 13 3) (bits w 16 3)⟩,
  ⟨0x100000d1, 0xfff818fd, fun w => .kxor (flag w 1) (bits w 8 3) (bits w 13 3) (bits w 16 3)⟩,
  ⟨0x180000d1, 0xffff18fd, fun w => .knot (flag w 1) (bits w 8 3) (bits w 13 3)⟩,
  ⟨0x200000d1, 0xfffc18fd, fun w => .kmovGk (flag w 1) (bits w 8 3) (bits w 13 5)⟩,
  ⟨0x280000d1, 0xfffc18fd, fun w => .kmovKg (flag w 1) (bits w 8 3) (bits w 13 5)⟩,
  ⟨0x300000d1, 0xfffc18fd, fun w => .kpop (flag w 1) (bits w 8 3) (bits w 13 5)⟩,
  ⟨0x380000d1, 0xfffc00fd, fun w => .ktest (flag w 1) (bits w 8 3) (bits w 11 2) (bits w 13 5)⟩,
  ⟨0x000000d5, 0xfffff8fd, fun w => .vfree (flag w 1) (bits w 8 3)⟩,
  ⟨0x080000d5, 0xffff00fd, fun w => .vmov (flag w 1) (bits w 8 3) (bits w 11 2) (bits w 13 3)⟩]

/-- Majors 0x38 to 0x3C (10 R216, 11 R224). -/
def rowsQueue : List Row := [
  ⟨0x000000e1, 0xfffffffd, fun w => .mlease (flag w 1)⟩,
  ⟨0x008000e1, 0xffffe0fd, fun w => .mtryl (flag w 1) (bits w 8 5)⟩,
  ⟨0x010000e1, 0xfffc1ffd, fun w => .mrel (flag w 1) (bits w 13 5)⟩,
  ⟨0x018000e1, 0xfffc00fd, fun w => .missue (flag w 1) (bits w 8 5) (bits w 13 5)⟩,
  ⟨0x020000e1, 0xfffc00fd, fun w => .mwait (flag w 1) (bits w 8 5) (bits w 13 5)⟩,
  ⟨0x028000e1, 0xfffc00fd, fun w => .mseq (flag w 1) (bits w 8 5) (bits w 13 5)⟩,
  ⟨0x030000e1, 0xfffc18fd, fun w => .maccv (flag w 1) (bits w 8 3) (bits w 13 5)⟩,
  ⟨0x038000e1, 0xfffc18fd, fun w => .maccw (flag w 1) (bits w 8 3) (bits w 13 5)⟩,
  ⟨0x000000e9, 0xff8000fd, fun w => .spawn (flag w 1) (bits w 8 5) (bits w 13 5) (bits w 18 5)⟩,
  ⟨0x008000e9, 0xff8000fd, fun w => .spawnat (flag w 1) (bits w 8 5) (bits w 13 5) (bits w 18 5)⟩,
  ⟨0x010000e9, 0xff8000fd, fun w => .spawnany (flag w 1) (bits w 8 5) (bits w 13 5) (bits w 18 5)⟩,
  ⟨0x018000e9, 0xffffe0fd, fun w => .tid (flag w 1) (bits w 8 5)⟩,
  ⟨0x020000e9, 0xfffc1ffd, fun w => .prio (flag w 1) (bits w 13 5)⟩,
  ⟨0x000000ed, 0xfffc00fd, fun w => .qsend (flag w 1) (bits w 8 5) (bits w 13 5)⟩,
  ⟨0x008000ed, 0xff8000fd, fun w => .qrecv (flag w 1) (bits w 8 5) (bits w 13 5) (bits w 18 5)⟩,
  ⟨0x010000ed, 0xfffc1ffd, fun w => .qeos (flag w 1) (bits w 13 5)⟩,
  ⟨0x018000ed, 0xfffc00fd, fun w => .qstat (flag w 1) (bits w 8 5) (bits w 13 5)⟩,
  ⟨0x000000f1, 0xfffc00fd, fun w => .dsend (flag w 1) (bits w 8 5) (bits w 13 5)⟩,
  ⟨0x008000f1, 0xff8000fd, fun w => .drecv (flag w 1) (bits w 8 5) (bits w 13 5) (bits w 18 5)⟩,
  ⟨0x010000f1, 0xff801ffd, fun w => .dseal (flag w 1) (bits w 13 5) (bits w 18 5)⟩,
  ⟨0x018000f1, 0xfffc00fd, fun w => .dquiet (flag w 1) (bits w 8 5) (bits w 13 5)⟩,
  ⟨0x020000f1, 0xff8000fd, fun w => .xupd (flag w 1) (bits w 8 5) (bits w 13 5) (bits w 18 5)⟩,
  ⟨0x028000f1, 0xfffc00fd, fun w => .xscan (flag w 1) (bits w 8 5) (bits w 13 5)⟩,
  ⟨0x030000f1, 0xff8000fd, fun w => .xcnt (flag w 1) (bits w 8 5) (bits w 13 5) (bits w 18 5)⟩]

/-- Majors 0x3D and 0x3E (12 R250, R272). -/
def rowsSystem : List Row := [
  ⟨0x000000f5, 0xf00000fd, fun w => .cpy (flag w 1) (bits w 8 5) (bits w 13 5) (bits w 18 5) (bits w 23 5)⟩,
  ⟨0x100000f5, 0xfffc00fd, fun w => .cpy2d (flag w 1) (bits w 8 5) (bits w 13 5)⟩,
  ⟨0x200000f5, 0xff8000fd, fun w => .awinit (flag w 1) (bits w 8 5) (bits w 13 5) (bits w 18 5)⟩,
  ⟨0x300000f5, 0xff8000fd, fun w => .awwait (flag w 1) (bits w 8 5) (bits w 13 5) (bits w 18 5)⟩,
  ⟨0x400000f5, 0xff8000fd, fun w => .scstart (flag w 1) (bits w 8 5) (bits w 13 5) (bits w 18 5)⟩,
  ⟨0x500000f5, 0xff8000fd, fun w => .scmail (flag w 1) (bits w 8 5) (bits w 13 5) (bits w 18 5)⟩,
  ⟨0x600000f5, 0xff83e0fd, fun w => .scwait (flag w 1) (bits w 8 5) (bits w 18 5)⟩,
  ⟨0x000000f9, 0x001fe0fd, fun w => .sysr (flag w 1) (bits w 8 5) (bits w 21 11)⟩,
  ⟨0x000400f9, 0x001c1ffd, fun w => .sysw (flag w 1) (bits w 13 5) (bits w 21 11)⟩,
  ⟨0x000800f9, 0x001ffffd, fun w => .trap (flag w 1) (bits w 21 11)⟩,
  ⟨0x000c00f9, 0xfffffffd, fun w => .syscall (flag w 1)⟩,
  ⟨0x002c00f9, 0xfffffffd, fun w => .eret (flag w 1)⟩,
  ⟨0x004c00f9, 0xfffffffd, fun w => .brk (flag w 1)⟩,
  ⟨0x006c00f9, 0xfffc00fd, fun w => .wake (flag w 1) (bits w 8 5) (bits w 13 5)⟩,
  ⟨0x008c00f9, 0xfffc1ffd, fun w => .inval (flag w 1) (bits w 13 5)⟩,
  ⟨0x00ac00f9, 0xfffc1ffd, fun w => .segld (flag w 1) (bits w 13 5)⟩]

/-- The Bookend's custom-0 instructions (12 R265); a Bookend fetches them from its own instruction store. -/
def rowsBookend : List Row := [
  ⟨0x0000000b, 0xfff0707f, fun w => .bkRd (bits w 7 5) (bits w 15 5)⟩,
  ⟨0x0000100b, 0xfe007fff, fun w => .bkWr (bits w 15 5) (bits w 20 5)⟩,
  ⟨0x0000200b, 0x0600707f, fun w => .bkGet (bits w 7 5) (bits w 15 5) (bits w 20 5) (bits w 27 5)⟩,
  ⟨0x0000300b, 0x0600707f, fun w => .bkPut (bits w 7 5) (bits w 15 5) (bits w 20 5) (bits w 27 5)⟩,
  ⟨0x0000400b, 0xfe00707f, fun w => .bkWait (bits w 7 5) (bits w 15 5) (bits w 20 5)⟩,
  ⟨0x0000500b, 0xfe007fff, fun w => .bkSig (bits w 15 5) (bits w 20 5)⟩]

/-- Every 32-bit encoding of the threads' instruction set. -/
def rowsFull : List Row :=
  rowsAlu ++ rowsImm ++ rowsFlow ++ rowsMem ++ rowsRemote ++ rowsFloat ++ rowsVector ++ rowsQueue ++ rowsSystem

/-- The reserved majors (02 R54). -/
def reservedMajors : List Nat := [0x0F, 0x17, 0x1E, 0x1F, 0x27, 0x36, 0x37, 0x39, 0x3F]

/-- The bits that select a form within a major (02 R50, R55, R56, R57), with the major, for naming a refusal. -/
def selectorMask (major : Nat) : Nat :=
  if major ≤ 0x02 then 0xff8000fd
  else if major = 0x07 then 0xe00000fd
  else if major = 0x0B then 0xc00000fd
  else if major = 0x0E then 0x0f8000fd
  else if major = 0x12 then 0x000010fd
  else if major = 0x13 ∨ major = 0x16 then 0xff8000fd
  else if major = 0x1C ∨ major = 0x1D then 0x001c00fd
  else if major = 0x24 ∨ major = 0x26 then 0xff8000fd
  else if major = 0x25 then 0x040000fd
  else if major = 0x28 then 0x078000fd
  else if major = 0x29 then 0xc00000fd
  else if 0x2C ≤ major ∧ major ≤ 0x35 then 0xf80000fd
  else if 0x38 ≤ major ∧ major ≤ 0x3C then 0xff8000fd
  else if major = 0x3D then 0xf00000fd
  else if major = 0x3E then 0x001c00fd
  else 0x000000fd

/-- The row of a list that covers a word, made into an instruction and checked (02 R61). -/
def decodeIn (rows : List Row) (unknown : DecodeError) (w : Nat) : Except DecodeError Instr :=
  match rows.find? (·.covers w) with
  | none => .error unknown
  | some r =>
    match (r.build w).defect with
    | none => .ok (r.build w)
    | some e => .error e

/-- The name of the refusal of a 32-bit word that no row covers. -/
def refusalOf (w : Nat) : DecodeError :=
  if reservedMajors.contains (w / 4 % 64) then .reservedMajor
  else if rowsFull.any (fun r => (w ^^^ r.pattern) &&& selectorMask (w / 4 % 64) == 0) then .reservedField
  else .selector

/-- A 16-bit form (02 R47, R48). -/
def decodeHalf (w : Nat) : Except DecodeError Instr := decodeIn rowsCompact .selector (w % 65536)

/-- A 32-bit form (02 R49 to R57). -/
def decodeFull (w : Nat) : Except DecodeError Instr := decodeIn rowsFull (refusalOf w) (w % 4294967296)

/-- A Bookend instruction of opcode custom-0 (12 R265). -/
def decodeBookend (w : Nat) : Except DecodeError Instr := decodeIn rowsBookend .selector (w % 4294967296)

/-- Bit 0 of the first halfword set: a 32-bit instruction (02 R45). -/
def isFull (h : Nat) : Bool := h % 2 == 1

/-- An instruction from its bits, the first halfword lowest; the length is that of its bit 0 (02 R45). -/
def decodeWord (w : Nat) : Except DecodeError Instr := if isFull w then decodeFull w else decodeHalf w

/-- The next instruction of a byte stream and the bytes after it; halfwords are little-endian (02 R45). -/
def decode : List Byte → Except DecodeError (Instr × List Byte)
  | b0 :: b1 :: rest =>
    if isFull b0.toNat then
      match rest with
      | b2 :: b3 :: rest' =>
        (decodeFull (b0.toNat + 256 * b1.toNat + 65536 * b2.toNat + 16777216 * b3.toNat)).map (·, rest')
      | _ => .error .truncated
    else (decodeHalf (b0.toNat + 256 * b1.toNat)).map (·, rest)
  | _ => .error .truncated

/-- A field placed at bit lo. -/
def place (lo v : Nat) : Nat := v * 2 ^ lo

/-- The bits of an encoded instruction: the fixed bits of its encoding and its fields (02 R47 to R57, 12 R265); an event has
none. -/
def encode : Instr → Option Nat
  | .add m d a b => some (0x00000001 + place 1 m.toNat + place 8 d.toNat + place 13 a.toNat + place 18 b.toNat)
  | .sub m d a b => some (0x00800001 + place 1 m.toNat + place 8 d.toNat + place 13 a.toNat + place 18 b.toNat)
  | .and m d a b => some (0x01000001 + place 1 m.toNat + place 8 d.toNat + place 13 a.toNat + place 18 b.toNat)
  | .or m d a b => some (0x01800001 + place 1 m.toNat + place 8 d.toNat + place 13 a.toNat + place 18 b.toNat)
  | .xor m d a b => some (0x02000001 + place 1 m.toNat + place 8 d.toNat + place 13 a.toNat + place 18 b.toNat)
  | .andn m d a b => some (0x02800001 + place 1 m.toNat + place 8 d.toNat + place 13 a.toNat + place 18 b.toNat)
  | .orn m d a b => some (0x03000001 + place 1 m.toNat + place 8 d.toNat + place 13 a.toNat + place 18 b.toNat)
  | .xnor m d a b => some (0x03800001 + place 1 m.toNat + place 8 d.toNat + place 13 a.toNat + place 18 b.toNat)
  | .shl m d a b => some (0x04000001 + place 1 m.toNat + place 8 d.toNat + place 13 a.toNat + place 18 b.toNat)
  | .shr m d a b => some (0x04800001 + place 1 m.toNat + place 8 d.toNat + place 13 a.toNat + place 18 b.toNat)
  | .sra m d a b => some (0x05000001 + place 1 m.toNat + place 8 d.toNat + place 13 a.toNat + place 18 b.toNat)
  | .rol m d a b => some (0x05800001 + place 1 m.toNat + place 8 d.toNat + place 13 a.toNat + place 18 b.toNat)
  | .ror m d a b => some (0x06000001 + place 1 m.toNat + place 8 d.toNat + place 13 a.toNat + place 18 b.toNat)
  | .minS m d a b => some (0x06800001 + place 1 m.toNat + place 8 d.toNat + place 13 a.toNat + place 18 b.toNat)
  | .minZ m d a b => some (0x07000001 + place 1 m.toNat + place 8 d.toNat + place 13 a.toNat + place 18 b.toNat)
  | .maxS m d a b => some (0x07800001 + place 1 m.toNat + place 8 d.toNat + place 13 a.toNat + place 18 b.toNat)
  | .maxZ m d a b => some (0x08000001 + place 1 m.toNat + place 8 d.toNat + place 13 a.toNat + place 18 b.toNat)
  | .addW m d a b => some (0x10000001 + place 1 m.toNat + place 8 d.toNat + place 13 a.toNat + place 18 b.toNat)
  | .subW m d a b => some (0x10800001 + place 1 m.toNat + place 8 d.toNat + place 13 a.toNat + place 18 b.toNat)
  | .shlW m d a b => some (0x11000001 + place 1 m.toNat + place 8 d.toNat + place 13 a.toNat + place 18 b.toNat)
  | .shrW m d a b => some (0x11800001 + place 1 m.toNat + place 8 d.toNat + place 13 a.toNat + place 18 b.toNat)
  | .sraW m d a b => some (0x12000001 + place 1 m.toNat + place 8 d.toNat + place 13 a.toNat + place 18 b.toNat)
  | .mul m d a b => some (0x00000005 + place 1 m.toNat + place 8 d.toNat + place 13 a.toNat + place 18 b.toNat)
  | .mulhS m d a b => some (0x00800005 + place 1 m.toNat + place 8 d.toNat + place 13 a.toNat + place 18 b.toNat)
  | .mulhZ m d a b => some (0x01000005 + place 1 m.toNat + place 8 d.toNat + place 13 a.toNat + place 18 b.toNat)
  | .mulhSz m d a b => some (0x01800005 + place 1 m.toNat + place 8 d.toNat + place 13 a.toNat + place 18 b.toNat)
  | .divS m d a b => some (0x02000005 + place 1 m.toNat + place 8 d.toNat + place 13 a.toNat + place 18 b.toNat)
  | .divZ m d a b => some (0x02800005 + place 1 m.toNat + place 8 d.toNat + place 13 a.toNat + place 18 b.toNat)
  | .remS m d a b => some (0x03000005 + place 1 m.toNat + place 8 d.toNat + place 13 a.toNat + place 18 b.toNat)
  | .remZ m d a b => some (0x03800005 + place 1 m.toNat + place 8 d.toNat + place 13 a.toNat + place 18 b.toNat)
  | .mulW m d a b => some (0x04000005 + place 1 m.toNat + place 8 d.toNat + place 13 a.toNat + place 18 b.toNat)
  | .clz m d a => some (0x00000009 + place 1 m.toNat + place 8 d.toNat + place 13 a.toNat)
  | .ctz m d a => some (0x00800009 + place 1 m.toNat + place 8 d.toNat + place 13 a.toNat)
  | .popc m d a => some (0x01000009 + place 1 m.toNat + place 8 d.toNat + place 13 a.toNat)
  | .bswap m d a => some (0x01800009 + place 1 m.toNat + place 8 d.toNat + place 13 a.toNat)
  | .brev m d a => some (0x02000009 + place 1 m.toNat + place 8 d.toNat + place 13 a.toNat)
  | .sextB m d a => some (0x02800009 + place 1 m.toNat + place 8 d.toNat + place 13 a.toNat)
  | .sextH m d a => some (0x03000009 + place 1 m.toNat + place 8 d.toNat + place 13 a.toNat)
  | .sextW m d a => some (0x03800009 + place 1 m.toNat + place 8 d.toNat + place 13 a.toNat)
  | .zextB m d a => some (0x04000009 + place 1 m.toNat + place 8 d.toNat + place 13 a.toNat)
  | .zextH m d a => some (0x04800009 + place 1 m.toNat + place 8 d.toNat + place 13 a.toNat)
  | .zextW m d a => some (0x05000009 + place 1 m.toNat + place 8 d.toNat + place 13 a.toNat)
  | .addi m d a i => some (0x0000000d + place 1 m.toNat + place 8 d.toNat + place 13 a.toNat + place 18 i.toNat)
  | .andi m d a i => some (0x00000011 + place 1 m.toNat + place 8 d.toNat + place 13 a.toNat + place 18 i.toNat)
  | .ori m d a i => some (0x00000015 + place 1 m.toNat + place 8 d.toNat + place 13 a.toNat + place 18 i.toNat)
  | .xori m d a i => some (0x00000019 + place 1 m.toNat + place 8 d.toNat + place 13 a.toNat + place 18 i.toNat)
  | .shli m d a n => some (0x0000001d + place 1 m.toNat + place 8 d.toNat + place 13 a.toNat + place 23 n.toNat)
  | .shri m d a n => some (0x2000001d + place 1 m.toNat + place 8 d.toNat + place 13 a.toNat + place 23 n.toNat)
  | .srai m d a n => some (0x4000001d + place 1 m.toNat + place 8 d.toNat + place 13 a.toNat + place 23 n.toNat)
  | .roli m d a n => some (0x6000001d + place 1 m.toNat + place 8 d.toNat + place 13 a.toNat + place 23 n.toNat)
  | .shliW m d a n => some (0x8000001d + place 1 m.toNat + place 8 d.toNat + place 13 a.toNat + place 23 n.toNat)
  | .shriW m d a n => some (0xa000001d + place 1 m.toNat + place 8 d.toNat + place 13 a.toNat + place 23 n.toNat)
  | .sraiW m d a n => some (0xc000001d + place 1 m.toNat + place 8 d.toNat + place 13 a.toNat + place 23 n.toNat)
  | .lui m d i => some (0x00000021 + place 1 m.toNat + place 8 d.toNat + place 13 i.toNat)
  | .auipc m d i => some (0x00000025 + place 1 m.toNat + place 8 d.toNat + place 13 i.toNat)
  | .lih m d i => some (0x00000029 + place 1 m.toNat + place 8 d.toNat + place 13 i.toNat)
  | .bfxZ m d a p l => some (0x0000002d + place 1 m.toNat + place 8 d.toNat + place 13 a.toNat + place 18 p.toNat + place 24 l.toNat)
  | .bfxS m d a p l => some (0x4000002d + place 1 m.toNat + place 8 d.toNat + place 13 a.toNat + place 18 p.toNat + place 24 l.toNat)
  | .bfi m d a p l => some (0x8000002d + place 1 m.toNat + place 8 d.toNat + place 13 a.toNat + place 18 p.toNat + place 24 l.toNat)
  | .cmp m p a b c => some (0x00000031 + place 1 m.toNat + place 8 p.toNat + place 13 a.toNat + place 18 b.toNat + place 23 c.toNat)
  | .cmpi m p a c i => some (0x00000035 + place 1 m.toNat + place 8 p.toNat + place 13 a.toNat + place 18 c.toNat + place 22 i.toNat)
  | .pand m d a b => some (0x00000039 + place 1 m.toNat + place 8 d.toNat + place 13 a.toNat + place 18 b.toNat)
  | .por m d a b => some (0x00800039 + place 1 m.toNat + place 8 d.toNat + place 13 a.toNat + place 18 b.toNat)
  | .pxor m d a b => some (0x01000039 + place 1 m.toNat + place 8 d.toNat + place 13 a.toNat + place 18 b.toNat)
  | .pandn m d a b => some (0x01800039 + place 1 m.toNat + place 8 d.toNat + place 13 a.toNat + place 18 b.toNat)
  | .pnot m d a => some (0x02000039 + place 1 m.toNat + place 8 d.toNat + place 13 a.toNat)
  | .prd m d q => some (0x02800039 + place 1 m.toNat + place 8 d.toNat + place 28 q.toNat)
  | .pwr m a q => some (0x03000039 + place 1 m.toNat + place 13 a.toNat + place 28 q.toNat)
  | .sel m d a b q => some (0x03800039 + place 1 m.toNat + place 8 d.toNat + place 13 a.toNat + place 18 b.toNat + place 28 q.toNat)
  | .j m i => some (0x00000041 + place 1 m.toNat + place 8 i.toNat)
  | .call m i => some (0x00000045 + place 1 m.toNat + place 8 i.toNat)
  | .bp m p i => some (0x00000049 + place 1 m.toNat + place 8 p.toNat + place 13 i.toNat)
  | .bnp m p i => some (0x00001049 + place 1 m.toNat + place 8 p.toNat + place 13 i.toNat)
  | .jr m a => some (0x0000004d + place 1 m.toNat + place 13 a.toNat)
  | .callr m a => some (0x0080004d + place 1 m.toNat + place 13 a.toNat)
  | .ret m => some (0x0100004d + place 1 m.toNat)
  | .bz m oLo a o => some (0x00000051 + place 1 m.toNat + place 8 oLo.toNat + place 13 a.toNat + place 18 o.toNat)
  | .bnz m oLo a o => some (0x00000055 + place 1 m.toNat + place 8 oLo.toNat + place 13 a.toNat + place 18 o.toNat)
  | .nop m => some (0x00000059 + place 1 m.toNat)
  | .yield m => some (0x00800059 + place 1 m.toNat)
  | .exit m => some (0x01000059 + place 1 m.toNat)
  | .sleep m a => some (0x01800059 + place 1 m.toNat + place 13 a.toNat)
  | .cMv m a b => some (0x0000 + place 15 m.toNat + place 5 a.toNat + place 10 b.toNat)
  | .cAdd m a b => some (0x0002 + place 15 m.toNat + place 5 a.toNat + place 10 b.toNat)
  | .cSub m a b => some (0x0004 + place 15 m.toNat + place 5 a.toNat + place 10 b.toNat)
  | .cAnd m a b => some (0x0006 + place 15 m.toNat + place 5 a.toNat + place 10 b.toNat)
  | .cOr m a b => some (0x0008 + place 15 m.toNat + place 5 a.toNat + place 10 b.toNat)
  | .cXor m a b => some (0x000a + place 15 m.toNat + place 5 a.toNat + place 10 b.toNat)
  | .cShli m a n => some (0x000c + place 15 m.toNat + place 5 a.toNat + place 10 n.toNat)
  | .cShri m a n => some (0x000e + place 15 m.toNat + place 5 a.toNat + place 10 n.toNat)
  | .cSrai m a n => some (0x0010 + place 15 m.toNat + place 5 a.toNat + place 10 n.toNat)
  | .cAddi m a n => some (0x0012 + place 15 m.toNat + place 5 a.toNat + place 10 n.toNat)
  | .cLi m a n => some (0x0014 + place 15 m.toNat + place 5 a.toNat + place 10 n.toNat)
  | .cLd m a b => some (0x0016 + place 15 m.toNat + place 5 a.toNat + place 10 b.toNat)
  | .cSt m a b => some (0x0018 + place 15 m.toNat + place 5 a.toNat + place 10 b.toNat)
  | .cCmpeq m a b => some (0x001a + place 15 m.toNat + place 5 a.toNat + place 10 b.toNat)
  | .cCmplt m a b => some (0x001c + place 15 m.toNat + place 5 a.toNat + place 10 b.toNat)
  | .cBp1 m o => some (0x001e + place 15 m.toNat + place 5 o.toNat)
  | .ld m d a f i => some (0x00000061 + place 1 m.toNat + place 8 d.toNat + place 13 a.toNat + place 18 f.toNat + place 21 i.toNat)
  | .ldr m d a f i => some (0x00000065 + place 1 m.toNat + place 8 d.toNat + place 13 a.toNat + place 18 f.toNat + place 21 i.toNat)
  | .st m d a f i => some (0x00000069 + place 1 m.toNat + place 8 d.toNat + place 13 a.toNat + place 18 f.toNat + place 21 i.toNat)
  | .str m d a f i => some (0x0000006d + place 1 m.toNat + place 8 d.toNat + place 13 a.toNat + place 18 f.toNat + place 21 i.toNat)
  | .ldfe m d a i => some (0x00000071 + place 1 m.toNat + place 8 d.toNat + place 13 a.toNat + place 21 i.toNat)
  | .ldff m d a i => some (0x00040071 + place 1 m.toNat + place 8 d.toNat + place 13 a.toNat + place 21 i.toNat)
  | .stef m d a i => some (0x00080071 + place 1 m.toNat + place 8 d.toNat + place 13 a.toNat + place 21 i.toNat)
  | .stff m d a i => some (0x000c0071 + place 1 m.toNat + place 8 d.toNat + place 13 a.toNat + place 21 i.toNat)
  | .feprobe m d a i => some (0x00100071 + place 1 m.toNat + place 8 d.toNat + place 13 a.toNat + place 21 i.toNat)
  | .feset m d a i => some (0x00140071 + place 1 m.toNat + place 8 d.toNat + place 13 a.toNat + place 21 i.toNat)
  | .migrate m a i => some (0x00000075 + place 1 m.toNat + place 13 a.toNat + place 21 i.toNat)
  | .pin m => some (0x00040075 + place 1 m.toNat)
  | .unpin m => some (0x00080075 + place 1 m.toNat)
  | .home m => some (0x000c0075 + place 1 m.toNat)
  | .here m d => some (0x00100075 + place 1 m.toNat + place 8 d.toNat)
  | .ramo m a b p z o => some (0x00000081 + place 1 m.toNat + place 13 a.toNat + place 18 b.toNat + place 23 p.toNat + place 27 z.toNat + place 29 o.toNat)
  | .amo m d a b p z o => some (0x00000085 + place 1 m.toNat + place 8 d.toNat + place 13 a.toNat + place 18 b.toNat + place 23 p.toNat + place 27 z.toNat + place 29 o.toNat)
  | .cas m d a b c z o => some (0x00000089 + place 1 m.toNat + place 8 d.toNat + place 13 a.toNat + place 18 b.toNat + place 23 c.toNat + place 28 z.toNat + place 30 o.toNat)
  | .fence m s k => some (0x0000008d + place 1 m.toNat + place 23 s.toNat + place 26 k.toNat)
  | .barInit m a b => some (0x00000091 + place 1 m.toNat + place 13 a.toNat + place 18 b.toNat)
  | .barArr m d a b => some (0x00800091 + place 1 m.toNat + place 8 d.toNat + place 13 a.toNat + place 18 b.toNat)
  | .barWait m d a b => some (0x01000091 + place 1 m.toNat + place 8 d.toNat + place 13 a.toNat + place 18 b.toNat)
  | .barArrw m d a b => some (0x01800091 + place 1 m.toNat + place 8 d.toNat + place 13 a.toNat + place 18 b.toNat)
  | .barCmb m d a b => some (0x02000091 + place 1 m.toNat + place 8 d.toNat + place 13 a.toNat + place 18 b.toNat)
  | .barCmbw m d a b => some (0x02800091 + place 1 m.toNat + place 8 d.toNat + place 13 a.toNat + place 18 b.toNat)
  | .hbar m l => some (0x00000095 + place 1 m.toNat + place 23 l.toNat)
  | .hbarCmb m d a l o => some (0x04000095 + place 1 m.toNat + place 8 d.toNat + place 13 a.toNat + place 23 l.toNat + place 29 o.toNat)
  | .time m d => some (0x00000099 + place 1 m.toNat + place 8 d.toNat)
  | .waitt m a => some (0x00800099 + place 1 m.toNat + place 13 a.toNat)
  | .cycle m d => some (0x01000099 + place 1 m.toNat + place 8 d.toNat)
  | .fadd m d a b f r => some (0x000000a1 + place 1 m.toNat + place 8 d.toNat + place 13 a.toNat + place 18 b.toNat + place 27 f.toNat + place 29 r.toNat)
  | .fsub m d a b f r => some (0x008000a1 + place 1 m.toNat + place 8 d.toNat + place 13 a.toNat + place 18 b.toNat + place 27 f.toNat + place 29 r.toNat)
  | .fmul m d a b f r => some (0x010000a1 + place 1 m.toNat + place 8 d.toNat + place 13 a.toNat + place 18 b.toNat + place 27 f.toNat + place 29 r.toNat)
  | .fdiv m d a b f r => some (0x018000a1 + place 1 m.toNat + place 8 d.toNat + place 13 a.toNat + place 18 b.toNat + place 27 f.toNat + place 29 r.toNat)
  | .fsqrt m d a f r => some (0x020000a1 + place 1 m.toNat + place 8 d.toNat + place 13 a.toNat + place 27 f.toNat + place 29 r.toNat)
  | .fmin m d a b f => some (0x028000a1 + place 1 m.toNat + place 8 d.toNat + place 13 a.toNat + place 18 b.toNat + place 27 f.toNat)
  | .fmax m d a b f => some (0x030000a1 + place 1 m.toNat + place 8 d.toNat + place 13 a.toNat + place 18 b.toNat + place 27 f.toNat)
  | .fsgnj m d a b f => some (0x038000a1 + place 1 m.toNat + place 8 d.toNat + place 13 a.toNat + place 18 b.toNat + place 27 f.toNat)
  | .fsgnjn m d a b f => some (0x040000a1 + place 1 m.toNat + place 8 d.toNat + place 13 a.toNat + place 18 b.toNat + place 27 f.toNat)
  | .fsgnjx m d a b f => some (0x048000a1 + place 1 m.toNat + place 8 d.toNat + place 13 a.toNat + place 18 b.toNat + place 27 f.toNat)
  | .fclass m d a f => some (0x050000a1 + place 1 m.toNat + place 8 d.toNat + place 13 a.toNat + place 27 f.toNat)
  | .fma m d a b c f => some (0x000000a5 + place 1 m.toNat + place 8 d.toNat + place 13 a.toNat + place 18 b.toNat + place 23 c.toNat + place 28 f.toNat)
  | .fms m d a b c f => some (0x400000a5 + place 1 m.toNat + place 8 d.toNat + place 13 a.toNat + place 18 b.toNat + place 23 c.toNat + place 28 f.toNat)
  | .fnma m d a b c f => some (0x800000a5 + place 1 m.toNat + place 8 d.toNat + place 13 a.toNat + place 18 b.toNat + place 23 c.toNat + place 28 f.toNat)
  | .fnms m d a b c f => some (0xc00000a5 + place 1 m.toNat + place 8 d.toNat + place 13 a.toNat + place 18 b.toNat + place 23 c.toNat + place 28 f.toNat)
  | .fcmp m p a b c f => some (0x000000a9 + place 1 m.toNat + place 8 p.toNat + place 13 a.toNat + place 18 b.toNat + place 23 c.toNat + place 27 f.toNat)
  | .fcvt m d a f o r u => some (0x000000ad + place 1 m.toNat + place 8 d.toNat + place 13 a.toNat + place 18 f.toNat + place 22 o.toNat + place 26 r.toNat + place 29 u.toNat)
  | .vadd m d k a b t => some (0x000000b1 + place 1 m.toNat + place 8 d.toNat + place 11 k.toNat + place 13 a.toNat + place 16 b.toNat + place 23 t.toNat)
  | .vsub m d k a b t => some (0x080000b1 + place 1 m.toNat + place 8 d.toNat + place 11 k.toNat + place 13 a.toNat + place 16 b.toNat + place 23 t.toNat)
  | .vmul m d k a b t => some (0x100000b1 + place 1 m.toNat + place 8 d.toNat + place 11 k.toNat + place 13 a.toNat + place 16 b.toNat + place 23 t.toNat)
  | .vmulh m d k a b t => some (0x180000b1 + place 1 m.toNat + place 8 d.toNat + place 11 k.toNat + place 13 a.toNat + place 16 b.toNat + place 23 t.toNat)
  | .vmin m d k a b t => some (0x200000b1 + place 1 m.toNat + place 8 d.toNat + place 11 k.toNat + place 13 a.toNat + place 16 b.toNat + place 23 t.toNat)
  | .vmax m d k a b t => some (0x280000b1 + place 1 m.toNat + place 8 d.toNat + place 11 k.toNat + place 13 a.toNat + place 16 b.toNat + place 23 t.toNat)
  | .vand m d k a b t => some (0x300000b1 + place 1 m.toNat + place 8 d.toNat + place 11 k.toNat + place 13 a.toNat + place 16 b.toNat + place 23 t.toNat)
  | .vor m d k a b t => some (0x380000b1 + place 1 m.toNat + place 8 d.toNat + place 11 k.toNat + place 13 a.toNat + place 16 b.toNat + place 23 t.toNat)
  | .vxor m d k a b t => some (0x400000b1 + place 1 m.toNat + place 8 d.toNat + place 11 k.toNat + place 13 a.toNat + place 16 b.toNat + place 23 t.toNat)
  | .vshl m d k a b t => some (0x480000b1 + place 1 m.toNat + place 8 d.toNat + place 11 k.toNat + place 13 a.toNat + place 16 b.toNat + place 23 t.toNat)
  | .vshr m d k a b t => some (0x500000b1 + place 1 m.toNat + place 8 d.toNat + place 11 k.toNat + place 13 a.toNat + place 16 b.toNat + place 23 t.toNat)
  | .vsra m d k a b t => some (0x580000b1 + place 1 m.toNat + place 8 d.toNat + place 11 k.toNat + place 13 a.toNat + place 16 b.toNat + place 23 t.toNat)
  | .vabs m d k a t => some (0x600000b1 + place 1 m.toNat + place 8 d.toNat + place 11 k.toNat + place 13 a.toNat + place 23 t.toNat)
  | .vneg m d k a t => some (0x680000b1 + place 1 m.toNat + place 8 d.toNat + place 11 k.toNat + place 13 a.toNat + place 23 t.toNat)
  | .vfma m d k a b t => some (0x000000b5 + place 1 m.toNat + place 8 d.toNat + place 11 k.toNat + place 13 a.toNat + place 16 b.toNat + place 23 t.toNat)
  | .vfms m d k a b t => some (0x080000b5 + place 1 m.toNat + place 8 d.toNat + place 11 k.toNat + place 13 a.toNat + place 16 b.toNat + place 23 t.toNat)
  | .vfnma m d k a b t => some (0x100000b5 + place 1 m.toNat + place 8 d.toNat + place 11 k.toNat + place 13 a.toNat + place 16 b.toNat + place 23 t.toNat)
  | .vcmp m d k a b t c => some (0x000000b9 + place 1 m.toNat + place 8 d.toNat + place 11 k.toNat + place 13 a.toNat + place 16 b.toNat + place 23 t.toNat + place 27 c.toNat)
  | .vsel m d k a b t => some (0x000000bd + place 1 m.toNat + place 8 d.toNat + place 11 k.toNat + place 13 a.toNat + place 16 b.toNat + place 23 t.toNat)
  | .vperm m d k a b t => some (0x080000bd + place 1 m.toNat + place 8 d.toNat + place 11 k.toNat + place 13 a.toNat + place 16 b.toNat + place 23 t.toNat)
  | .vbcast m v k g t => some (0x100000bd + place 1 m.toNat + place 8 v.toNat + place 11 k.toNat + place 13 g.toNat + place 23 t.toNat)
  | .vext m v g h t => some (0x180000bd + place 1 m.toNat + place 8 v.toNat + place 13 g.toNat + place 18 h.toNat + place 23 t.toNat)
  | .vins m v g h t => some (0x200000bd + place 1 m.toNat + place 8 v.toNat + place 13 g.toNat + place 18 h.toNat + place 23 t.toNat)
  | .viota m d k t => some (0x280000bd + place 1 m.toNat + place 8 d.toNat + place 11 k.toNat + place 23 t.toNat)
  | .vrsum m v k g t => some (0x000000c1 + place 1 m.toNat + place 8 v.toNat + place 11 k.toNat + place 13 g.toNat + place 23 t.toNat)
  | .vrmax m v k g t => some (0x080000c1 + place 1 m.toNat + place 8 v.toNat + place 11 k.toNat + place 13 g.toNat + place 23 t.toNat)
  | .vrmin m v k g t => some (0x100000c1 + place 1 m.toNat + place 8 v.toNat + place 11 k.toNat + place 13 g.toNat + place 23 t.toNat)
  | .vrmaxabs m v k g t => some (0x180000c1 + place 1 m.toNat + place 8 v.toNat + place 11 k.toNat + place 13 g.toNat + place 23 t.toNat)
  | .vcvt m d k a o f => some (0x000000c5 + place 1 m.toNat + place 8 d.toNat + place 11 k.toNat + place 13 a.toNat + place 19 o.toNat + place 23 f.toNat)
  | .vquant m v k g r u t => some (0x080000c5 + place 1 m.toNat + place 8 v.toNat + place 11 k.toNat + place 13 g.toNat + place 18 r.toNat + place 21 u.toNat + place 23 t.toNat)
  | .vdeq m v k g t => some (0x100000c5 + place 1 m.toNat + place 8 v.toNat + place 11 k.toNat + place 13 g.toNat + place 23 t.toNat)
  | .vdot m d k a b t => some (0x000000c9 + place 1 m.toNat + place 8 d.toNat + place 11 k.toNat + place 13 a.toNat + place 16 b.toNat + place 23 t.toNat)
  | .vdots m d k a b t => some (0x080000c9 + place 1 m.toNat + place 8 d.toNat + place 11 k.toNat + place 13 a.toNat + place 16 b.toNat + place 23 t.toNat)
  | .vld m v k g i => some (0x000000cd + place 1 m.toNat + place 8 v.toNat + place 11 k.toNat + place 13 g.toNat + place 18 i.toNat)
  | .vst m v k g i => some (0x080000cd + place 1 m.toNat + place 8 v.toNat + place 11 k.toNat + place 13 g.toNat + place 18 i.toNat)
  | .vlds m v k g h t => some (0x100000cd + place 1 m.toNat + place 8 v.toNat + place 11 k.toNat + place 13 g.toNat + place 18 h.toNat + place 23 t.toNat)
  | .vsts m v k g h t => some (0x180000cd + place 1 m.toNat + place 8 v.toNat + place 11 k.toNat + place 13 g.toNat + place 18 h.toNat + place 23 t.toNat)
  | .vgth m v k g x t => some (0x200000cd + place 1 m.toNat + place 8 v.toNat + place 11 k.toNat + place 13 g.toNat + place 18 x.toNat + place 23 t.toNat)
  | .vsct m v k g x t => some (0x280000cd + place 1 m.toNat + place 8 v.toNat + place 11 k.toNat + place 13 g.toNat + place 18 x.toNat + place 23 t.toNat)
  | .kand m d a b => some (0x000000d1 + place 1 m.toNat + place 8 d.toNat + place 13 a.toNat + place 16 b.toNat)
  | .kor m d a b => some (0x080000d1 + place 1 m.toNat + place 8 d.toNat + place 13 a.toNat + place 16 b.toNat)
  | .kxor m d a b => some (0x100000d1 + place 1 m.toNat + place 8 d.toNat + place 13 a.toNat + place 16 b.toNat)
  | .knot m d a => some (0x180000d1 + place 1 m.toNat + place 8 d.toNat + place 13 a.toNat)
  | .kmovGk m v g => some (0x200000d1 + place 1 m.toNat + place 8 v.toNat + place 13 g.toNat)
  | .kmovKg m v g => some (0x280000d1 + place 1 m.toNat + place 8 v.toNat + place 13 g.toNat)
  | .kpop m v g => some (0x300000d1 + place 1 m.toNat + place 8 v.toNat + place 13 g.toNat)
  | .ktest m v k g => some (0x380000d1 + place 1 m.toNat + place 8 v.toNat + place 11 k.toNat + place 13 g.toNat)
  | .vfree m d => some (0x000000d5 + place 1 m.toNat + place 8 d.toNat)
  | .vmov m d k a => some (0x080000d5 + place 1 m.toNat + place 8 d.toNat + place 11 k.toNat + place 13 a.toNat)
  | .mlease m => some (0x000000e1 + place 1 m.toNat)
  | .mtryl m d => some (0x008000e1 + place 1 m.toNat + place 8 d.toNat)
  | .mrel m a => some (0x010000e1 + place 1 m.toNat + place 13 a.toNat)
  | .missue m d a => some (0x018000e1 + place 1 m.toNat + place 8 d.toNat + place 13 a.toNat)
  | .mwait m d a => some (0x020000e1 + place 1 m.toNat + place 8 d.toNat + place 13 a.toNat)
  | .mseq m d a => some (0x028000e1 + place 1 m.toNat + place 8 d.toNat + place 13 a.toNat)
  | .maccv m v a => some (0x030000e1 + place 1 m.toNat + place 8 v.toNat + place 13 a.toNat)
  | .maccw m v a => some (0x038000e1 + place 1 m.toNat + place 8 v.toNat + place 13 a.toNat)
  | .spawn m d b c => some (0x000000e9 + place 1 m.toNat + place 8 d.toNat + place 13 b.toNat + place 18 c.toNat)
  | .spawnat m d b c => some (0x008000e9 + place 1 m.toNat + place 8 d.toNat + place 13 b.toNat + place 18 c.toNat)
  | .spawnany m d b c => some (0x010000e9 + place 1 m.toNat + place 8 d.toNat + place 13 b.toNat + place 18 c.toNat)
  | .tid m d => some (0x018000e9 + place 1 m.toNat + place 8 d.toNat)
  | .prio m a => some (0x020000e9 + place 1 m.toNat + place 13 a.toNat)
  | .qsend m g h => some (0x000000ed + place 1 m.toNat + place 8 g.toNat + place 13 h.toNat)
  | .qrecv m g h c => some (0x008000ed + place 1 m.toNat + place 8 g.toNat + place 13 h.toNat + place 18 c.toNat)
  | .qeos m h => some (0x010000ed + place 1 m.toNat + place 13 h.toNat)
  | .qstat m d h => some (0x018000ed + place 1 m.toNat + place 8 d.toNat + place 13 h.toNat)
  | .dsend m g h => some (0x000000f1 + place 1 m.toNat + place 8 g.toNat + place 13 h.toNat)
  | .drecv m g h c => some (0x008000f1 + place 1 m.toNat + place 8 g.toNat + place 13 h.toNat + place 18 c.toNat)
  | .dseal m h c => some (0x010000f1 + place 1 m.toNat + place 13 h.toNat + place 18 c.toNat)
  | .dquiet m d h => some (0x018000f1 + place 1 m.toNat + place 8 d.toNat + place 13 h.toNat)
  | .xupd m d h c => some (0x020000f1 + place 1 m.toNat + place 8 d.toNat + place 13 h.toNat + place 18 c.toNat)
  | .xscan m g h => some (0x028000f1 + place 1 m.toNat + place 8 g.toNat + place 13 h.toNat)
  | .xcnt m d h c => some (0x030000f1 + place 1 m.toNat + place 8 d.toNat + place 13 h.toNat + place 18 c.toNat)
  | .cpy m a b c l => some (0x000000f5 + place 1 m.toNat + place 8 a.toNat + place 13 b.toNat + place 18 c.toNat + place 23 l.toNat)
  | .cpy2d m a b => some (0x100000f5 + place 1 m.toNat + place 8 a.toNat + place 13 b.toNat)
  | .awinit m d b c => some (0x200000f5 + place 1 m.toNat + place 8 d.toNat + place 13 b.toNat + place 18 c.toNat)
  | .awwait m d b c => some (0x300000f5 + place 1 m.toNat + place 8 d.toNat + place 13 b.toNat + place 18 c.toNat)
  | .scstart m d b c => some (0x400000f5 + place 1 m.toNat + place 8 d.toNat + place 13 b.toNat + place 18 c.toNat)
  | .scmail m d b c => some (0x500000f5 + place 1 m.toNat + place 8 d.toNat + place 13 b.toNat + place 18 c.toNat)
  | .scwait m d c => some (0x600000f5 + place 1 m.toNat + place 8 d.toNat + place 18 c.toNat)
  | .sysr m d i => some (0x000000f9 + place 1 m.toNat + place 8 d.toNat + place 21 i.toNat)
  | .sysw m a i => some (0x000400f9 + place 1 m.toNat + place 13 a.toNat + place 21 i.toNat)
  | .trap m i => some (0x000800f9 + place 1 m.toNat + place 21 i.toNat)
  | .syscall m => some (0x000c00f9 + place 1 m.toNat)
  | .eret m => some (0x002c00f9 + place 1 m.toNat)
  | .brk m => some (0x004c00f9 + place 1 m.toNat)
  | .wake m a b => some (0x006c00f9 + place 1 m.toNat + place 8 a.toNat + place 13 b.toNat)
  | .inval m b => some (0x008c00f9 + place 1 m.toNat + place 13 b.toNat)
  | .segld m b => some (0x00ac00f9 + place 1 m.toNat + place 13 b.toNat)
  | .bkRd d a => some (0x0000000b + place 7 d.toNat + place 15 a.toNat)
  | .bkWr a b => some (0x0000100b + place 15 a.toNat + place 20 b.toNat)
  | .bkGet d a b c => some (0x0000200b + place 7 d.toNat + place 15 a.toNat + place 20 b.toNat + place 27 c.toNat)
  | .bkPut d a b c => some (0x0000300b + place 7 d.toNat + place 15 a.toNat + place 20 b.toNat + place 27 c.toNat)
  | .bkWait d a b => some (0x0000400b + place 7 d.toNat + place 15 a.toNat + place 20 b.toNat)
  | .bkSig a b => some (0x0000500b + place 15 a.toNat + place 20 b.toNat)
  | .bookendBaseInstruction .. => none
  | .longResultReturn .. => none
  | .normaliserServiceEnd .. => none
  | .sleepDeadline .. => none
  | .vectorBind .. => none
  | .storeBufferDrain .. => none
  | .migrationCommit .. => none
  | .departureConvert .. => none
  | .hutchAdmit .. => none
  | .hutchDispatch .. => none
  | .contextLoadDone .. => none
  | .idleDonationRequest .. => none
  | .donationShip .. => none
  | .parkMove .. => none
  | .wakeMessage .. => none
  | .retireNote .. => none
  | .quotaIncrement .. => none
  | .quotaDecrement .. => none
  | .remoteRequest .. => none
  | .remoteResponse .. => none
  | .postedOp .. => none
  | .postedAck .. => none
  | .waiterRetry .. => none
  | .feBudgetExpire .. => none
  | .feWithdrawAck .. => none
  | .barWaitTimeout .. => none
  | .hbarTreeArrive .. => none
  | .hbarTreeRelease .. => none
  | .hbarTimeout .. => none
  | .queueRecordAppend .. => none
  | .resendRetry .. => none
  | .dresserRecordApply .. => none
  | .dresserNote .. => none
  | .bandPass .. => none
  | .trestleCommandStart .. => none
  | .trestleStep .. => none
  | .trestleCommandComplete .. => none
  | .operandLineRequest .. => none
  | .mcastWindowExpire .. => none
  | .operandLineArrive .. => none
  | .leaseExpireTime .. => none
  | .copyPieceIssue .. => none
  | .copyRead .. => none
  | .copyWrite .. => none
  | .arrivalCount .. => none
  | .pageWalkComplete .. => none
  | .faultRecordWrite .. => none
  | .invalCommand .. => none
  | .sysBroadcastAck .. => none
  | .segldTable .. => none
  | .rtClassUpdate .. => none
  | .classSwitchTake .. => none
  | .vaultFillReturn .. => none
  | .writebackEntryFree .. => none
  | .prefetchIssue .. => none
  | .scrubRead .. => none
  | .routerHop .. => none
  | .ageTick .. => none
  | .periodicDrain .. => none
  | .linkFailure .. => none
  | .routerFailure .. => none
  | .nameTableSwitch .. => none
  | .tileReset .. => none
  | .nonresidentSpill .. => none
  | .gangStop .. => none
  | .gangSave .. => none
  | .gangResume .. => none
  | .powerOnReset .. => none
  | .recoveryInstall .. => none
  | .recoveryLogReset .. => none
  | .hostRegisterWrite .. => none
  | .mgSemRead .. => none
  | .mgSemWrite .. => none
  | .mgLqtail .. => none
  | .launchValidate .. => none
  | .launchPlace .. => none
  | .backfillFence .. => none
  | .launchComplete .. => none
  | .mgRetire .. => none
  | .mgAbort .. => none
  | .mgCtx .. => none
  | .dbgHalt .. => none
  | .dbgResume .. => none
  | .dbgFreeze .. => none
  | .dbgBrkhalt .. => none
  | .mgDbgstep .. => none
  | .debugHaltTake .. => none
  | .debugResumeTake .. => none
  | .stepEnd .. => none
  | .apertureRead .. => none
  | .apertureWrite .. => none
  | .portLinkDown .. => none
  | .hostCompletionTimeout .. => none
  | .getVersion .. => none
  | .getCapabilities .. => none
  | .negotiateAlgorithms .. => none
  | .getDigests .. => none
  | .getCertificate .. => none
  | .challenge .. => none
  | .getMeasurements .. => none
  | .powerExcursion .. => none
  | .powerRestored .. => none
  | .thermalShutdown .. => none
  | .illegalEncoding .. => none
  | .fetchFault .. => none
  | .hostLinkUp .. => none
  | .ejectionPortReopen .. => none

/-- The length of an instruction in bytes: 2 for a compact form, 4 for every other encoded instruction (02 R45). -/
def Instr.size : Instr → Nat
  | .cMv .. => 2
  | .cAdd .. => 2
  | .cSub .. => 2
  | .cAnd .. => 2
  | .cOr .. => 2
  | .cXor .. => 2
  | .cShli .. => 2
  | .cShri .. => 2
  | .cSrai .. => 2
  | .cAddi .. => 2
  | .cLi .. => 2
  | .cLd .. => 2
  | .cSt .. => 2
  | .cCmpeq .. => 2
  | .cCmplt .. => 2
  | .cBp1 .. => 2
  | _ => 4

/-- The bytes of an instruction's bits, lowest first. -/
def leBytes : Nat → Nat → List Byte
  | 0, _ => []
  | n + 1, w => BitVec.ofNat 8 w :: leBytes n (w / 256)

/-- The instruction whose bits are w, as the opcode table numbers them: one of the Bookend's own six (12 R265), else what the
decoder of the threads' stream reads from its bytes. -/
def decodeTableWord (nbits w : Nat) : Option Instr :=
  match decodeBookend (w % 2 ^ nbits) with
  | .ok i => some i
  | .error _ =>
    match decode (leBytes 4 (w % 2 ^ nbits)) with
    | .ok (i, _) => some i
    | .error _ => none

end Sys2Proof
end

