-- ==== Sys2Proof/Config.lean ====
section
/-! DEFINITION. What is fixed for the part (00 R3, R7), and the values the manual leaves open, which are opaque: nothing can
be proved of their value. -/
namespace Sys2Proof.Config

/-- Columns and rows of the advertised logical grid (00 R3). -/
def gridW : Nat := 96
def gridH : Nat := 56
def coresPerTile : Nat := 4
def slotsPerCore : Nat := 16
/-- Bytes of tile memory and of the vault of one tile (00 R3). -/
def sramBytes : Nat := 0x1800000
def vaultBytes : Nat := 0x80000000
/-- Start of supervisor space (14 R447) and of the vault's device region (15 R320). -/
def supervisorBase : Nat := 0x1700000
def deviceRegion : Nat := 0x7E000000
/-- Fixed regions below supervisor space (14 R294). -/
def hutchRing : Nat := 0x16B0000
def falloutBase : Nat := 0x16C0000

/-- The name of tile (m, x, y) (01 R38). -/
def tileName (m x y : Nat) : Nat := m * 65536 + x * 512 + y * 8
def nameM (n : Nat) : Nat := n / 65536 % 16
def nameX (n : Nat) : Nat := n / 512 % 128
def nameY (n : Nat) : Nat := n / 8 % 64
/-- A name of a tile of the grid (00 R7, 01 R38). -/
def isTile (n : Nat) : Bool := n % 8 == 0 && n < 1048576 && nameX n < gridW && nameY n < gridH
/-- The reticle field of a tile, its module included (00 R3, 18 R382). -/
def fieldOf (n : Nat) : Nat := nameM n * 84 + nameY n / 8 * 12 + nameX n / 8
/-- The value that names no tile and marks an absent departure name (01 R22). -/
def noTile : Nat := 0xFFFFF
/-- TL_NAME before firmware writes it (01 R38). -/
def unnamed : Nat := 0xFFFF8

/-- DESIGN CHOICE (log 3): the value a completion from host memory carries, one for each use of the state's counter. -/
opaque hostData : Nat → BitVec 64
/-- DESIGN CHOICE (log 4): whether a signature over the given bytes is good under the fused key (20 R414, R416, R418). -/
opaque signatureGood : List (BitVec 8) → List (BitVec 8) → Bool
/-- DESIGN CHOICE (log 4): SHA-384 of some bytes, which the manual names and does not define (20 R418, R422). -/
opaque sha384 : List (BitVec 8) → BitVec 384
/-- DESIGN CHOICE (log 4): the module's signature over a message (20 R422). -/
opaque sign : List (BitVec 8) → BitVec 768
/-- DESIGN CHOICE (log 4): the module's identity certificate (20 R422). -/
opaque certificate : Nat → List (BitVec 8)
/-- DESIGN CHOICE (log 4): the digest of the module's ROM (20 R422). -/
opaque romDigest : Nat → BitVec 384
/-- DESIGN CHOICE (log 4): the module's serial number (20 R418). -/
opaque serialNumber : Nat → BitVec 64
/-- DESIGN CHOICE (log 5): which of the lawful sets of detour entries the firmware chooses (18 R383): the module, and the ports that
need one. -/
opaque detour : Nat → List (Nat × Nat) → Nat
/-- DESIGN CHOICE (log 66): the plane of a packet whose class may use either, chosen as it is injected (18 R377): even compute, odd
memory. -/
opaque planeChoice : Nat → Nat

end Sys2Proof.Config
end

