-- ==== Sys2Proof/Machine/State.lean ====
section
/-! DEFINITION. The state of the machine: threads and their contexts (01 R12 to R26), cores and slots, the units of a tile,
the fabric's packets, memory by device address (15 R307), the Bureau and the host's registers, as plain data. -/
namespace Sys2Proof.Machine

/-- Why a step stops. -/
inductive Fault where
  /-- A host access through the aperture names a device address that no tile memory or vault has (19 R402, 15 R307).
  Raised by APERTURE_READ and APERTURE_WRITE; safe: the manual gives such an access no effect. -/
  | noSuchDeviceAddress
  deriving DecidableEq, Repr

/-- Why a step has no meaning. -/
inductive Refusal where
  /-- An instruction whose meaning is not written; raised by exec's arms alone, and safe. -/
  | notModelled (mnemonic : String)
  deriving DecidableEq, Repr

/-! ## Threads -/

/-- The states of a thread, codes 0 to 14 (01 R25). -/
inductive TState where
  | free | ready | markWait | remoteWait | feWait | qWait | parkedFault | leaseWait | slotLock | normalise
  | departing | sleeping | barWait | halted | parked
  deriving DecidableEq, Repr

/-- A register that a result writes (02 R64, R68). -/
inductive Dest where
  | g (r : Nat) | p (r : Nat) | k (r : Nat) | v (r : Nat)
  deriving DecidableEq, Repr

/-- One register write of a result. `free` is VFREE's write, which clears the live bit (09 R197). -/
inductive RegWrite where
  | to (d : Dest) (val : Line)
  | free (v : Nat)
  deriving DecidableEq, Repr

/-- What a thread in MARKWAIT waits for. -/
inductive Hold where
  /-- every pending long result (02 R66) -/
  | results
  /-- one of 16 pending results (02 R65) -/
  | oneResult
  /-- results, the store buffer up to the drain mark, and no posted operation left (07 R151) -/
  | release
  /-- room for one more posted operation (07 R146) -/
  | posted
  /-- an acquire's result or acknowledgement (07 R151, 10 R220) -/
  | acquire
  /-- the conditions of a fence (07 R157), kind and scope -/
  | fence (kind scope : Nat)
  /-- entries of the core's store buffer up to a position that overlap an access (13 R282) -/
  | overlap (upTo : Nat)
  /-- the acknowledgements of a broadcast or invalidation (12 R277, R278, 18 R378) -/
  | acks
  /-- a refused record for a queue of its own tile, until it is performed (11 R234, 13 R285) -/
  | record
  /-- results, before a trap enters: its cause, value and EPC (02 R66, 12 R273) -/
  | trap (cause : BitVec 8) (value : Dword) (epc : CodeAddr)
  deriving DecidableEq, Repr

/-- Loads and their extension (06 R127, R130). -/
structure LoadForm where
  size : Nat
  signed : Bool
  deriving DecidableEq, Repr

/-- The full-empty forms (06 R132). -/
inductive FeForm where
  | ldfe | ldff | stef | stff | feprobe | feset
  deriving DecidableEq, Repr

/-- The atomic operations, codes 0 to 10 (07 R149). -/
inductive AmoOp where
  | add | and | or | xor | minS | minZ | maxS | maxZ | xchg | fadd | fmax
  deriving DecidableEq, Repr

/-- The barrier forms (07 R159). -/
inductive BarForm where
  | init | arr | wait | arrw | cmb | cmbw
  deriving DecidableEq, Repr

/-- A record or token of a plain queue or D-queue: four words (11 R233, R238). -/
structure QRec where
  w0 : Dword
  w1 : Dword
  w2 : Dword
  w3 : Dword
  deriving DecidableEq, Repr

/-- The queue forms by handle (11 R224). -/
inductive QueueOp where
  | send (r : QRec) | eos | recv | stat
  | dsend (r : QRec) | dseal (round : Nat) (final : Bool) | drecv | dquiet
  deriving DecidableEq, Repr

/-- The index forms by header address (11 R244 to R246). -/
inductive IndexOp where
  | upd (r : QRec) | scan (key : Dword) (cursor : Nat) | cnt (key : Dword)
  deriving DecidableEq, Repr

/-- What an operation does at the owner of its address (06 R129, 13 R279). -/
inductive OpKind where
  | load (f : LoadForm)
  | store (size : Nat) (data : Dword)
  | vload (mask : BitVec 16)
  | vstore (mask : BitVec 16) (data : Line)
  | fe (form : FeForm) (data : Dword)
  | amo (op : AmoOp) (size : Nat) (v : Dword) (fetch : Bool)
  | cas (size : Nat) (expected new : Dword)
  | bar (form : BarForm) (rs2 : Dword)
  | awInit (rs2 : Dword)
  | awWait (gen : BitVec 16)
  | queue (q : QueueOp)
  | index (x : IndexOp)
  /-- arriving by MIGRATE or HOME: no access (06 R141) -/
  | arrive
  /-- the fetching increment of the live-thread count (11 R229) -/
  | quota
  /-- waiting for an HBAR episode (07 R165) -/
  | hbar
  /-- SCWAIT on a Bookend's outbox (12 R270) -/
  | outbox (b : Nat)
  /-- a piece of a host access through the aperture: bytes read, or written (19 R402) -/
  | hostRead (n : Nat)
  | hostWrite (bytes : List Byte)
  deriving DecidableEq, Repr

/-- Who issued an operation, for its reply. -/
inductive Origin where
  /-- a thread of tile `tile`, with the tag of the awaited result -/
  | thread (tile : Nat) (tid : BitVec 32) (tag : Nat)
  /-- a Bookend of tile `tile` (16 R339) -/
  | bookend (tile b : Nat) (tag : Nat)
  /-- the host's aperture (19 R402) -/
  | host (md port : Nat) (tag : Nat)
  deriving DecidableEq, Repr

/-- How the reply travels: at the owner itself, as a remote operation, or as a posted operation (06 R128). -/
inductive Path where
  | here | remote | posted
  deriving DecidableEq, Repr

/-- What a descriptor gives the owner for translation (16 R334): kind 4, the page size and the medium. An access that has passed its
checks keeps it, whatever table is loaded meanwhile (12 R278). -/
structure Mapping where
  scratch : Bool := false
  psize : Nat := 0
  vault : Bool := false
  /-- word 2 of a host window: its port and bus address (19 R407) -/
  host : Dword := 0
  deriving DecidableEq, Repr

/-- The vault line whose fill an answer waits for, and the 8-byte words of it that the access reads (14 R303, R305). -/
structure Gate where
  line : Nat
  words : BitVec 8 := 0xFF
  deriving DecidableEq, Repr

/-- One operation on its way to, or at, the owner of its address. -/
structure Op where
  kind : OpKind
  path : Path
  origin : Origin
  asid : Nat
  /-- segment, virtual address and local offset at the owner (01 R28, R33) -/
  seg : Nat
  va : Dword
  lo : Nat
  owner : Nat
  /-- the tile it was sent from, the source of its stream (13 R285) -/
  src : Nat
  /-- how the owner translates it -/
  map : Mapping := {}
  /-- lane of an element-wise form (09 R194) -/
  lane : Nat := 0
  /-- the requests that the injection port takes together: a number that the form gives them, and how many they are (09 R195) -/
  group : Option (Nat × Nat) := none
  /-- the address is a device address and bypasses translation (15 R307) -/
  device : Bool := false
  deriving DecidableEq, Repr

/-- The answer of an owner to a remote operation. -/
inductive Reply where
  /-- performed; the values for the form's destinations in order -/
  | done (vals : List Line)
  /-- performed, and the thread traps with this cause and value -/
  | trap (cause : BitVec 8) (value : Dword)
  /-- performed with results standing, and the thread traps after them (11 R241) -/
  | doneTrap (vals : List Line) (cause : BitVec 8) (value : Dword)
  /-- no waiter record free: present again (06 R133) -/
  | retry
  deriving DecidableEq, Repr

/-- A pending long result (02 R64, R65). -/
structure Pending where
  tag : Nat
  /-- registers it will write, g0 and p0 left out -/
  dests : List Dest
  ready : Bool
  writes : List RegWrite
  flags : BitVec 5 := 0
  /-- a memory read, for FENCE's "loads returned" (07 R157) -/
  mem : Bool := false
  /-- later memory accesses wait for it (07 R151, 10 R220) -/
  acq : Bool := false
  /-- for each access of it whose vault line is still to be filled, its address and the line; the trap that one of them brought; and the
  instruction it came from (14 R303, R305, 09 R195) -/
  gates : List (Dword × Gate) := []
  bad : Option (BitVec 8 × Dword) := none
  pc : CodeAddr := 0
  /-- the Trestle command whose completion it waits for (10 R220) -/
  mseq : Option Nat := none
  /-- the entry of the core's vector queue that must be bound before it returns (09 R183) -/
  bind : Option Nat := none
  deriving DecidableEq, Repr

/-- An unacknowledged posted operation of a thread (07 R146). -/
structure Posted where
  tag : Nat
  owner : Nat
  acq : Bool
  /-- PC and PINCNT before the access, and the cycle of its issue, for one that a stop finds not yet accepted by the port while its thread has
  issued nothing since (07 R145) -/
  undo : Option (CodeAddr × BitVec 6 × Nat) := none
  deriving DecidableEq, Repr

/-- The wait record of a thread that waits for one form (02 R66, 15 R327). -/
structure WaitRec where
  op : Op
  /-- the destination registers of the form, in the order of its values -/
  dests : List Dest
  /-- lanes a vector load writes, and the register's value at issue, which the other lanes keep (09 R181, R193, R194) -/
  mask : BitVec 16 := 0xFFFF
  old : Line := 0
  /-- a passing access that does not migrate decrements PINCNT (06 R138) -/
  pin : Bool := false
  /-- a store that enters the core's store buffer (06 R130) -/
  buffered : Bool := false
  /-- the result is written before the thread is READY again: it waits for it, or arrived with it (06 R135) -/
  direct : Bool := false
  /-- an element-wise form, and its local elements not yet performed, in order (09 R194) -/
  elems : Bool := false
  /-- its elements are the doublewords of a parameter block, which the form reads at issue (10 R219, 12 R260, R277, R278) -/
  block : Bool := false
  todo : List Op := []
  /-- bytes of the instruction, to resume after it -/
  size : Nat := 4
  /-- timebase at which the form was first presented to the owner, for its budget (06 R134) -/
  since : Nat := 0
  acq : Bool := false
  /-- elements still awaited, and those that have returned (09 R194) -/
  lanes : List Nat := []
  got : List (Nat × Line) := []
  /-- a trap that an element brought back (09 R195) -/
  bad : Option (BitVec 8 × Dword) := none
  /-- a result or trap ready at resume, for a parked thread (15 R328) -/
  answer : Option Reply := none
  /-- waiting for an owner that had no waiter record free (06 R133) -/
  retry : Bool := false
  /-- the withdrawal of an expired wait has been sent (06 R134) -/
  withdrawn : Bool := false
  /-- for each access answered whose vault line is still to be filled: its address and the line (14 R303, 09 R195) -/
  gates : List (Dword × Gate) := []
  /-- position in the core's store buffer at issue: entries below it entered before (13 R282) -/
  sbAt : Nat := 0
  /-- the entry of the core's vector queue that must be bound before its result returns (09 R183) -/
  bind : Option Nat := none
  /-- resident cycles at which a form that found no waiter record is presented again (06 R133) -/
  retryAt : Nat := 0
  deriving DecidableEq, Repr

/-- What a SPAWN has settled before it draws its child's number (11 R227): the child's entry, priority, vector registers and scratch bytes,
whether a task type gives them, and the tile it goes to. -/
structure Draw where
  entry : CodeAddr
  prio : BitVec 2
  vregs : Nat
  scratch : Nat
  typed : Bool
  dest : Nat
  deriving DecidableEq, Repr

/-- A thread: the context of R12 to R22, the vector registers of R23, and what its slot holds for it. -/
structure Thread where
  st : TState := .free
  -- PCW (01 R14)
  bounce : BitVec 3 := 0
  prio : BitVec 2 := 0
  priv : BitVec 2 := 0
  hops : BitVec 8 := 0
  pc : CodeAddr := 0
  -- predicate word (01 R16)
  p : BitVec 16 := 1
  k1 : BitVec 16 := 0
  k2 : BitVec 16 := 0
  k3 : BitVec 16 := 0
  -- IDW (01 R17)
  hz : Bool := false
  ldepth : BitVec 2 := 0
  few : BitVec 4 := 15
  frm : BitVec 3 := 0
  flags : BitVec 5 := 0
  vlive : BitVec 8 := 0
  asid : BitVec 8 := 0
  tid : BitVec 32 := 0
  -- AVA, g0 slot, g1 to g23 (01 R12, R20)
  ava : Dword := 0
  g0slot : Dword := 0
  g : Tab Dword := []
  -- return-address store, departure names, TH_LINKCNT (01 R21, R22)
  links : Tab CodeAddr := []
  d1 : BitVec 20 := 0xFFFFF
  d2 : BitVec 20 := 0xFFFFF
  linkcnt : BitVec 8 := 0
  -- TW (01 R19)
  pincnt : BitVec 6 := 0
  ppriv : BitVec 2 := 0
  cause : BitVec 8 := 0
  epc : CodeAddr := 0
  -- vector registers (01 R23) and how many the thread may use (11 R228, 15 R316)
  v : Tab Line := []
  vregs : Nat := 8
  -- what the slot holds for its thread
  pending : List Pending := []
  /-- results that no register takes and that have not come: they count as pending for nothing, but may still trap (02 R65) -/
  silent : List Pending := []
  posted : List Posted := []
  /-- the next tag for a result or posted operation of this thread -/
  tags : Nat := 0
  hold : Hold := .results
  wait : Option WaitRec := none
  /-- drain mark: entries of the core's store buffer below this position must drain (13 R283) -/
  mark : Nat := 0
  /-- denial register (16 R345) -/
  denial : Option Dword := none
  /-- the waiting SPAWN has already taken its quota (11 R227) -/
  quotaTaken : Bool := false
  draw : Option Draw := none
  /-- the parameter block that the form at PC has read -/
  block : Option (List Dword) := none
  /-- lines of an image in the vault that the SCSTART at PC has read (12 R269) -/
  imaged : Nat := 0
  /-- its MISSUE has passed its lease check and is not settled (10 R214) -/
  issuing : Bool := false
  /-- the BUSY accumulator slots that it waits for in SLOTLOCK (10 R218, R220) -/
  locks : List Nat := []
  /-- a departure's destination, and the timebase at which its packet was first presented (06 R135, R137) -/
  depart : Option Nat := none
  departAt : Option Nat := none
  /-- its local access is in a page walk, so it takes no turn (13 R281) -/
  walking : Bool := false
  /-- SLEEPING by WAITT, which no WAKE ends (07 R168) -/
  waitt : Bool := false
  /-- the earliest timebase of its next turn, 8 cycles after its last one (15 R324) -/
  nextTurn : Nat := 0
  /-- the timebase at which it last issued an instruction (07 R145) -/
  issuedAt : Nat := 0
  /-- timebase until which a YIELD defers its turns (05 R124) -/
  yieldUntil : Nat := 0
  /-- acknowledgements a broadcast or invalidation still lacks, by tile, and whether it has been sent (12 R277, R278) -/
  acks : List Nat := []
  sent : Bool := false
  /-- the number of that broadcast: acknowledgements of an earlier one do not count (12 R277) -/
  ackNo : Nat := 0
  /-- its write to RT_CLASS3 is a class switch whose time has not been sent (18 R378) -/
  switching : Bool := false
  /-- registers whose parity is bad (16 R332) -/
  parity : List Dest := []
  /-- the base and size of its scratch allotment (11 R232) -/
  scratch : Option (Nat × Nat) := none
  /-- resident cycles at its page fault, for parking (15 R327) -/
  faultAt : Nat := 0
  /-- the virtual address of its page fault (16 R344) -/
  faultVa : Dword := 0
  /-- the state it held when it was halted or parked (19 R409, 15 R327) -/
  haltedFrom : TState := .free
  deriving DecidableEq, Repr

/-! ## Segments and translation -/

/-- A segment descriptor as its words 0 to 2 give it (01 R30). -/
structure Segment where
  kind : Nat := 0
  rd : Bool := false
  w : Bool := false
  x : Bool := false
  a : Bool := false
  f : Bool := false
  vault : Bool := false
  psize : Nat := 0
  g : Nat := 0
  lw : Nat := 0
  lh : Nat := 0
  lm : Nat := 0
  origin : Nat := 0
  limit : Nat := 0
  host : Dword := 0
  deriving DecidableEq, Repr

/-- A TLB entry (16 R335, R337). -/
structure TlbEntry where
  asid : Nat
  seg : Nat
  page : Nat
  psize : Nat
  /-- device offset of the page and its medium -/
  frame : Nat
  vault : Bool
  wp : Bool
  dirty : Bool
  way : Nat := 0
  deriving DecidableEq, Repr

/-- A fault record waiting to be written (16 R341, R342). -/
structure FaultRec where
  tid : BitVec 32
  asid : Nat
  seg : Nat
  kind : Nat
  reason : Nat
  lo : Nat
  va : Dword
  src : Nat
  cls : Nat
  deriving DecidableEq, Repr

/-! ## Packets -/

/-- A piece of a copy or of a Bookend's transfer (12 R256, R266): the addresses, length and the arrival word it counts into. An
owner that is no tile is the host, and the local offset is then its bus address. -/
structure Piece where
  asid : Nat
  /-- who issued it: a thread's copy engine, or a Bookend with its request's tag -/
  origin : Origin
  dstSeg : Nat := 0
  dstVa : Dword := 0
  dstOwner : Nat := 0
  dstLo : Nat := 0
  srcSeg : Nat := 0
  srcVa : Dword := 0
  srcOwner : Nat := 0
  srcLo : Nat := 0
  len : Nat
  /-- arrival word: segment, address, owner, local offset; none for a Bookend's transfer -/
  aw : Option (Nat × Dword × Nat × Nat) := none
  data : List Byte := []
  /-- bytes of the data that were read poisoned (12 R258) -/
  poison : List Nat := []
  /-- cause code of a fault met, 0 for none -/
  faulted : BitVec 8 := 0
  /-- a kind 2 destination: the tiles still to write (12 R259) -/
  replica : List Nat := []
  /-- the parts of its source still to be read after the one that the fields above name, at other granules: segment, address, owner, local
  offset, length and mapping (12 R259) -/
  parts : List (Nat × Dword × Nat × Nat × Nat × Mapping) := []
  /-- how the owners translate its destination, its source and its arrival word -/
  dstMap : Mapping := {}
  srcMap : Mapping := {}
  awMap : Mapping := {}
  /-- a Bookend's transfer: the data-store address, and whether the Bookend writes memory -/
  bkAddr : Nat := 0
  bkPut : Bool := false
  deriving DecidableEq, Repr

/-- An operand line or a STORE row line of a Trestle command (10 R210, R211). -/
structure LineReq where
  asid : Nat
  tile : Nat
  seq : Nat
  seg : Nat
  va : Dword
  owner : Nat
  lo : Nat
  /-- bytes of the line asked for: a granule below 64 bytes cuts it (01 R33) -/
  len : Nat
  mcast : Bool
  /-- a STORE's data, none for a read -/
  data : Option Line
  tid : BitVec 32
  map : Mapping := {}
  deriving DecidableEq, Repr

/-- How a context came to the Hutch (15 R319). -/
inductive Admit where
  | woken | migrated | spawned | task
  deriving DecidableEq, Repr

/-- A context outside a slot (01 R12): a thread, the access it completes on arrival, and its scratch request. -/
structure Ctx where
  th : Thread
  op : Option Op := none
  scratchNeed : Nat := 0
  /-- a SPAWNANY child that has never issued (15 R323) -/
  donatable : Bool := false
  /-- the core that CORESLOTS gives an initial thread (15 R316) -/
  core : Option Nat := none
  deriving DecidableEq, Repr

/-- What a packet carries (18 R375). -/
inductive Payload where
  | context (c : Ctx) (how : Admit)
  | request (op : Op)
  | response (tid : BitVec 32) (tag lane : Nat) (r : Reply)
  | hostResponse (md port tag n : Nat) (r : Reply)
  | bkResponse (b tag : Nat) (r : Reply)
  | posted (op : Op)
  | ack (origin : Origin) (denied : Option Dword)
  | quotaAdd (op : Op)
  | quotaSub
  | copyRead (x : Piece)
  | copyData (x : Piece)
  | copyCount (x : Piece)
  | bkDone (x : Piece)
  | lineRead (x : LineReq)
  /-- a combine window's one read for its joiners (10 R210) -/
  | lineReads (xs : List LineReq)
  | line (x : LineReq) (data : Line) (cause : BitVec 8)
  /-- one line for several joiners of a combine window (10 R210, 18 R385) -/
  | mline (xs : List LineReq) (data : Line) (cause : BitVec 8)
  | lineAck (x : LineReq) (cause : BitVec 8)
  | collUp (tag level op : Nat) (cmb bad : Bool) (value : Dword)
  | collDown (tag : Nat) (cmb bad : Bool) (value : Dword)
  /-- an episode that ends without a value, on its way to the root (07 R166) -/
  | collBad (tag : Nat)
  | wake (tid : BitVec 32) (refuse : Bool) (origin : Option Origin)
  | retire (seq : Nat)
  | withdraw (op : Op) (untaken : Bool)
  | withdrawAck (tid : BitVec 32) (tag : Nat)
  | inval (asid seg hint lo hi : Nat) (tid : BitVec 32) (no : Nat)
  /-- an invalidation that has dropped its entries and drains their frames: address and size (16 R347) -/
  | invalDrain (frames : List (Nat × Nat)) (tid : BitVec 32) (no : Nat)
  | segTable (words : List Dword) (tid : BitVec 32) (no : Nat)
  | classWrite (n : Nat) (val : Dword) (tid : BitVec 32) (no : Nat) (switch : Bool)
  /-- the timebase value at which a class switch is taken (18 R378) -/
  | classTime (val : Dword) (at_ : Nat) (tid : BitVec 32)
  | sysAck (tid : BitVec 32) (no : Nat)
  | donateAsk
  | donateNone
  deriving DecidableEq, Repr

/-- A packet in the fabric (18 R373, R374): the class, the names, where it stands and its control field. -/
structure Packet where
  cls : Nat
  src : Nat
  dst : Nat
  asid : Nat
  body : Payload
  len : Nat := 1
  /-- module, physical column, physical row and plane of the router that holds it -/
  md : Nat := 0
  col : Nat := 0
  row : Nat := 0
  plane : Nat := 0
  /-- input port by which that router took it (5: the tile itself; 6: its spill regions), virtual channel and channel -/
  port : Nat := 5
  vc : Nat := 0
  chan : Nat := 0
  mode : Nat := 0
  age : Nat := 0
  poison : Bool := false
  hops : Nat := 0
  /-- in a drain virtual channel (18 R389) -/
  drainVc : Bool := false
  /-- its place in the virtual channel that holds it, lowest first (18 R373) -/
  order : Nat := 0
  /-- it has used its one change of plane under minimal adaptive routing (18 R381) -/
  crossed : Bool := false
  /-- it stands at its name's former site, which forwards it (06 R140) -/
  steered : Bool := false
  /-- the former site of its name, toward which it was under way when the name moved (06 R140, 18 R392) -/
  aim : Option (Nat × Nat) := none
  /-- its control field besides (18 R374): the plane of injection, the route tag, and whether it is a multicast operand line -/
  inj : Nat := 0
  tag : Nat := 0
  mcast : Bool := false
  /-- a tree broadcast: the node that it came from (18 R384) -/
  via : Nat := 0xFFFFF
  /-- the direction of the pod link it took last (18 R395), or in which a multicast line moves (18 R385) -/
  heading : Option Nat := none
  /-- the model's own: its number in the order of all packets sent, which orders its stream (18 R380) -/
  born : Nat := 0
  deriving DecidableEq, Repr

/-- What waits for a page (16 R339): a thread's own access, its fetch, or an operation, piece or line that came by packet. -/
inductive Use where
  | own (core slot : Nat)
  | fetch (core slot : Nat)
  | packet (p : Packet)
  deriving DecidableEq, Repr

/-- A page walk under way (16 R338). -/
structure Walk where
  asid : Nat
  seg : Nat
  lo : Nat
  va : Dword
  write : Bool
  uses : List Use
  psize : Nat := 0
  vault : Bool := false
  /-- the levels whose reads the pipeline has taken (16 R337) -/
  steps : Nat := 0
  deriving DecidableEq, Repr

/-- An entry of the fault buffer (16 R340): the packet, and the fault of a head: reason, segment, local offset, address. -/
structure FbEntry where
  p : Packet
  fault : Option (Nat × Nat × Nat × Dword)
  /-- a reissued head whose page is being walked for -/
  walking : Bool := false
  deriving DecidableEq, Repr

/-! ## Units of a tile -/

/-- An entry of a core's store buffer (13 R282): the device address, the bytes and which of them it writes. -/
structure SbEntry where
  pos : Nat
  addr : Nat
  bytes : List (Option Byte)
  asid : Nat
  seg : Nat
  lo : Nat
  va : Dword
  tid : BitVec 32
  /-- the cycle of its entry: it is presented from the next one on -/
  entered : Nat := 0
  deriving DecidableEq, Repr

/-- An entry of a core's vector queue (09 R183). -/
structure VqEntry where
  slot : Nat
  tag : Nat
  cost : Nat
  /-- timebase of its issue -/
  at_ : Nat := 0
  deriving DecidableEq, Repr

/-- A context held by the Hutch: the class, the context, and its place in the ring (below 256) or spill region. -/
structure Held where
  how : Admit
  ctx : Ctx
  place : Nat
  deriving DecidableEq, Repr

structure Core where
  slots : Tab Thread := []
  sb : List SbEntry := []
  /-- position of the next entry, and of the oldest undrained one -/
  sbNext : Nat := 0
  /-- slot that issued last, and the first cycle in which the core may issue again (15 R324) -/
  rot : Nat := 15
  nextTurn : Nat := 0
  /-- the slot being loaded by the Hutch, with the context to load and its place (15 R321) -/
  loading : Option (Nat × Held) := none
  /-- the slot, or 16 for the store buffer, whose request a full miss table holds at the pipeline, and since when (14 R303) -/
  stalled : Option (Nat × Nat) := none
  vq : List VqEntry := []
  credit : Nat := 0
  /-- stopped by BRK or by a machine check, and which (16 R332, 19 R410) -/
  stopped : Bool := false
  brkStopped : Bool := false
  deriving DecidableEq, Repr

/-- A request at the normaliser (04 R99). -/
structure NormReq where
  core : Nat
  slot : Nat
  result : Pending
  /-- the cycle of its arrival -/
  at_ : Nat := 0
  deriving DecidableEq, Repr

/-- A waiter record (06 R133, 07 R161, 12 R254): the form that waits at the owner. -/
structure Waiter where
  op : Op
  /-- physical word or object it waits on -/
  addr : Nat
  deriving DecidableEq, Repr

/-- An accumulator slot (10 R199, R200). -/
structure Acc where
  tag : Nat := 0
  owner : Option (BitVec 32) := none
  orphaned : Bool := false
  /-- released while BUSY: freed once its commands have completed (10 R215) -/
  releasing : Bool := false
  ovf : Bool := false
  fault : BitVec 8 := 0
  /-- chunk 8 r + c holds bytes 64 c to 64 c + 63 of row r -/
  data : Tab Line := []
  deriving DecidableEq, Repr

/-- The parameter block of a Trestle command (10 R201, R202). -/
structure Block where
  words : List Dword
  seq : Nat
  tid : BitVec 32
  asid : Nat
  scratch : Option (Nat × Nat)
  /-- the descriptors under which it was accepted (12 R278) -/
  segs : Tab Segment
  deriving DecidableEq, Repr

/-- A running command: its next step, the lines it has and those it awaits (10 R213). -/
structure Running where
  blk : Block
  step : Nat := 0
  /-- the first step not all of whose lines have been asked for, and those of it still to ask for: address and length -/
  ahead : Nat := 0
  toSend : List (Dword × Nat) := []
  /-- pieces of lines awaited, by virtual address, and arrived, with their lengths -/
  awaited : List Dword := []
  got : List (Dword × Nat × Line) := []
  /-- writes of a STORE not yet acknowledged -/
  unacked : Nat := 0
  stopped : Bool := false
  deriving DecidableEq, Repr

structure Trestle where
  queue : List Block := []
  running : Option Running := none
  accepted : Nat := 0
  completed : Nat := 0
  -- the lease (10 R214)
  holder : Option (BitVec 32) := none
  /-- the FIFO: the thread, and whether it is LAPSED (else WAITING) -/
  fifo : List (BitVec 32 × Bool) := []
  commands : Nat := 0
  grantAt : Nat := 0
  /-- the last command accepted before a gang stop: it completes before any new one is accepted (10 R222) -/
  before : Nat := 0
  deriving DecidableEq, Repr

/-- A multicast combine window at an owner (10 R210). -/
structure Window where
  lo : Nat
  seg : Nat
  asid : Nat
  opened : Nat
  joiners : List LineReq
  deriving DecidableEq, Repr

/-- One row of a copy command (12 R255, R260). -/
structure CopyRow where
  dst : Dword
  src : Dword
  len : Nat
  deriving DecidableEq, Repr

/-- A copy command and its progress (12 R255, R256). -/
structure CopyCmd where
  asid : Nat
  tid : BitVec 32
  rows : List CopyRow
  aw : Dword
  supervisor : Bool
  scratch : Option (Nat × Nat)
  segs : Tab Segment
  deriving DecidableEq, Repr

/-- A Bookend (12 R262 to R271). -/
structure Bookend where
  /-- 0 never started, 1 running, 2 halted -/
  mode : Nat := 0
  pc : Word := 0
  x : Tab Word := []
  imem : Tab Byte := []
  dmem : Tab Byte := []
  mstatus : Word := 0x1800
  mtvec : Word := 0
  mscratch : Word := 0
  mepc : Word := 0
  mcause : Word := 0
  mtval : Word := 0
  /-- mcycle less the tile's resident cycles -/
  mcycle : Dword := 0
  minstret : Dword := 0
  bkseg : Word := 0
  bkmailhi : Word := 0
  bkfault : Word := 0
  inbox : List Dword := []
  outbox : List Dword := []
  tags : Nat := 0
  /-- outstanding GET and PUT requests: tag, pieces awaited, and whether it is a PUT -/
  xfers : List (Nat × Nat × Bool) := []
  /-- unacknowledged BK.WR -/
  posted : Nat := 0
  /-- BK.RD awaiting its response: the register and the address -/
  reading : Option (Nat × Dword) := none
  /-- the first fault that a GET or PUT met, for the next BK.WAIT: cause, mcause and address -/
  xferFault : Option (BitVec 8 × Nat × Dword) := none
  /-- counts the starts, so that answers to an earlier program are known as stale -/
  epoch : Nat := 0
  deriving DecidableEq, Repr

/-- An item of a plain queue's ring: a record or an end-of-stream token (11 R233, R236). -/
inductive QItem where
  | record (r : QRec)
  | eos
  deriving DecidableEq, Repr

structure PlainQueue where
  size : Nat
  /-- the ring's place of its head (11 R233) -/
  head : Nat := 0
  ring : List QItem := []
  waiters : List Op := []
  eosOut : Nat := 0
  deriving DecidableEq, Repr

/-- A Dresser entry: a record and its 64-bit sum (11 R239). -/
structure DEntry where
  key : Dword
  v1 : Dword
  v2 : Dword
  round : Nat
  sum : Int
  ovf : Bool := false
  poison : Bool := false
  /-- its place among the window's 1,024 entries (17 R356) -/
  place : Nat := 0
  deriving DecidableEq, Repr

/-- An item of a spill ring: a record or a note (17 R357). -/
inductive Spilled where
  | record (e : DEntry)
  | note (round : Nat) (final : Bool)
  deriving DecidableEq, Repr

/-- Progress of a release in bands (17 R361): the depth and bits of the band, and whether a pass over the ring is due. -/
structure Release where
  round : Nat
  final : Bool
  t : Nat := 0
  b : Nat := 0
  passDue : Bool := true
  /-- the token of the round waits to be taken -/
  tokenDue : Bool := false
  /-- lines of the ring that the pass due has read -/
  touched : Nat := 0
  deriving DecidableEq, Repr

structure DQueue where
  producers : Nat
  base : Nat := 0
  /-- notes counted, and final marks, by round (17 R358) -/
  notes : Tab Nat := []
  finals : List Nat := []
  window : List DEntry := []
  ring : List Spilled := []
  ringSize : Nat := 524288
  /-- items written to the spill ring so far: the next has the place of this number modulo the ring's size (17 R356) -/
  tail : Nat := 0
  rel : Option Release := none
  waiters : List Op := []
  rrel : Nat := 0
  noneYet : Bool := true
  finalDone : Bool := false
  /-- the earliest final round whose release has begun (17 R358) -/
  finalBegun : Option Nat := none
  /-- a valid task type names it (17 R363) -/
  staged : Bool := true
  deriving DecidableEq, Repr

/-- An arrival of a hierarchical barrier at its tile (07 R165, R166). -/
structure HArrival where
  core : Nat
  slot : Nat
  tid : BitVec 32
  value : Dword
  gone : Bool := false
  deriving DecidableEq, Repr

/-- The open episode of a tile (07 R165). -/
structure Episode where
  level : Nat
  cmb : Bool
  op : Nat
  count : Nat
  arrivals : List HArrival := []
  sent : Bool := false
  deriving DecidableEq, Repr

/-- A tree node's state of one episode, per address space (18 R384): what it has from each port, and the ports
it expects. Ports 0 to 3 are N, E, S, W, port 4 + m another module's tree, port 32 the local tile. -/
structure Node where
  tag : Nat
  level : Nat
  op : Nat
  cmb : Bool
  bad : Bool := false
  expect : List Nat := []
  got : List (Nat × Nat × Dword) := []
  sent : Bool := false
  deriving DecidableEq, Repr

/-- A vault-cache line (14 R302, R304): valid and dirty sectors, the prefetch mark, and its age for replacement. -/
structure VLine where
  line : Nat
  valid : BitVec 4
  dirty : BitVec 4
  mark : Bool := false
  way : Nat := 0
  deriving DecidableEq, Repr

/-- An answer that leaves when the fills that it waits for have returned (14 R303). -/
structure Gated where
  p : Packet
  /-- the address it is for, and the words that it reads of the line it waits for now -/
  va : Dword
  words : BitVec 8
  /-- the further lines that it waits for -/
  more : List Gate := []
  /-- a word that it reads has come poisoned -/
  bad : Bool := false
  deriving DecidableEq, Repr

/-- A miss-table entry (14 R303). -/
structure Miss where
  line : Nat
  waitWb : Bool
  joiners : Nat := 0
  prefetch : Bool := false
  late : Bool := false
  spent : Bool := false
  /-- sectors the fill brings, and sectors written since -/
  sectors : BitVec 4 := 15
  dirty : BitVec 4 := 0
  /-- words written whole since -/
  written : BitVec 8 := 0
  /-- the line still sits in a write-back entry, from which it fills -/
  fromWb : Bool := false
  way : Nat := 0
  /-- sectors that a link error beyond its retries has cost (14 R305) -/
  lost : BitVec 4 := 0
  /-- answers that leave when the fill has returned -/
  out : List Gated := []
  /-- writes of parts of a word that joined it, with the words they write: a poisoned fill discards and reports them (14 R299) -/
  narrow : List (Op × BitVec 8) := []
  deriving DecidableEq, Repr

/-- A prefetch stream (14 R304). -/
structure Stream where
  last : Nat
  stride : Int
  count : Nat
  used : Nat
  deriving DecidableEq, Repr

structure VaultCache where
  lines : List VLine := []
  misses : List Miss := []
  writeback : List Nat := []
  streams : List Stream := []
  /-- replacement trees by set -/
  trees : Tab Nat := []
  deriving DecidableEq, Repr

/-- A black-box entry (19 R412). -/
structure BbEntry where
  time : Nat
  tid : BitVec 32
  kind : Nat
  detail : Nat
  core : Nat
  slot : Nat
  deriving DecidableEq, Repr

/-- Whether a tile's partition runs, or a gang stop or a debug halt has stopped it (16 R349, 19 R409). -/
inductive Gang where
  | running | stopped | halted
  /-- its state is back, and its fall-out is still being re-injected: the routers and memory serve packets, and cores and engines wait (16
  R352) -/
  | resuming
  deriving DecidableEq, Repr

/-- The tile memory pipeline (14 R296): the requester that ranks first, the cycle it is at, and the requesters served in that cycle in
order. Requesters 0 to 3 are the cores, 4 NET, 5 ENG, 6 BK and 7 HUT. -/
structure Pipe where
  ptr : Nat := 0
  cycle : Nat := 0
  served : List Nat := []
  /-- the Bookend that BK served last -/
  bk : Nat := 2
  deriving DecidableEq, Repr

/-- A request that a full miss table holds at the pipeline (14 R303): of a packet, by its number, or of a line by the Hutch or the Dresser. -/
inductive Staller where
  | packet (born : Nat)
  | line (addr : Nat) (write : Bool)
  deriving DecidableEq, Repr

/-- A soft error of a line of tile memory (14 R298): what the four columns decode to, a fifth entry for the group of tags (R301), and the
data that a read then takes where they are not those stored: as read, or corrected wrongly. -/
structure SoftError where
  seen : LineRead
  left : Option Line := none
  deriving DecidableEq, Repr

structure Tile where
  -- system registers (01 R36 to R40)
  name : BitVec 20 := 0xFFFF8
  slotsReg : Dword := 0
  vweight : BitVec 16 := 0x8888
  tasktab : Dword := 0
  scratchReg : Dword := 0
  hbarcnt : BitVec 16 := 0
  segValid : Bool := false
  asid : BitVec 8 := 0
  ptroot : Dword := 0
  faultq : Dword := 0
  gangstop : Dword := 0xFFFFFFFFFFFFFFFF
  -- segment file (01 R28 to R31)
  quota : BitVec 32 := 0
  vector : CodeAddr := 0
  segs : Tab Segment := []
  -- counters 0x200 to 0x2FF by number (06 R144, 14 R306, ...)
  ct : Tab Dword := []
  -- live map of sequence numbers (01 R42)
  live : List Nat := []
  /-- turns the cores have taken since placement, for CT_IDLE (15 R330) -/
  turns : Nat := 0
  lastSeq : Nat := 4095
  /-- timebase of residency's start and cycles resident before it (07 R168) -/
  residentAt : Nat := 0
  residentCount : Nat := 0
  cores : Tab Core := []
  norm : List NormReq := []
  hutch : List Held := []
  /-- since when the Hutch refuses a packet (15 R330, 19 R412) -/
  refusing : Option Nat := none
  /-- the place of the task message that stays head of its class because no range fitted it, and since when it waits for one (15 R322,
  R330) -/
  taskHead : Option Nat := none
  taskSince : Option Nat := none
  /-- parked area: place and context (15 R327) -/
  parkedArea : List (Nat × Thread) := []
  allots : List (Nat × Nat × BitVec 32) := []
  waiters : List Waiter := []
  accs : Tab Acc := []
  trestle : Trestle := {}
  windows : List Window := []
  copies : List CopyCmd := []
  bookends : Tab Bookend := []
  /-- threads waiting in SCWAIT, by Bookend, oldest first (12 R270) -/
  scWaiters : List (Nat × Op) := []
  queues : Tab PlainQueue := []
  dqueues : Tab DQueue := []
  /-- resend buffer: refused queue operations, each with the resident cycles at which it is due to be sent again (11 R234) -/
  resend : List (Nat × Op) := []
  hbar : Option Episode := none
  /-- arrivals beyond the count, waiting for the next episode, with what they ask (07 R165) -/
  hbarExtra : List (HArrival × Nat × Bool × Nat) := []
  nodes : Tab Node := []
  -- translation (16 R334 to R341)
  roots : Tab Dword := []
  tlb : List TlbEntry := []
  tlbTree : Tab Nat := []
  walks : List Walk := []
  faultBuf : List FbEntry := []
  faultRecs : List FaultRec := []
  -- tile memory pipeline (14 R296), vault cache (14 R302) and soft-error state (14 R300)
  pipe : Pipe := {}
  vc : VaultCache := {}
  failedBank : Nat := 0
  corrections : Tab Nat := []
  /-- the next line of the scrubber's pass (14 R300) -/
  scrubPos : Nat := 0
  /-- lines of tile memory with a soft error that no read has met -/
  errs : Tab SoftError := []
  /-- by requester from 4 to 7, the request that a full miss table holds at the pipeline, and since when (14 R303) -/
  stalls : Tab (Staller × Nat) := []
  -- arbiter of the Sideboard (15 R329)
  arbP : Nat := 0
  /-- the first cycle that it has still to arbitrate -/
  arbAt : Nat := 0
  groupBusy : Tab Nat := []
  -- routers of the tile (18 R377, R396)
  classes : Tab Dword := []
  treedepth : Dword := 0
  /-- since when a full fault buffer stalls an input channel (16 R354) -/
  fbFull : Option Nat := none
  /-- class switches whose time has come to the routers: the new POST entry, the value at which it is taken, and the writer -/
  classSwitch : List (Dword × Nat × BitVec 32) := []
  /-- writers of the class switches for which the routers have stopped injecting POST packets -/
  postStopped : List (BitVec 32) := []
  ejectClosed : Bool := false
  /-- idle since, for donation, and the neighbour asked (15 R323) -/
  idleSince : Nat := 0
  askTurn : Nat := 0
  asking : Bool := false
  -- gang switch (16 R348 to R352)
  gang : Gang := .running
  fallout : List Packet := []
  /-- messages spilled for other address spaces (16 R351) -/
  nrspill : List Packet := []
  -- black-box ring (19 R412)
  bbox : Tab BbEntry := []
  bbHead : Nat := 0
  bbWrapped : Bool := false
  retired : Bool := false
  deriving DecidableEq, Repr

/-! ## The Bureau and the host -/

/-- Where a launch stands (15 R312 to R317, 16 R348). -/
inductive LState where
  | submitted | waiting | resident | stopping | saved
  deriving DecidableEq, Repr

structure Launch where
  /-- the 32 words of the launch record (15 R308) -/
  words : List Dword
  port : Nat
  at_ : Nat
  st : LState
  eligibleAt : Option Nat := none
  threads : Nat := 0
  tiles : List Nat := []
  resumeAt : Option Nat := none
  aborting : Bool := false
  deriving DecidableEq, Repr

/-- One host port's own registers (19 R400). -/
structure Port where
  lqbase : Dword := 0
  lqsize : Dword := 0
  lqtail : Dword := 0
  lqhead : Dword := 0
  irq : Dword := 0
  irqen : Dword := 0
  up : Bool := true
  /-- register values returned to the host, newest first: offset and value (19 R401) -/
  returned : List (Nat × Dword) := []
  /-- pieces of aperture reads returned, newest first: device address, bytes, and the EP bit (19 R402) -/
  reads : List (Nat × List Byte × Bool) := []
  /-- MSI-X vectors signalled, newest first (19 R406) -/
  vectors : List Nat := []
  /-- BAR4: the MSI-X table of 8 vectors, each an address, data and mask, and the pending bits of those masked (19 R398) -/
  msix : Tab (Dword × Word × Bool) := []
  msixPending : BitVec 8 := 0
  deriving DecidableEq, Repr

/-- An exception entry of a field (18 R391). -/
structure ExcEntry where
  v : Bool := true
  lx : Nat
  ly : Nat
  col : Nat
  site : Nat
  deriving DecidableEq, Repr

/-- An answer of the SPDM responder (20 R422). -/
inductive SpdmReply where
  | version (major minor : Nat)
  | capabilities (sessions : Bool)
  | algorithms (curveBits hashBits : Nat)
  | digests (slot0 : BitVec 384)
  | certificate (slot0 : List Byte)
  | challengeAuth (signature : BitVec 768)
  | measurement (index : Nat) (digest : BitVec 384)
  | rollback (count : Nat)
  | unsupported
  deriving DecidableEq, Repr

/-- The arbiter of an output channel (18 R387): PTR, CREDIT by class, the input that its round robin favours next, and the first cycle
whose choice is still to be made: the channel is taken before it. -/
structure Arbiter where
  ptr : Nat := 0
  credit : Tab Int := []
  turn : Nat := 0
  next : Nat := 0
  deriving DecidableEq, Repr

structure Module where
  booted : Bool := false
  /-- the model's time at the module's reset, from which its own timebase counts until it joins the pod's (01 R36, 20 R414) -/
  resetAt : Nat := 0
  recovery : Bool := false
  strap : Bool := false
  frozen : Bool := false
  poweredOff : Bool := false
  -- BAR0 (19 R400)
  status : Dword := 0
  sems : Tab (Bool × Nat) := []
  aps : Tab Dword := []
  ports : Tab Port := []
  brkhalt : Bool := false
  dbgtime : Dword := 0
  dbgstep : Dword := 0
  halted : Bool := false
  /-- the halt is complete: every unit has parked, and vector 2 has said so (19 R409) -/
  haltDone : Bool := false
  stepping : Bool := false
  reason : Nat := 0
  ctxsel : Dword := 0
  bbsel : Dword := 0
  /-- the halt time H that is set, and its reason; the resume value that is set (19 R409) -/
  haltAt : Option (Nat × Nat) := none
  resumeAt : Option Nat := none
  stepTid : Option (BitVec 32) := none
  /-- the stepped thread has issued its instruction (19 R411) -/
  stepIssued : Bool := false
  -- recovery map and staging buffer (20 R416)
  rcmd : Dword := 0
  rstat : Dword := 0
  staging : Tab Byte := []
  -- flash, fuses and the retirement log (20 R415, R417)
  image : List Byte := []
  rollback : Nat := 0
  firmwareVector : CodeAddr := 0
  fuses : List Dword := []
  log : List Dword := []
  -- fabric tables (18 R382, R391, R393)
  bootDead : List Nat := []
  /-- units that have failed and that the boot test will find: site column and row, unit, index (20 R414) -/
  faulty : List (Nat × Nat × Nat × Nat) := []
  /-- sites retired since the last boot (18 R382, R392) -/
  gone : List Nat := []
  exc : Tab (List ExcEntry) := []
  absent : List Nat := []
  deadLinks : List (Nat × Nat) := []
  deadRouters : List Nat := []
  nameSwitch : Option (Nat × Tab (List ExcEntry)) := none
  /-- the switch time at which firmware's tables take in the links and routers that have failed (20 R421) -/
  repairAt : Option Nat := none
  /-- the dead links and routers that the trees and the drain circuit in force know of -/
  knownLinks : List (Nat × Nat) := []
  knownRouters : List Nat := []
  /-- parents in the trees, maps of the drain circuit, and RT_TREEDEPTH, that a SYSW at machine privilege has written since the last repair: by
  name and tag, by router, and by name (18 R396) -/
  treeSet : Tab (Option Nat) := []
  drainSet : Tab Dword := []
  depthSet : Tab Dword := []
  /-- the timebase of the last name switch made (18 R392) -/
  switchedAt : Nat := 0
  podLinksUp : Bool := true
  /-- detour entries, 5 r + d for port d of router r (18 R383), and the routers that count as dead for want of them -/
  detours : Tab Nat := []
  countedDead : List Nat := []
  /-- RT_FWD of the routers of a site whose name has moved: site and name (06 R140, 18 R392) -/
  forward : List (Nat × Nat) := []
  /-- timebase of the last age tick and of the last drain (18 R388, R389) -/
  agedAt : Nat := 0
  drainedAt : Nat := 0
  /-- by router, direction and channel: 20 r + 4 d + c (18 R387) -/
  arbiters : Tab Arbiter := []
  -- launches (15 R312 to R317)
  launches : List Launch := []
  done : List (Nat × Nat) := []
  /-- the head gang and since when it is the head, and whether its fence applies (15 R314, R315) -/
  head : Option (Nat × Nat) := none
  fenced : Bool := false
  /-- retirements not yet applied: tile, unit, index, source (20 R417, R419) -/
  retiring : List (Nat × Nat × Nat × Nat) := []
  /-- MACHINE_CHECK and other reports the Bureau has received, newest first -/
  reports : List (Nat × Nat) := []
  /-- fault records that tiles have sent to the Bureau, newest first: malformed tables, and those forwarded to the host (16 R336, R341) -/
  records : List (Nat × FaultRec) := []
  -- power (20 R424)
  placeHeld : Bool := false
  spdm : List SpdmReply := []
  deriving DecidableEq, Repr

/-- One tile of a saved partition (16 R350). -/
structure SavedTile where
  asid : Nat
  name : Nat
  /-- the site that its tile had at the stop, whose router re-injects its fall-out (21 R426) -/
  site : Option (Nat × Nat) := none
  tile : Tile
  mem : List Host.Cell
  empties : List Nat
  poison : List Nat
  deriving DecidableEq, Repr

/-- The tiles that take part in an open episode of a tree, fixed as it opens (07 R165, 18 R384): the tag, the root and the address
space. -/
structure Members where
  tag : Nat
  root : Nat
  asid : Nat
  /-- each tile with the count of its threads that take part -/
  tiles : List (Nat × Nat)
  /-- its arrivals have met those of another level: it ends without a value, and the tiles still to be told are left (07 R166) -/
  bad : Bool := false
  deriving DecidableEq, Repr

/-! ## The whole machine -/

/-- Who moves in a step. -/
inductive Agent where
  /-- the thread in a slot takes its turn (15 R324) -/
  | turn (t c k : Nat)
  /-- a Bookend executes one instruction (12 R262) -/
  | bookend (t b : Nat)
  /-- an event of the opcode table -/
  | event (i : Instr)
  /-- a soft error upsets a register of a slot, whose parity is then bad (16 R332) -/
  | upset (t c k : Nat) (d : Dest)
  /-- a flit that a router sends arrives in error, and its retry succeeds (18 R390, R397) -/
  | linkRetry (md r : Nat)
  /-- a parity error is found in a core's vector queue or rotation state (16 R332) -/
  | coreError (t c : Nat)
  /-- the host writes an entry of a port's MSI-X table (19 R398) -/
  | msixWrite (md port n : Nat) (addr : Dword) (data : Word) (mask : Bool)
  /-- the host answers a forwarded fault record through the Bureau, as a WAKE would (16 R343) -/
  | answer (t : Nat) (tid : BitVec 32) (refuse : Bool)
  /-- a unit of a site fails, which the test of the next boot finds: column, row, unit and index (20 R414, R417) -/
  | unitFault (md col row unit idx : Nat)
  /-- a soft error upsets a line of tile memory (14 R298, R301) -/
  | softError (t line : Nat) (e : SoftError)
  /-- detected link errors of one transfer of an outstanding fill: of a sector it brings, and how many in a row (14 R305) -/
  | transferError (t n sector errs : Nat)
  deriving DecidableEq, Repr

structure State where
  tiles : Tab Tile := []
  /-- memory by device address (15 R307), in the canonical form of Ops -/
  mem : List Host.Cell := []
  /-- device addresses of the words of tile memory that are empty (14 R301) -/
  empties : List Nat := []
  /-- device addresses of poisoned words (14 R299, R305) -/
  poison : List Nat := []
  net : List Packet := []
  /-- the timebase, in cycles (01 R36) -/
  time : Nat := 0
  mods : Tab Module := []
  /-- modules of the pod, 0 upward (19 R400) -/
  podSize : Nat := 1
  saved : List SavedTile := []
  /-- open episodes of the trees (07 R165) -/
  episodes : List Members := []
  /-- stores that have left through host windows, newest first: port, bus address, bytes (19 R407) -/
  hostOut : List (Nat × Dword × List Byte) := []
  /-- host-window operations awaiting completion (19 R407) -/
  hostWait : List Op := []
  /-- the slot whose instruction is executed, and the Bookend -/
  cur : Nat × Nat × Nat := (0, 0, 0)
  curBk : Nat × Nat := (0, 0)
  /-- the model's own: who moves next, each after a number of cycles; when it is empty, the machine's own order (log 1) -/
  agenda : List (Nat × Agent) := []
  /-- the model's own: counts the uses of free values (log 3) -/
  fresh : Nat := 0
  /-- the model's own: packets sent so far -/
  sent : Nat := 0
  deriving DecidableEq, Repr

/-- The machine right after reset: every register at its Reset value, no thread, memory zero, the boot chain still to run
(20 R414). -/
def State.reset : State := {}

end Sys2Proof.Machine
end

