-- ==== Sys2Proof/Machine/Ops.lean ====
section
/-! DEFINITION. The named operations every meaning is written over: memory and its tags, tiles, cores and threads, registers,
counters, packets, holds, taking a trap and returning from one, and the checks an instruction passes before it acts. -/
namespace Sys2Proof.Machine

abbrev Out := Host.Outcome State Fault Refusal

/-! ## Bytes and words -/

/-- The number little-endian bytes give (00 R5). -/
def ofBytes : List Byte → Nat
  | [] => 0
  | b :: bs => b.toNat + 256 * ofBytes bs

/-- Sign extension of the low n bits to 64. -/
def sextTo64 (n : Nat) (x : Nat) : Dword := (BitVec.ofNat n x).signExtend 64

/-- Bits lo to lo + n - 1 of a doubleword, as a number. -/
def field (x : Dword) (lo n : Nat) : Nat := x.toNat / 2 ^ lo % 2 ^ n

/-- A doubleword with bits lo to lo + n - 1 replaced. -/
def putField (x : Dword) (lo n v : Nat) : Dword :=
  (x &&& ~~~ BitVec.ofNat 64 ((2 ^ n - 1) * 2 ^ lo)) ||| BitVec.ofNat 64 (v % 2 ^ n * 2 ^ lo)

/-! ## Memory: a list of cells, addresses rising, no cell of value 0 -/

namespace Mem

/-- The byte at an address; one that is not listed reads 0 (20 R414; the vault: log 2). -/
def read : List Host.Cell → Nat → Byte
  | [], _ => 0
  | (b, v) :: m, a => if b = a then v else read m a

/-- A cell put in its place. -/
def insert (a : Nat) (v : Byte) : List Host.Cell → List Host.Cell
  | [] => [(a, v)]
  | (b, w) :: m => if a ≤ b then (a, v) :: (b, w) :: m else (b, w) :: insert a v m

/-- The cells of other addresses. -/
def without (a : Nat) : List Host.Cell → List Host.Cell
  | [] => []
  | (b, w) :: m => if b = a then without a m else (b, w) :: without a m

/-- Writing one byte. -/
def write (m : List Host.Cell) (a : Nat) (v : Byte) : List Host.Cell :=
  if v = 0 then without a m else insert a v (without a m)

/-- Writing bytes from an address upward. -/
def writeAll (m : List Host.Cell) (a : Nat) : List Byte → List Host.Cell
  | [] => m
  | b :: bs => writeAll (write m a b) (a + 1) bs

/-- n bytes from an address upward. -/
def readAll (m : List Host.Cell) (a : Nat) : Nat → List Byte
  | 0 => []
  | n + 1 => read m a :: readAll m (a + 1) n

/-- The canonical form: addresses rise, and no listed byte is 0. -/
def rising : List Host.Cell → Bool
  | [] => true
  | [(_, v)] => v != 0
  | (a, v) :: (b, w) :: m => v != 0 && decide (a < b) && rising ((b, w) :: m)

end Mem

/-- The canonical form of memory, as a Bool. -/
def Memory.wf (m : List Host.Cell) : Bool := Mem.rising m

/-- A number put into a rising list once. -/
def addTo (a : Nat) : List Nat → List Nat
  | [] => [a]
  | b :: l => if a = b then b :: l else if a < b then a :: b :: l else b :: addTo a l

def dropFrom (a : Nat) (l : List Nat) : List Nat := l.filter (· != a)

/-! ## Device addresses (15 R307) -/

def devAddr (t med off : Nat) : Nat := t * 2 ^ 33 + med * 2 ^ 32 + off
def sramAt (t off : Nat) : Nat := devAddr t 0 off
def vaultAt (t off : Nat) : Nat := devAddr t 1 off
def devTile (a : Nat) : Nat := a / 2 ^ 33 % 2 ^ 20
def devVault (a : Nat) : Bool := a / 2 ^ 32 % 2 == 1
def devOff (a : Nat) : Nat := a % 2 ^ 31
/-- The address of the 8-byte word an address lies in. -/
def wordOf (a : Nat) : Nat := a - a % 8
/-- The words that n bytes from an address lie in. -/
def wordsOf (a n : Nat) : List Nat := (List.range ((a % 8 + n + 7) / 8)).map (fun i => wordOf a + 8 * i)

namespace State

def byte (s : State) (a : Nat) : Byte := Mem.read s.mem a
def bytes (s : State) (a n : Nat) : List Byte := Mem.readAll s.mem a n
def store (s : State) (a : Nat) (bs : List Byte) : State := { s with mem := Mem.writeAll s.mem a bs }
/-- n bytes at an address as a number. -/
def num (s : State) (a n : Nat) : Nat := ofBytes (s.bytes a n)
def dword (s : State) (a : Nat) : Dword := BitVec.ofNat 64 (s.num a 8)
def setDword (s : State) (a : Nat) (v : Dword) : State := s.store a (leBytes 8 v.toNat)

/-- Full-empty and poison tags of a word (14 R301): a vault word has no full-empty bit and reads full. -/
def isEmpty (s : State) (a : Nat) : Bool := s.empties.contains (wordOf a)
def setEmpty (s : State) (a : Nat) (e : Bool) : State :=
  { s with empties := if e then addTo (wordOf a) s.empties else dropFrom (wordOf a) s.empties }
def isPoisoned (s : State) (a n : Nat) : Bool := (wordsOf a n).any s.poison.contains
def setPoison (s : State) (a : Nat) (p : Bool) : State :=
  { s with poison := if p then addTo (wordOf a) s.poison else dropFrom (wordOf a) s.poison }

end State

/-! ## Tiles, cores, threads -/

/-- TL_SLOTS of a tile with nothing out of service (01 R39). -/
def fullSlots : Dword := 0x0000000001F84210

/-- Class-table entries at placement (18 R379). -/
def classReset (n : Nat) : Dword :=
  if n = 4 then 0x4090F else if n = 5 then 0x8090F else if n = 6 then 0xF380F
  else if n = 7 then 0xF000F else 0x8080F

/-- A tile that the state does not list: before boot the reset values, after it the name and units that firmware writes
(01 R36, R38, R39, 20 R414). -/
def freshTile (booted : Bool) (t : Nat) : Tile :=
  if booted && Config.isTile t then { name := BitVec.ofNat 20 t, slotsReg := fullSlots, treedepth := 0x4C4C08 } else {}

namespace Tile

def core (tl : Tile) (c : Nat) : Core := tl.cores.get {} c
def setCore (tl : Tile) (c : Nat) (k : Core) : Tile := { tl with cores := tl.cores.set c k }
def thread (tl : Tile) (c k : Nat) : Thread := (tl.core c).slots.get {} k
def setThread (tl : Tile) (c k : Nat) (th : Thread) : Tile :=
  tl.setCore c { tl.core c with slots := (tl.core c).slots.set k th }
def count (tl : Tile) (n : Nat) (by_ : Nat := 1) : Tile := { tl with ct := tl.ct.set n (tl.ct.get 0 n + BitVec.ofNat 64 by_) }
def classEntry (tl : Tile) (n : Nat) : Dword := tl.classes.get (classReset n) n
def seg (tl : Tile) (n : Nat) : Segment := tl.segs.get {} n
/-- Slots that core c advertises, and whether a slot's bank is in service (01 R39). -/
def coreSlots (tl : Tile) (c : Nat) : Nat := field tl.slotsReg (5 * c) 5
def slotInService (tl : Tile) (c k : Nat) : Bool := tl.coreSlots c != 0 && field tl.slotsReg (25 + 4 * c + k / 4) 1 == 0
def hasTrestle (tl : Tile) : Bool := field tl.slotsReg 20 1 == 1
def laneGroups (tl : Tile) : List Nat := (List.range 4).filter (fun i => field tl.slotsReg (21 + i) 1 == 1)
/-- Every slot that holds a thread: core, slot and thread. -/
def threads (tl : Tile) : List (Nat × Nat × Thread) :=
  tl.cores.flatMap (fun e => (e.2.slots.filter (fun f => f.2.st != .free)).map (fun f => (e.1, f.1, f.2)))
/-- Every occupied slot changed by a function. -/
def mapThreads (tl : Tile) (f : Nat → Nat → Thread → Thread) : Tile :=
  { tl with cores := tl.cores.map (fun e =>
      (e.1, { e.2 with slots := e.2.slots.map (fun g => (g.1, if g.2.st == .free then g.2 else f e.1 g.1 g.2)) })) }
/-- The slot that holds a thread (01 R41, R44). -/
def find (tl : Tile) (tid : BitVec 32) : Option (Nat × Nat × Thread) := tl.threads.find? (fun e => e.2.2.tid == tid)
def resident (tl : Tile) (asid : Nat) : Bool := tl.segValid && tl.asid.toNat == asid
/-- Scratch pool: its size and local offset (01 R36). -/
def poolSize (tl : Tile) : Nat := field tl.scratchReg 32 32
def poolBase (tl : Tile) : Nat := field tl.scratchReg 0 32

end Tile

namespace State

def module (s : State) (md : Nat) : Module := s.mods.get {} md
/-- TL_TIMEBASE and MG_TIMEBASE of a module: the pod's, once it has joined it, and else the cycles since its reset (01 R36, 20 R414). -/
def timebase (s : State) (md : Nat) : Nat := if (s.module md).booted then s.time else s.time - (s.module md).resetAt
def setModule (s : State) (md : Nat) (m : Module) : State := { s with mods := s.mods.set md m }
def tile (s : State) (t : Nat) : Tile := s.tiles.get (freshTile (s.module (Config.nameM t)).booted t) t
def setTile (s : State) (t : Nat) (tl : Tile) : State := { s with tiles := s.tiles.set t tl }
def mapTile (s : State) (t : Nat) (f : Tile → Tile) : State := s.setTile t (f (s.tile t))
def thread (s : State) (t c k : Nat) : Thread := (s.tile t).thread c k
def setThread (s : State) (t c k : Nat) (th : Thread) : State := s.mapTile t (fun tl => tl.setThread c k th)
def count (s : State) (t n : Nat) (by_ : Nat := 1) : State := s.mapTile t (fun tl => tl.count n by_)
/-- The tile, core, slot and thread whose instruction is executed. -/
def here (s : State) : Nat := s.cur.1
def me (s : State) : Thread := s.thread s.cur.1 s.cur.2.1 s.cur.2.2
def myTile (s : State) : Tile := s.tile s.cur.1
def myCore (s : State) : Core := s.myTile.core s.cur.2.1
def setMe (s : State) (th : Thread) : State := s.setThread s.cur.1 s.cur.2.1 s.cur.2.2 th

end State

/-! ## Registers -/

namespace Thread

/-- g0 reads zero (01 R20). -/
def rg (th : Thread) (r : BitVec 5) : Dword := if r = 0 then 0 else th.g.get 0 r.toNat
def rp (th : Thread) (q : BitVec 4) : Bool := th.p.getLsbD q.toNat
/-- k0 is the mask of every lane (01 R16). -/
def rk (th : Thread) (k : Nat) : BitVec 16 :=
  if k = 1 then th.k1 else if k = 2 then th.k2 else if k = 3 then th.k3 else 0xFFFF
/-- A vector register that is not live reads zero (01 R23). -/
def rv (th : Thread) (v : Nat) : Line := if th.vlive.getLsbD v then th.v.get 0 v else 0

def setG (th : Thread) (r : Nat) (x : Dword) : Thread :=
  if r = 0 then th else { th with g := th.g.set r x, parity := th.parity.filter (· != .g r) }
/-- Writes to p0 are discarded (01 R16). -/
def setP (th : Thread) (q : Nat) (b : Bool) : Thread :=
  if q = 0 then th
  else { th with
    p := (th.p &&& ~~~ BitVec.ofNat 16 (2 ^ q)) ||| (if b then BitVec.ofNat 16 (2 ^ q) else 0)
    parity := th.parity.filter (· != .p q) }
def setK (th : Thread) (k : Nat) (x : BitVec 16) : Thread :=
  let th := { th with parity := th.parity.filter (· != .k k) }
  if k = 1 then { th with k1 := x } else if k = 2 then { th with k2 := x } else if k = 3 then { th with k3 := x } else th
def setV (th : Thread) (v : Nat) (x : Line) : Thread :=
  { th with v := th.v.set v x, vlive := th.vlive ||| BitVec.ofNat 8 (2 ^ v), parity := th.parity.filter (· != .v v) }
def freeV (th : Thread) (v : Nat) : Thread :=
  { th with v := th.v.erase v, vlive := th.vlive &&& ~~~ BitVec.ofNat 8 (2 ^ v) }

/-- One register write of a result. -/
def write (th : Thread) : RegWrite → Thread
  | .to (.g r) x => th.setG r (x.truncate 64)
  | .to (.p q) x => th.setP q (x.getLsbD 0)
  | .to (.k n) x => th.setK n (x.truncate 16)
  | .to (.v n) x => th.setV n x
  | .free n => th.freeV n

def writes (th : Thread) (ws : List RegWrite) : Thread := ws.foldl write th

end Thread

/-- A destination that holds nothing: g0 or p0 (02 R65). -/
def Dest.void : Dest → Bool
  | .g n => n == 0
  | .p q => q == 0
  | .k n => n == 0
  | .v _ => false

/-- File and number as HAZARD and MACHINE_CHECK report them (02 R68). -/
def Dest.code : Dest → Nat
  | .g n => n % 32
  | .p q => 32 + q % 32
  | .k n => 64 + n % 32
  | .v n => 96 + n % 32

def gd (r : BitVec 5) : Dest := .g r.toNat
def pd (p : BitVec 4) : Dest := .p p.toNat
def vd (v : BitVec 3) : Dest := .v v.toNat
def kd (k : BitVec 2) : Dest := .k k.toNat
def toG (r : BitVec 5) (x : Dword) : RegWrite := .to (gd r) (x.zeroExtend 512)
def toP (p : BitVec 4) (b : Bool) : RegWrite := .to (pd p) (if b then 1 else 0)
def toK (k : BitVec 3) (x : BitVec 16) : RegWrite := .to (.k k.toNat) (x.zeroExtend 512)
def toV (v : BitVec 3) (x : Line) : RegWrite := .to (vd v) x

/-! ## Causes (16 R331) -/

namespace Cause

def illegal : BitVec 8 := 0x01
def privilege : BitVec 8 := 0x02
def segInvalid : BitVec 8 := 0x03
def segBounds : BitVec 8 := 0x04
def segRights : BitVec 8 := 0x05
def misaligned : BitVec 8 := 0x06
def feTimeout : BitVec 8 := 0x07
def linkOverflow : BitVec 8 := 0x08
def linkUnderflow : BitVec 8 := 0x09
def barrierOverrun : BitVec 8 := 0x0A
def barrierTimeout : BitVec 8 := 0x0B
def hazard : BitVec 8 := 0x0C
def spawnResource : BitVec 8 := 0x0D
def lease : BitVec 8 := 0x0E
def accSlot : BitVec 8 := 0x0F
def dqOverflow : BitVec 8 := 0x10
def queue : BitVec 8 := 0x11
def poison : BitVec 8 := 0x12
def machineCheck : BitVec 8 := 0x13
def break_ : BitVec 8 := 0x14
def syscall : BitVec 8 := 0x15
def trap : BitVec 8 := 0x16
def pageDenied : BitVec 8 := 0x17
def hostWindow : BitVec 8 := 0x18
def isolated : BitVec 8 := 0x19
def returnEmpty : BitVec 8 := 0x1A

end Cause

/-! ## The black-box ring (19 R412) -/

/-- The entries of the same cycle and a greater KIND that an entry goes before: how many of the latest. -/
def Tile.bbAfter (tl : Tile) (e : BbEntry) : Nat :=
  ((List.range (if tl.bbWrapped then 255 else tl.bbHead)).takeWhile (fun i =>
    tl.bbox.any (fun x => x.1 == (tl.bbHead + 255 - i) % 256 && x.2.time == e.time && decide (e.kind < x.2.kind)))).length

/-- An entry joins the ring, where events of one cycle stand in the order of KIND. -/
def Tile.bb (tl : Tile) (e : BbEntry) : Tile :=
  let n := tl.bbAfter e
  let up := fun (b : Tab BbEntry) (i : Nat) =>
    match b.find? (fun x => x.1 == (tl.bbHead + 255 - i) % 256) with
    | some x => b.set ((tl.bbHead + 256 - i) % 256) x.2
    | none => b
  { tl with
    bbox := ((List.range n).foldl up tl.bbox).set ((tl.bbHead + 256 - n) % 256) e
    bbHead := (tl.bbHead + 1) % 256, bbWrapped := tl.bbWrapped || tl.bbHead == 255 }

/-- An event of tile t: its kind and detail, and the thread and slot concerned. -/
def State.bb (s : State) (t kind detail : Nat) (tid : BitVec 32 := 0xFFFFFFFF) (c : Nat := 0) (k : Nat := 0) : State :=
  s.mapTile t (fun tl => tl.bb { time := s.time, tid := tid, kind := kind, detail := detail, core := c, slot := k })

/-! ## Taking a trap and returning (12 R273, R275) -/

/-- LINK_OVERFLOW removes the oldest return address as it enters: the removed entry is the value (05 R122). -/
def Thread.dropOldest (th : Thread) : Thread :=
  { th with
    links := [(0, th.links.get 0 1), (1, th.links.get 0 2)]
    ldepth := 2 }

/-- Trap entry: PC, cause, previous privilege and value are saved, privilege becomes supervisor and PC the vector; a
machine-privilege thread goes to the firmware's vector (12 R273). -/
def Thread.enter (th : Thread) (vector firmware : CodeAddr) (cause : BitVec 8) (value : Dword) (epc : CodeAddr) : Thread :=
  let value := if cause = Cause.linkOverflow then (th.links.get 0 0).zeroExtend 64 else value
  let th := if cause = Cause.linkOverflow then th.dropOldest else th
  { th with
    st := .ready
    epc := epc
    cause := cause
    ppriv := th.priv
    ava := value
    g0slot := 0
    priv := if th.priv = 3 then 3 else 1
    pc := if th.priv = 3 then firmware else vector
    wait := none
    block := none
    imaged := 0
    issuing := false
    walking := false
    depart := none
    departAt := none
    hold := .results }

/-- Return: PPRIV gives the privilege and EPC the PC, whose bit 0 is always 0 (12 R275, 01 R14). -/
def Thread.leave (th : Thread) : Thread := { th with priv := th.ppriv, ppriv := 0, pc := th.epc &&& 0xFFFFFFFFFFFE }

/-- A trap waits to be entered. -/
def Hold.isTrap : Hold → Bool
  | .trap _ _ _ => true
  | _ => false

namespace State

def vectorOf (s : State) (t : Nat) : CodeAddr := (s.tile t).vector
def firmwareOf (s : State) (t : Nat) : CodeAddr := (s.module (Config.nameM t)).firmwareVector

/-- A trap of the thread in a slot: it waits as if marked for pending results, then enters (02 R66, 12 R273). A thread that already waits
for a trap's entry takes that one (log 69). -/
def trapAt (s : State) (t c k : Nat) (cause : BitVec 8) (value : Dword) (epc : CodeAddr) : State :=
  let th := s.thread t c k
  if th.pending.isEmpty then
    (s.setThread t c k (th.enter (s.vectorOf t) (s.firmwareOf t) cause value epc)).bb t 1 cause.toNat th.tid c k
  else if th.st == .markWait && th.hold.isTrap then s
  else
    s.setThread t c k { th with
      st := .markWait, hold := .trap cause value epc, wait := none, block := none, imaged := 0, issuing := false, walking := false
      depart := none, departAt := none }

/-- A trap of the executing thread at its own instruction. -/
def trap (s : State) (cause : BitVec 8) (value : Dword) : State :=
  s.trapAt s.cur.1 s.cur.2.1 s.cur.2.2 cause value s.me.pc

/-- The executing thread waits in MARKWAIT and presents its instruction again. -/
def hold (s : State) (h : Hold) : State := s.setMe { s.me with st := .markWait, hold := h }

/-- A turn forfeited: the thread stays READY with its PC (15 R325). -/
def forfeit (s : State) : State := s.count s.here 0x261

/-- Reports to the Bureau: a cause and the TID or name it concerns. -/
def report (s : State) (md kind what : Nat) : State :=
  let m := s.module md
  s.setModule md { m with reports := (kind, what) :: m.reports }

end State

/-! ## Holds that end -/

/-- The store buffer is drained for a thread when no entry below its mark is left (13 R283). -/
def Core.drained (co : Core) (mark : Nat) : Bool := co.sb.all (fun e => decide (mark ≤ e.pos))

/-- How many long results are pending; a group counts for each of its registers (02 R65, 11 R224). -/
def Thread.awaited (th : Thread) : Nat := (th.pending.map (fun p => p.dests.length)).sum

/-- "Loads returned" (07 R157): of loads with g0 for destination too, which no register awaits (02 R65). -/
def Thread.loadsBack (th : Thread) : Bool := (th.pending ++ th.silent).all (fun p => !p.mem)

/-- The conditions of a fence (07 R157). -/
def fenceDone (kind scope t : Nat) (co : Core) (th : Thread) : Bool :=
  let loads := th.loadsBack
  let localPosted := th.posted.all (fun p => p.owner != t)
  if kind = 1 then loads
  else if kind = 3 then (if scope = 2 then th.posted.isEmpty else localPosted)
  else if scope = 0 then loads
  else if scope = 1 then loads && co.drained th.mark && localPosted
  else loads && co.drained th.mark && th.posted.isEmpty

/-- The waits of a release or departure (07 R151, 06 R135), for the results that no register awaits too (02 R65). -/
def releaseDone (co : Core) (th : Thread) : Bool :=
  th.pending.isEmpty && th.silent.isEmpty && co.drained th.mark && th.posted.isEmpty

/-- Whether what a MARKWAIT thread waits for has come. -/
def Hold.spent (h : Hold) (t : Nat) (co : Core) (th : Thread) : Bool :=
  match h with
  | .results => th.pending.isEmpty
  | .oneResult => decide (th.awaited < 16)
  | .release => releaseDone co th
  | .posted => decide (th.posted.length < 255)
  | .acquire => (th.pending ++ th.silent).all (fun p => !p.acq) && th.posted.all (fun p => !p.acq)
  | .fence kind scope => fenceDone kind scope t co th
  | .overlap upTo => co.sb.all (fun e => decide (upTo ≤ e.pos))
  | .acks => th.acks.isEmpty && th.sent
  | .record => th.posted.all (fun p => p.owner != t)
  | .trap _ _ _ => th.pending.isEmpty

/-- A MARKWAIT thread whose wait is over becomes READY, or enters the trap that waited. A departing thread whose wait is over
presents its packet, unless it has a denial to take (06 R135, 16 R345). -/
def Thread.refresh (th : Thread) (t : Nat) (co : Core) (vector firmware : CodeAddr) (now : Nat) : Thread :=
  if th.st == .markWait && th.hold.spent t co th then
    match th.hold with
    | .trap c v e => th.enter vector firmware c v e
    | _ => { th with st := .ready, hold := .results }
  else if th.st == .departing && th.departAt.isNone && releaseDone co th then
    match th.denial with
    | some va => { th.enter vector firmware Cause.pageDenied va th.pc with denial := none }
    | none => { th with departAt := some now }
  else th

/-- The cause of the trap that a look at a thread's hold makes it enter. -/
def Thread.refreshTrap (th : Thread) (t : Nat) (co : Core) : Option (BitVec 8) :=
  if th.st == .markWait && th.hold.spent t co th then
    match th.hold with
    | .trap c _ _ => some c
    | _ => none
  else if th.st == .departing && th.departAt.isNone && releaseDone co th && th.denial.isSome then some Cause.pageDenied
  else none

/-- Looks again at the holds of every thread of a core. -/
def State.refreshCore (s : State) (t c : Nat) : State :=
  let co := (s.tile t).core c
  let traps := co.slots.filterMap (fun e => (e.2.refreshTrap t co).map (fun x => (e.1, e.2.tid, x)))
  let s := s.mapTile t (fun tl => tl.setCore c { co with
    slots := co.slots.map (fun e => (e.1, e.2.refresh t co (s.vectorOf t) (s.firmwareOf t) s.time)) })
  traps.foldl (fun s e => s.bb t 1 e.2.2.toNat e.2.1 c e.1) s

/-! ## The fabric's names (18 R382) -/

/-- Working sites of a field's column from the top, as physical rows (18 R382). -/
def columnRows (m : Module) (x fy : Nat) : List Nat :=
  ((List.range 9).map (fun i => 9 * fy + i)).filter (fun r => !m.bootDead.contains (r * 96 + x))

/-- The site (physical column and row) of a tile name in its own module; none for an absent name (18 R382). -/
def Module.site (m : Module) (n : Nat) : Option (Nat × Nat) :=
  let x := Config.nameX n
  let y := Config.nameY n
  if !Config.isTile n || m.absent.contains n then none
  else
    match (m.exc.get [] (y / 8 * 12 + x / 8)).find? (fun e => e.v && e.lx == x % 8 && e.ly == y % 8) with
    | some e => some (x / 8 * 8 + e.col, y / 8 * 9 + e.site)
    | none =>
      match (columnRows m x (y / 8))[y % 8]? with
      | some r => some (x, r)
      | none => none

def State.site (s : State) (n : Nat) : Option (Nat × Nat) :=
  if Config.nameM n < s.podSize then (s.module (Config.nameM n)).site n else none

/-- A name with no working site makes the access trap ISOLATED (06 R142, 18 R382). -/
def State.reachable (s : State) (n : Nat) : Bool := (s.site n).isSome

/-! ## Packets -/

/-- Traffic class codes (18 R376). -/
def clsMIG : Nat := 0
def clsREQ : Nat := 1
def clsRSP : Nat := 2
def clsPOST : Nat := 3
def clsBULK : Nat := 4
def clsOPND : Nat := 5
def clsCOLL : Nat := 6
def clsSYS : Nat := 7

/-- A packet that its router has not yet taken from the tile. -/
def Packet.uninjected (p : Packet) : Bool := p.port == 5 && p.hops == 0

/-- The class-table entry of a tile's routers; those of a tile in no partition use the placement values (18 R378). -/
def Tile.classOf (tl : Tile) (c : Nat) : Dword := if tl.segValid then tl.classEntry c else classReset c

/-- A packet still to be injected takes its place and its route, MODE, VCUSE and PLANE, from the source router's class table as it
stands (18 R378, R380). Where the plane may be either the choice is free (DESIGN CHOICE, log 66). -/
def State.stamp (s : State) (p : Packet) : Packet :=
  if !p.uninjected then p
  else
    let e := (s.tile p.src).classOf p.cls
    let at_ := (s.site p.src).getD (p.col, p.row)
    let h := (p.src / 8) ^^^ (p.dst / 8)
    let use := field e 10 2
    let plane := if p.mcast then 1 else if field e 8 2 = 2 then Config.planeChoice p.born % 2 else field e 8 2 % 2
    { p with
      col := at_.1, row := at_.2, plane := plane, inj := plane
      vc := if use = 0 then 0 else if use = 2 then h % 2 else 1
      mode := field e 12 2 }

/-- A packet waiting at the router of its source tile. -/
def State.packet (s : State) (cls src dst asid len : Nat) (body : Payload) : Packet :=
  s.stamp { cls := cls, src := src, dst := dst, asid := asid, body := body, len := len, md := Config.nameM src, born := s.sent }

/-- FTYPE of flit i of a packet: body 0, head 1, tail 2, single 3 (18 R374). -/
def Packet.ftype (p : Packet) (i : Nat) : Nat :=
  if p.len = 1 then 3 else if i = 0 then 1 else if i + 1 = p.len then 2 else 0

/-- The control field of flit i of a packet (18 R374). -/
def Packet.control (p : Packet) (i : Nat) : Dword :=
  let all := p.age * 2 ^ 59 + (if p.poison then 2 ^ 58 else 0) + p.ftype i * 2 ^ 56 + p.cls * 2 ^ 49 + p.vc % 2 * 2 ^ 48
  let first := p.tag * 2 ^ 52 + p.mode * 2 ^ 46 + (p.len - 1) * 2 ^ 42 + p.inj * 2 ^ 41 + (if p.mcast then 2 ^ 40 else 0) +
    p.dst * 2 ^ 20 + p.src
  BitVec.ofNat 64 (if i = 0 then all + first else all)

def State.send (s : State) (cls src dst asid len : Nat) (body : Payload) : State :=
  { s with net := s.net ++ [s.packet cls src dst asid len body], sent := s.sent + 1 }

/-- A packet that follows the tree of a route tag (18 R374, R384). -/
def State.sendTagged (s : State) (tag cls src dst asid len : Nat) (body : Payload) : State :=
  { s with net := s.net ++ [{ s.packet cls src dst asid len body with tag := tag }], sent := s.sent + 1 }

/-- A packet is at its destination when the router that holds it stands at the site of the destination's name, and it is not under way
to a former one. -/
def State.atDest (s : State) (p : Packet) : Bool :=
  p.md == Config.nameM p.dst && p.aim.isNone && s.site p.dst == some (p.col, p.row)

/-- Two packets that a router took by a link stand in one virtual channel (18 R373); what a tile's spill regions give back keeps one order (16
R351). -/
def Packet.sharesVc (p q : Packet) : Bool :=
  p.port != 5 && p.md == q.md && p.col == q.col && p.row == q.row && p.port == q.port &&
  (p.port == 6 || (p.plane == q.plane && p.drainVc == q.drainVc && (p.drainVc || (p.chan == q.chan && p.cls == q.cls && p.vc == q.vc))))

/-- A packet is the head of its virtual channel. -/
def State.heads (s : State) (p : Packet) : Bool := s.net.all (fun q => !(p.sharesVc q && decide (q.order < p.order)))

/-- The 32 cycles of a module's drain, in which its routers neither arbitrate nor inject nor eject (18 R389). -/
def State.draining (s : State) (md : Nat) : Bool :=
  let d := (s.module md).drainedAt
  d != 0 && decide (s.time < d + 32)

/-- The packet at a position of the net, if it heads its channel at its destination, is no padding and no tree broadcast still to be
passed on, its tile's ejection port is open (18 R394), and no drain is on, in which only a packet that moved is ejected (18 R389). -/
def State.arrived (s : State) (n : Nat) : Option Packet :=
  match s.net[n]? with
  | some p =>
    if s.atDest p && s.heads p && !p.poison && p.tag != 4 && !(s.tile p.dst).ejectClosed && (p.drainVc || !s.draining p.md) then some p
    else none
  | none => none

/-- A module whose clocks run. -/
def State.powered (s : State) (md : Nat) : Bool := !(s.module md).frozen && !(s.module md).poweredOff

/-- A tile's units take packets and act while its partition runs: not in a gang stop or debug halt, nor with the module off (16
R349, 19 R409, R413). -/
def State.unitsRun (s : State) (t : Nat) : Bool :=
  let m := s.module (Config.nameM t)
  (s.tile t).gang == .running && (!m.halted || m.stepping) && !m.frozen && !m.poweredOff

/-- A tile takes packets: its units run, or will once its fall-out has been re-injected (16 R352). -/
def State.unitsTake (s : State) (t : Nat) : Bool :=
  let m := s.module (Config.nameM t)
  ((s.tile t).gang == .running || (s.tile t).gang == .resuming) && (!m.halted || m.stepping) && !m.frozen && !m.poweredOff

/-- Words of a parameter block, and the accumulator slot that it names (10 R202). -/
def Block.word (b : Block) (i : Nat) : Dword := b.words.getD i 0
def Block.slot (b : Block) : Nat := field (b.word 0) 4 3

/-- A line request, line or acknowledgement between a Trestle and its own tile (10 R210). -/
def Packet.ownLine (p : Packet) : Bool :=
  p.src == p.dst && (match p.body with
    | .lineRead _ => true
    | .line _ _ _ => true
    | .lineAck _ _ => true
    | _ => false)

/-- In a debug halt the Trestle completes the commands of a slot left ORPHANED, with the lines that lie at its own tile (10 R221). -/
def State.servesOrphan (s : State) (t : Nat) : Bool :=
  (s.tile t).gang == .halted && s.powered (Config.nameM t) && (match (s.tile t).trestle.running with
    | some r => ((s.tile t).accs.get {} r.blk.slot).orphaned
    | none => false)

/-- A tile takes this packet. -/
def State.unitsServe (s : State) (p : Packet) : Bool := s.unitsTake p.dst || (p.ownLine && s.servesOrphan p.dst)

/-- A packet for the partition that is resident and running at its tile. -/
def State.takes (s : State) (n : Nat) : Option Packet :=
  match s.arrived n with
  | some p => if (s.tile p.dst).resident p.asid && s.unitsServe p then some p else none
  | none => none

def State.dropPacket (s : State) (n : Nat) : State := { s with net := s.net.eraseIdx n }

/-! ## Seating (01 R26) -/

/-- A thread that is HOLDER or LAPSED holds the lease (10 R214); it and the owner of a scratch allotment are seated. -/
def Tile.seated (tl : Tile) (th : Thread) : Bool :=
  th.scratch.isSome || tl.trestle.holder == some th.tid || tl.trestle.fifo.any (fun e => e.1 == th.tid && e.2)

def State.seated (s : State) : Bool := s.myTile.seated s.me

/-! ## The checks before an instruction acts (02 R63 to R68) -/

/-- What the checks need to know of an instruction. -/
structure Form where
  i : Instr
  m : Bool
  /-- waits as if marked (02 R66) -/
  waits : Bool := false
  dst : List Dest := []
  /-- registers read, in the order field A, B, C, rs3 -/
  src : List Dest := []
  /-- makes a pending long result (02 R64) -/
  long : Bool := false
  /-- selects the dynamic rounding mode (01 R18) -/
  dyn : Bool := false
  /-- accesses memory, or is FENCE (07 R151) -/
  mem : Bool := false
  deriving Repr

/-- The bits of an instruction as TH_VALUE holds them (02 R62). -/
def Instr.word (i : Instr) : Dword := BitVec.ofNat 64 ((encode i).getD 0)

/-- The long results a form makes: one for each register that holds something (02 R65, 11 R224). -/
def Form.results (f : Form) : Nat := if f.long then (f.dst.filter (fun d => !d.void)).length else 0

/-- Step 4 of R63, and the room for a new pending result (02 R65, R66, 07 R151). -/
def Form.mustHold (f : Form) (th : Thread) : Option Hold :=
  if (f.m || f.waits) && !th.pending.isEmpty then some .results
  else if f.results != 0 && decide (16 < th.awaited + f.results) then
    some .oneResult
  else if f.mem && !(Hold.acquire.spent 0 {} th) then some .acquire
  else none

/-- Step 5: the first register in conflict with a pending result (02 R68). -/
def Form.hazard (f : Form) (th : Thread) : Option Dest :=
  if th.hz && !f.m && !f.waits then
    (f.dst ++ f.src).find? (fun d => !d.void && th.pending.any (fun p => p.dests.contains d))
  else none

/-- A register read with bad parity (16 R332). -/
def Form.badParity (f : Form) (th : Thread) : Option Dest := f.src.find? (fun d => !d.void && th.parity.contains d)

/-- Step 6 (01 R18). -/
def Form.badRounding (f : Form) (th : Thread) : Bool := f.dyn && decide (5 ≤ th.frm.toNat)

/-- The thread issues an instruction at its turn: READY, its last access accepted, and not held by a page walk. -/
def Thread.runs (th : Thread) : Bool := th.st == .ready && !th.walking && th.wait.isNone

/-- A thread in REMOTEWAIT for some elements of its form has others at its own tile still to present (09 R194). -/
def Thread.presentsElement (th : Thread) : Bool :=
  th.st == .remoteWait && (match th.wait with
    | some w => w.elems && !w.todo.isEmpty
    | none => false)

/-- The thread presents its access again at its turn: READY with an access the pipeline has not accepted (13 R281), or with elements
outstanding elsewhere. -/
def Thread.resumes (th : Thread) : Bool := (th.st == .ready || th.presentsElement) && !th.walking && th.wait.isSome

/-- Every check before the operation's own passes. -/
def Form.passes (f : Form) (th : Thread) : Bool :=
  th.runs && (f.mustHold th).isNone && (f.hazard th).isNone && (f.badParity th).isNone && !f.badRounding th

/-- A parity error found at issue (16 R332). -/
def State.parityTrap (s : State) (d : Dest) : State :=
  let th := s.me
  if th.cause = Cause.machineCheck && th.priv = 1 then
    ((s.setMe { th with st := .halted, haltedFrom := .ready }).report (Config.nameM s.here) 0x13 th.tid.toNat).bb s.here 2 0x13
      th.tid s.cur.2.1 s.cur.2.2
  else s.trap Cause.machineCheck (BitVec.ofNat 64 (256 + d.code))

/-- Steps 4 to 6 of R63, then the instruction's own part. A thread that takes no turn is left as it is (log 6). The parity check of 16 R332,
for which R63 gives no place, is made after the hazard check and before the rounding check (DESIGN CHOICE, log 17). -/
def issue (f : Form) (s : State) (act : Thread → State → Out) : Out :=
  let th := s.me
  if !th.runs then .next s
  else
    match f.mustHold th with
    | some h => .next (s.hold h)
    | none =>
      match f.hazard th with
      | some d => .next (s.trap Cause.hazard (BitVec.ofNat 64 d.code))
      | none =>
        match f.badParity th with
        | some d => .next (s.parityTrap d)
        | none => if f.badRounding th then .next (s.trap Cause.illegal (Instr.word f.i)) else act th s

/-- Step 3 of R63 goes before the others: a form that its thread may not use traps PRIVILEGE with its bits (12 R272, 01 R36). -/
def privileged (f : Form) (barred : Thread → Bool) (s : State) (act : Thread → State → Out) : Out :=
  if s.me.runs && barred s.me then .next (s.trap Cause.privilege (Instr.word f.i)) else issue f s act

/-- The same check of an operand, with the value its rule names (11 R230, 10 R218). -/
def guarded (f : Form) (bad : Thread → Option Dword) (s : State) (act : Thread → State → Out) : Out :=
  match (if s.me.runs then bad s.me else none) with
  | some v => .next (s.trap Cause.privilege v)
  | none => issue f s act

/-- The PC of the next instruction. -/
def Thread.nextPc (th : Thread) (i : Instr) : CodeAddr := th.pc + BitVec.ofNat 48 i.size

/-- The executing thread is left as given, and its instruction counts as issued (15 R330). -/
def State.issued (s : State) (th : Thread) : State := (s.setMe th).count s.here 0x260

/-- A short result: registers written, PC past the instruction (02 R64). -/
def short (f : Form) (s : State) (ws : Thread → List RegWrite) : Out :=
  issue f s (fun th s => .next (s.issued { th.writes (ws th) with pc := th.nextPc f.i }))

/-- A pending result of a thread; none is made where no register would hold it, though what an access still reads may trap (02 R65), and
flags are ORed in when the result returns (04 R95, 08 R169). -/
def Thread.await (th : Thread) (p : Pending) : Thread :=
  { th with
    pending := if p.dests.isEmpty then th.pending else th.pending ++ [{ p with tag := th.tags }]
    silent := if p.dests.isEmpty && (!p.gates.isEmpty || p.flags != 0) then th.silent ++ [{ p with tag := th.tags }] else th.silent
    tags := th.tags + 1 }

/-- The registers of a list that hold something. -/
def live (ds : List Dest) : List Dest := ds.filter (fun d => !d.void)

/-- A long result whose value is fixed at issue and that returns later (02 R64): registers, values and flags. -/
def long (f : Form) (s : State) (ws : Thread → List RegWrite × BitVec 5) : Out :=
  issue f s (fun th s =>
    .next (s.issued { th.await { tag := 0, dests := live f.dst, ready := true, writes := (ws th).1, flags := (ws th).2 } with
      pc := th.nextPc f.i }))

end Sys2Proof.Machine
end

