-- ==== Sys2Proof/Machine/Operands.lean ====
section
/-! DEFINITION. Operand forms: immediates, code addresses (05 R118), the integer functions of 05, segment checks, owners and
local offsets (01 R32, R33), and the context record (01 R12 to R22). -/
namespace Sys2Proof.Machine

/-! ## Values -/

def sx32 (x : Dword) : Dword := (x.truncate 32).signExtend 64
def imm (n : Nat) (i : BitVec n) : Dword := i.signExtend 64
/-- A PC-relative target: a signed offset in halfwords (02 R51). -/
def target {n : Nat} (pc : CodeAddr) (i : BitVec n) : CodeAddr := pc + (i.signExtend 48 <<< 1)

/-- The virtual address of a code address (05 R118). -/
def codeVA (c : CodeAddr) : Dword := ((c >>> 45).zeroExtend 64 <<< 61) ||| (c.truncate 45).zeroExtend 64

/-- The code address a virtual address names, or the cause of the trap (05 R118). -/
def codeAddr (v : Dword) : Except (BitVec 8) CodeAddr :=
  if v.getLsbD 0 then .error Cause.misaligned
  else if field v 45 16 ≠ 0 then .error Cause.segBounds
  else .ok (((v >>> 61).truncate 48 <<< 45) ||| (v.truncate 45).zeroExtend 48)

/-! ## Integer functions (05 R107 to R116) -/

def minS (a b : Dword) : Dword := if a.toInt ≤ b.toInt then a else b
def minZ (a b : Dword) : Dword := if a.toNat ≤ b.toNat then a else b
def maxS (a b : Dword) : Dword := if b.toInt ≤ a.toInt then a else b
def maxZ (a b : Dword) : Dword := if b.toNat ≤ a.toNat then a else b
def shl (a : Dword) (n : Nat) : Dword := a <<< n
def shr (a : Dword) (n : Nat) : Dword := a >>> n
def sra (a : Dword) (n : Nat) : Dword := a.sshiftRight n
def rol (a : Dword) (n : Nat) : Dword := (a <<< n) ||| (a >>> (64 - n))
def ror (a : Dword) (n : Nat) : Dword := (a >>> n) ||| (a <<< (64 - n))
def shlW (a : Dword) (n : Nat) : Dword := (a.truncate 32 <<< n).signExtend 64
def shrW (a : Dword) (n : Nat) : Dword := (a.truncate 32 >>> n).signExtend 64
def sraW (a : Dword) (n : Nat) : Dword := ((a.truncate 32).sshiftRight n).signExtend 64
/-- The shift amount rs2[5:0] or rs2[4:0]. -/
def amount6 (b : Dword) : Nat := b.toNat % 64
def amount5 (b : Dword) : Nat := b.toNat % 32

def mulHigh (a b : Int) : Dword := BitVec.ofInt 64 (a * b / 2 ^ 64)

/-- Division in every case (05 R109): quotient and remainder. -/
def divRem (a b : Dword) (signed : Bool) : Dword × Dword :=
  if b = 0 then (BitVec.allOnes 64, a)
  else if signed then
    if a = 0x8000000000000000 && b = BitVec.allOnes 64 then (0x8000000000000000, 0)
    else (BitVec.ofInt 64 (a.toInt.tdiv b.toInt), BitVec.ofInt 64 (a.toInt.tmod b.toInt))
  else (BitVec.ofNat 64 (a.toNat / b.toNat), BitVec.ofNat 64 (a.toNat % b.toNat))

/-- Leading zeros of the low n bits. -/
def leadingZeros (x : Nat) : Nat → Nat
  | 0 => 0
  | n + 1 => if x.testBit n then 0 else 1 + leadingZeros x n
/-- Trailing zeros: bits from position i on, of n that are left. -/
def trailingZeros (x i : Nat) : Nat → Nat
  | 0 => 0
  | n + 1 => if x.testBit i then 0 else 1 + trailingZeros x (i + 1) n
def ones (x : Nat) : Nat → Nat
  | 0 => 0
  | n + 1 => (if x.testBit n then 1 else 0) + ones x n
/-- The low n bits in reverse order. -/
def reverseBits (x : Nat) : Nat → Nat
  | 0 => 0
  | n + 1 => (x % 2) * 2 ^ n + reverseBits (x / 2) n
def swapBytes (x : Dword) : Dword := BitVec.ofNat 64 (ofBytes (leBytes 8 x.toNat).reverse)

/-- Conditions of CMP and CMPI (05 R115). -/
def condition (c : Nat) (a b : Dword) : Bool :=
  if c = 0 then a == b
  else if c = 1 then a != b
  else if c = 2 then a.slt b
  else if c = 3 then a.ult b
  else if c = 4 then a.sle b
  else if c = 5 then a.ule b
  else if c = 6 then b.slt a
  else if c = 7 then b.ult a
  else if c = 8 then b.sle a
  else if c = 9 then b.ule a
  else a &&& b != 0

/-- A bit field of a register (05 R114). -/
def extractZ (x : Dword) (pos len : Nat) : Dword := BitVec.ofNat 64 (field x pos len)
def extractS (x : Dword) (pos len : Nat) : Dword := (BitVec.ofNat len (field x pos len)).signExtend 64

/-! ## Segments (01 R28 to R34) -/

/-- Segment number and offset of a virtual address (01 R28). -/
def vaSeg (va : Dword) : Nat := field va 61 3
def vaOff (va : Dword) : Nat := field va 0 61

/-- The rights an access needs (01 R32). -/
inductive Right where
  | rd | w | a | fe | feW | rdWA | none
  deriving DecidableEq, Repr

def Segment.grants (d : Segment) : Right → Bool
  | .rd => d.rd
  | .w => d.w
  | .a => d.a
  | .fe => d.f && d.rd
  | .feW => d.f && d.rd && d.w
  | .rdWA => d.rd && d.w && d.a
  | .none => true

/-- The size of a segment for a thread: for scratch the allotment's (01 R34). -/
def Segment.size (d : Segment) (scratch : Option (Nat × Nat)) : Nat :=
  if d.kind = 4 then (match scratch with | some (_, n) => n | none => 0) else d.limit

/-- The checks of an access in their fixed order (01 R32): the cause of the first that fails. -/
def Segment.check (d : Segment) (scratch : Option (Nat × Nat)) (o size align : Nat) (r : Right) : Option (BitVec 8) :=
  if d.kind = 0 then some Cause.segInvalid
  else if o % align ≠ 0 then some Cause.misaligned
  else if d.size scratch < o + size then some Cause.segBounds
  else if !d.grants r then some Cause.segRights
  else none

/-- The owner of an offset; none for a host window (01 R33). -/
def Segment.owner (d : Segment) (current o : Nat) : Option Nat :=
  if d.kind = 1 then
    let b := o / 2 ^ d.g
    some (Config.tileName
      (Config.nameM d.origin + b / 2 ^ (d.lw + d.lh) % 2 ^ d.lm)
      (Config.nameX d.origin + b % 2 ^ d.lw)
      (Config.nameY d.origin + b / 2 ^ d.lw % 2 ^ d.lh))
  else if d.kind = 5 then none
  else some current

/-- The local offset at the owner (01 R33). -/
def Segment.localOffset (d : Segment) (scratch : Option (Nat × Nat)) (o : Nat) : Nat :=
  if d.kind = 1 then o / 2 ^ (d.g + (d.lw + d.lh + d.lm)) * 2 ^ d.g + o % 2 ^ d.g
  else if d.kind = 4 then (match scratch with | some (b, _) => b | none => 0) + o
  else o

/-- The 36 words of a segment table become descriptors (01 R29 to R31). -/
def Segment.ofWords (w0 w1 w2 : Dword) : Segment :=
  { kind := field w0 0 4, rd := field w0 8 1 == 1, w := field w0 9 1 == 1, x := field w0 10 1 == 1
    a := field w0 11 1 == 1, f := field w0 12 1 == 1, vault := field w0 13 1 == 1
    psize := field w0 14 2, g := field w0 16 5, lw := field w0 26 3, lh := field w0 29 3, lm := field w0 32 3
    origin := field w0 44 20, limit := field w1 0 62, host := if field w0 0 4 = 5 then w2 else 0 }

/-- Whether a descriptor keeps the rules of 01 R31; `inPart` tells the tiles of the partition. -/
def Segment.lawful (w0 w1 w2 w3 : Dword) (inPart : Nat → Bool) : Bool :=
  let d := Segment.ofWords w0 w1 w2
  let noSet := d.origin == 0 && d.lw == 0 && d.lh == 0 && d.lm == 0
  let ox := Config.nameX d.origin
  let oy := Config.nameY d.origin
  let om := Config.nameM d.origin
  let corner := Config.tileName (om + 2 ^ d.lm - 1) (ox + 2 ^ d.lw - 1) (oy + 2 ^ d.lh - 1)
  field w0 4 4 == 0 && field w0 21 5 == 0 && field w0 35 9 == 0 && field w1 62 2 == 0 && w3 == 0 &&
  (d.kind == 5 || w2 == 0) && decide (d.kind ≤ 5) && d.psize != 3 && decide (d.limit ≤ 2 ^ 61) &&
  (if d.kind = 1 then
      decide (3 ≤ d.g) && decide (d.g ≤ 30) && decide (d.lw ≤ 6) && decide (d.lh ≤ 5) && decide (d.lm ≤ 4) &&
      decide (ox + 2 ^ d.lw ≤ Config.gridW) && decide (oy + 2 ^ d.lh ≤ Config.gridH) && decide (om + 2 ^ d.lm ≤ 16) &&
      d.origin % 8 == 0 && inPart d.origin && inPart corner
    else true) &&
  (if d.kind = 1 || d.kind = 3 || d.kind = 4 then !(d.f && d.vault) && !d.x else true) &&
  (if d.kind = 2 then !d.w && !d.a && !d.f else true) &&
  (if d.kind = 5 then !d.f && !d.x && noSet else true) &&
  (if d.kind = 2 || d.kind = 3 || d.kind = 4 then noSet else true)

/-- A segment table in 36 words gives the header's values and eight descriptors, a bad one held as kind 0 (01 R31). -/
def Tile.loadTable (tl : Tile) (ws : List Dword) (inPart : Nat → Bool) : Tile :=
  let w := fun i => ws.getD i 0
  let seg := fun i =>
    let j := 4 + 4 * i
    if Segment.lawful (w j) (w (j + 1)) (w (j + 2)) (w (j + 3)) inPart
    then Segment.ofWords (w j) (w (j + 1)) (w (j + 2)) else {}
  { tl with
    segs := (List.range 8).map (fun i => (i, seg i))
    quota := BitVec.ofNat 32 (field (w 1) 0 32)
    vector := (w 0).truncate 48 }

/-! ## The context record (01 R12 to R22) -/

def Thread.pcw (th : Thread) (seated : Bool) : Nat :=
  th.bounce.toNat * 2 ^ 61 + (if seated then 2 ^ 60 else 0) + th.prio.toNat * 2 ^ 58 + th.priv.toNat * 2 ^ 56 +
  th.hops.toNat * 2 ^ 48 + th.pc.toNat

def Thread.predWord (th : Thread) : Nat :=
  th.k3.toNat * 2 ^ 48 + th.k2.toNat * 2 ^ 32 + th.k1.toNat * 2 ^ 16 + th.p.toNat

def Thread.idw (th : Thread) : Nat :=
  (if th.hz then 2 ^ 62 else 0) + th.ldepth.toNat * 2 ^ 60 + th.few.toNat * 2 ^ 56 + th.frm.toNat * 2 ^ 53 +
  th.flags.toNat * 2 ^ 48 + th.vlive.toNat * 2 ^ 40 + th.asid.toNat * 2 ^ 32 + th.tid.toNat

def Thread.tw (th : Thread) : Nat :=
  th.pincnt.toNat * 2 ^ 58 + th.ppriv.toNat * 2 ^ 56 + th.cause.toNat * 2 ^ 48 + th.epc.toNat

/-- The words 0 to 31 of a record. -/
def Thread.recordWords (th : Thread) (seated : Bool) : List Dword :=
  let link := fun i => if i < th.ldepth.toNat then (th.links.get 0 i).toNat else 0
  let l := link 0 + link 1 * 2 ^ 48 + link 2 * 2 ^ 96
  let tail := l + th.d1.toNat * 2 ^ 144 + th.d2.toNat * 2 ^ 164 + th.linkcnt.toNat * 2 ^ 184
  [BitVec.ofNat 64 (th.pcw seated), BitVec.ofNat 64 th.predWord, BitVec.ofNat 64 th.idw, th.ava, th.g0slot] ++
  (List.range 23).map (fun i => th.g.get 0 (i + 1)) ++
  [BitVec.ofNat 64 tail, BitVec.ofNat 64 (tail / 2 ^ 64), BitVec.ofNat 64 (tail / 2 ^ 128), BitVec.ofNat 64 th.tw]

/-- The 256 bytes of a record. -/
def Thread.record (th : Thread) (seated : Bool) : List Byte :=
  (th.recordWords seated).flatMap (fun w => leBytes 8 w.toNat)

/-- A store that it makes on arrival waits: its data stand in the g0 slot, which else is zero (01 R20, 06 R135). -/
def Thread.storeWaits (th : Thread) : Bool :=
  match th.wait with
  | some w =>
    (match w.op.kind with
      | .store _ _ => true
      | _ => false)
  | none => false

/-- The words of a record put into a thread: PC bit 0 and IDW bit 63 are forced to zero, p0 stays 1 (01 R13, R16). -/
def Thread.setWords (th : Thread) (ws : List Dword) : Thread :=
  let w := fun i => ws.getD i 0
  let tail := (w 28).toNat + (w 29).toNat * 2 ^ 64 + (w 30).toNat * 2 ^ 128
  let depth := field (w 2) 60 2
  { th with
    bounce := BitVec.ofNat 3 (field (w 0) 61 3)
    prio := BitVec.ofNat 2 (field (w 0) 58 2)
    priv := BitVec.ofNat 2 (field (w 0) 56 2)
    hops := BitVec.ofNat 8 (field (w 0) 48 8)
    pc := BitVec.ofNat 48 (field (w 0) 1 47 * 2)
    p := BitVec.ofNat 16 (field (w 1) 1 15 * 2 + 1)
    k1 := BitVec.ofNat 16 (field (w 1) 16 16)
    k2 := BitVec.ofNat 16 (field (w 1) 32 16)
    k3 := BitVec.ofNat 16 (field (w 1) 48 16)
    hz := field (w 2) 62 1 == 1
    ldepth := BitVec.ofNat 2 depth
    few := BitVec.ofNat 4 (field (w 2) 56 4)
    frm := BitVec.ofNat 3 (field (w 2) 53 3)
    flags := BitVec.ofNat 5 (field (w 2) 48 5)
    vlive := BitVec.ofNat 8 (field (w 2) 40 8)
    asid := BitVec.ofNat 8 (field (w 2) 32 8)
    tid := BitVec.ofNat 32 (field (w 2) 0 32)
    ava := w 3
    g0slot := if th.storeWaits then w 4 else 0
    g := (List.range 23).map (fun i => (i + 1, w (5 + i)))
    links := (List.range 3).map (fun i => (i, if i < depth then BitVec.ofNat 48 (tail / 2 ^ (48 * i)) else 0))
    d1 := BitVec.ofNat 20 (tail / 2 ^ 144)
    d2 := BitVec.ofNat 20 (tail / 2 ^ 164)
    linkcnt := BitVec.ofNat 8 (tail / 2 ^ 184)
    pincnt := BitVec.ofNat 6 (field (w 31) 58 6)
    ppriv := BitVec.ofNat 2 (field (w 31) 56 2)
    cause := BitVec.ofNat 8 (field (w 31) 48 8)
    epc := BitVec.ofNat 48 (field (w 31) 0 48) }

/-- A record with privilege 2 is not resumed as it stands: the thread enters its trap vector, with the PCW that the record holds (01
R13). -/
def Thread.admitted (th : Thread) (pcw : Dword) (vector firmware : CodeAddr) : Thread :=
  if th.priv = 2 then { th.enter vector firmware Cause.illegal pcw th.pc with priv := 1 } else th

end Sys2Proof.Machine
end

