-- ==== Sys2Proof/Machine/Flags.lean ====
section
/-! DEFINITION. Floating-point formats, values, rounding, and every flag computation (04 R88 to R98, 08 R172 to R179). A flag set
is five bits, NV DZ OF UF NX from the highest (01 R17). -/
namespace Sys2Proof.Machine

/-! ## Formats (04 R88 to R90) -/

structure Fmt where
  expBits : Nat
  fracBits : Nat
  /-- has infinities and an all-NaN top exponent, as every format but E4M3 -/
  ieee : Bool := true
  /-- has signalling NaNs -/
  snan : Bool := true
  deriving DecidableEq, Repr

def f64 : Fmt := ⟨11, 52, true, true⟩
def f32 : Fmt := ⟨8, 23, true, true⟩
def f16 : Fmt := ⟨5, 10, true, true⟩
def bf16 : Fmt := ⟨8, 7, true, true⟩
def e4m3 : Fmt := ⟨4, 3, false, false⟩
def e5m2 : Fmt := ⟨5, 2, true, false⟩

namespace Fmt

def width (f : Fmt) : Nat := 1 + f.expBits + f.fracBits
def bias (f : Fmt) : Int := 2 ^ (f.expBits - 1) - 1
/-- Exponent of the smallest normal value. -/
def emin (f : Fmt) : Int := 1 - f.bias
def signBit (f : Fmt) : Nat := 2 ^ (f.expBits + f.fracBits)
/-- Encoding of the largest finite value. -/
def maxFinite (f : Fmt) : Nat := if f.ieee then (2 ^ f.expBits - 1) * 2 ^ f.fracBits - 1 else 2 ^ (f.expBits + f.fracBits) - 2
def infinity (f : Fmt) : Nat := (2 ^ f.expBits - 1) * 2 ^ f.fracBits
/-- The canonical NaN (04 R90). -/
def nan (f : Fmt) : Nat :=
  if f.ieee then (2 ^ f.expBits - 1) * 2 ^ f.fracBits + 2 ^ (f.fracBits - 1) else 2 ^ (f.expBits + f.fracBits) - 1
def signed (f : Fmt) (neg : Bool) (x : Nat) : Nat := if neg then x + f.signBit else x

end Fmt

/-- A decoded value: m × 2^e for a finite one (04 R89). -/
inductive FVal where
  | nan (signalling : Bool)
  | inf (neg : Bool)
  | fin (neg : Bool) (m : Nat) (e : Int)
  deriving DecidableEq, Repr

def Fmt.decode (f : Fmt) (x : Nat) : FVal :=
  let neg := x / f.signBit % 2 == 1
  let ex := x / 2 ^ f.fracBits % 2 ^ f.expBits
  let fr := x % 2 ^ f.fracBits
  if ex = 2 ^ f.expBits - 1 && f.ieee then
    if fr = 0 then .inf neg else .nan (f.snan && fr < 2 ^ (f.fracBits - 1))
  else if ex = 2 ^ f.expBits - 1 && fr = 2 ^ f.fracBits - 1 then .nan false
  else if ex = 0 then .fin neg fr (f.emin - f.fracBits)
  else .fin neg (2 ^ f.fracBits + fr) (ex - f.bias - f.fracBits)

/-- A nonzero value with exponent field 0 (04 R89). -/
def Fmt.subnormal (f : Fmt) (x : Nat) : Bool := x / 2 ^ f.fracBits % 2 ^ f.expBits == 0 && x % 2 ^ f.fracBits != 0

/-! ## Flags -/

abbrev Flags := BitVec 5
def fNV : Flags := 16
def fDZ : Flags := 8
def fOF : Flags := 4
def fUF : Flags := 2
def fNX : Flags := 1

/-- A result: the encoding, its flags, and whether the exact result was nonzero and tiny before rounding (04 R98). -/
structure FOut where
  bits : Nat
  flags : Flags := 0
  tiny : Bool := false
  deriving DecidableEq, Repr

def Fmt.invalid (f : Fmt) : FOut := { bits := f.nan, flags := fNV }

/-! ## Rounding (04 R93, R94) -/

/-- Number of bits of a number. -/
def bitLength (n : Nat) : Nat := if n = 0 then 0 else n.log2 + 1

/-- Whether a magnitude of integer part k and remainder (rem of unit, plus a sticky excess) goes up by one. -/
def roundsUp (rm : Nat) (neg : Bool) (k rem unit : Nat) (sticky : Bool) : Bool :=
  let inexact := rem != 0 || sticky
  let above := decide (unit < 2 * rem) || (decide (2 * rem = unit) && sticky)
  let tie := decide (2 * rem = unit) && !sticky
  if rm = 0 then above || (tie && k % 2 == 1)
  else if rm = 1 then false
  else if rm = 2 then neg && inexact
  else if rm = 3 then !neg && inexact
  else above || tie

/-- The value (m + excess) × 2^e in units of 2^q, rounded, and whether it changed. -/
def roundAt (rm : Nat) (neg : Bool) (m : Nat) (e q : Int) (sticky : Bool) : Nat × Bool :=
  if q ≤ e then (m * 2 ^ (e - q).toNat, sticky)
  else
    let unit := 2 ^ (q - e).toNat
    let k := m / unit
    let rem := m % unit
    (if roundsUp rm neg k rem unit sticky then k + 1 else k, rem != 0 || sticky)

/-- Overflow (04 R94, R97). -/
def Fmt.overflow (f : Fmt) (rm : Nat) (sat neg : Bool) : FOut :=
  let toInf := rm = 0 || rm = 4 || (rm = 3 && !neg) || (rm = 2 && neg)
  { bits :=
      if toInf && !sat then (if f.ieee then f.signed neg f.infinity else f.nan)
      else f.signed neg f.maxFinite
    flags := fOF ||| fNX }

/-- The nonzero exact value (m + excess) × 2^e rounded once to a format (04 R94). -/
def Fmt.round (f : Fmt) (rm : Nat) (sat neg : Bool) (m : Nat) (e : Int) (sticky : Bool) : FOut :=
  let top := e + bitLength m - 1
  let q := top - f.fracBits
  let (k, inexact) := roundAt rm neg m e q sticky
  let carry := k == 2 ^ (f.fracBits + 1)
  let top' := if carry then top + 1 else top
  let tinyBefore := decide (top < f.emin)
  if top' < f.emin then
    let (k, inexact) := roundAt rm neg m e (f.emin - f.fracBits) sticky
    { bits := f.signed neg k, flags := if inexact then fUF ||| fNX else 0, tiny := tinyBefore }
  else
    let frac := if carry then 0 else k - 2 ^ f.fracBits
    let enc := (top' + f.bias).toNat * 2 ^ f.fracBits + frac
    if f.maxFinite < enc then { f.overflow rm sat neg with tiny := tinyBefore }
    else { bits := f.signed neg enc, flags := if inexact then fNX else 0, tiny := tinyBefore }

/-- A signed exact value rounded; an exact zero takes the given sign. -/
def Fmt.roundInt (f : Fmt) (rm : Nat) (sat : Bool) (v : Int) (e : Int) (zeroNeg : Bool) : FOut :=
  if v = 0 then { bits := f.signed zeroNeg 0 } else f.round rm sat (decide (v < 0)) v.natAbs e false

/-! ## Arithmetic (08 R172, R176) -/

def FVal.isNan : FVal → Bool
  | .nan _ => true
  | _ => false
def FVal.isSNan : FVal → Bool
  | .nan s => s
  | _ => false
def FVal.negate : FVal → FVal
  | .nan s => .nan s
  | .inf n => .inf (!n)
  | .fin n m e => .fin (!n) m e
def FVal.isNeg : FVal → Bool
  | .nan _ => false
  | .inf n => n
  | .fin n _ _ => n

def mag (neg : Bool) (m : Nat) : Int := if neg then -(m : Int) else m

/-- The exact sum of two finite values, as an integer and an exponent. -/
def exactSum (n1 : Bool) (m1 : Nat) (e1 : Int) (n2 : Bool) (m2 : Nat) (e2 : Int) : Int × Int :=
  let e := min e1 e2
  (mag n1 m1 * 2 ^ (e1 - e).toNat + mag n2 m2 * 2 ^ (e2 - e).toNat, e)

/-- The NaN cases of an operation (08 R172): signalling sets NV. -/
def Fmt.nanOf (f : Fmt) (a b : FVal) : Option FOut :=
  if a.isSNan || b.isSNan then some f.invalid
  else if a.isNan || b.isNan then some { bits := f.nan }
  else none

/-- Sum of decoded values. -/
def Fmt.addV (f : Fmt) (rm : Nat) (a b : FVal) : FOut :=
  match f.nanOf a b with
  | some r => r
  | none =>
    match a, b with
    | .inf n1, .inf n2 => if n1 = n2 then { bits := f.signed n1 f.infinity } else f.invalid
    | .inf n, _ => { bits := f.signed n f.infinity }
    | _, .inf n => { bits := f.signed n f.infinity }
    | .fin n1 m1 e1, .fin n2 m2 e2 =>
      let (v, e) := exactSum n1 m1 e1 n2 m2 e2
      f.roundInt rm false v e (if m1 = 0 && m2 = 0 && n1 = n2 then n1 else rm = 2)
    | _, _ => { bits := f.nan }

def Fmt.add (f : Fmt) (rm : Nat) (x y : Nat) : FOut := f.addV rm (f.decode x) (f.decode y)
/-- The difference as the sum with the second operand's sign turned (08 R172): its zeros follow the row of sums, −0 − +0 = −0 (DEDUCED, log
79). -/
def Fmt.sub (f : Fmt) (rm : Nat) (x y : Nat) : FOut := f.addV rm (f.decode x) (f.decode y).negate

def Fmt.mul (f : Fmt) (rm : Nat) (x y : Nat) : FOut :=
  let a := f.decode x
  let b := f.decode y
  match f.nanOf a b with
  | some r => r
  | none =>
    let neg := a.isNeg != b.isNeg
    match a, b with
    | .fin _ m1 e1, .fin _ m2 e2 =>
      if m1 = 0 || m2 = 0 then { bits := f.signed neg 0 } else f.round rm false neg (m1 * m2) (e1 + e2) false
    | .fin _ m _, .inf _ => if m = 0 then f.invalid else { bits := f.signed neg f.infinity }
    | .inf _, .fin _ m _ => if m = 0 then f.invalid else { bits := f.signed neg f.infinity }
    | _, _ => { bits := f.signed neg f.infinity }

/-- A quotient to enough bits, with what is left as a sticky excess. -/
def Fmt.div (f : Fmt) (rm : Nat) (x y : Nat) : FOut :=
  let a := f.decode x
  let b := f.decode y
  match f.nanOf a b with
  | some r => r
  | none =>
    let neg := a.isNeg != b.isNeg
    match a, b with
    | .inf _, .inf _ => f.invalid
    | .inf _, _ => { bits := f.signed neg f.infinity }
    | _, .inf _ => { bits := f.signed neg 0 }
    | .fin _ m1 e1, .fin _ m2 e2 =>
      if m2 = 0 then
        if m1 = 0 then f.invalid else { bits := f.signed neg f.infinity, flags := fDZ }
      else if m1 = 0 then { bits := f.signed neg 0 }
      else
        let n := f.fracBits + 3 + bitLength m2
        f.round rm false neg (m1 * 2 ^ n / m2) (e1 - e2 - n) (m1 * 2 ^ n % m2 != 0)
    | _, _ => { bits := f.nan }

/-- Integer square root by bits: `n` more bits below `r`. -/
def isqrtFrom (x r : Nat) : Nat → Nat
  | 0 => r
  | n + 1 => isqrtFrom x (if (r + 2 ^ n) * (r + 2 ^ n) ≤ x then r + 2 ^ n else r) n
def isqrt (x : Nat) : Nat := isqrtFrom x 0 (bitLength x / 2 + 1)

def Fmt.sqrt (f : Fmt) (rm : Nat) (x : Nat) : FOut :=
  match f.decode x with
  | .nan s => if s then f.invalid else { bits := f.nan }
  | .inf neg => if neg then f.invalid else { bits := f.infinity }
  | .fin neg m e =>
    if m = 0 then { bits := f.signed neg 0 }
    else if neg then f.invalid
    else
      let m := if e % 2 = 0 then m else 2 * m
      let e := if e % 2 = 0 then e else e - 1
      let big := m * 2 ^ (2 * (f.fracBits + 3))
      let r := isqrt big
      f.round rm false false r (e / 2 - (f.fracBits + 3)) (r * r != big)

/-- fusedMultiplyAdd on decoded operands (08 R176). -/
def Fmt.fmaV (f : Fmt) (rm : Nat) (a b c : FVal) : FOut :=
  if a.isSNan || b.isSNan || c.isSNan then f.invalid
  else
    let neg := a.isNeg != b.isNeg
    let zeroTimesInf := match a, b with
      | .fin _ m _, .inf _ => m == 0
      | .inf _, .fin _ m _ => m == 0
      | _, _ => false
    if zeroTimesInf then f.invalid
    else if a.isNan || b.isNan || c.isNan then { bits := f.nan }
    else
      match a, b, c with
      | .fin _ m1 e1, .fin _ m2 e2, .fin n3 m3 e3 =>
        let (v, e) := exactSum neg (m1 * m2) (e1 + e2) n3 m3 e3
        f.roundInt rm false v e (if m1 * m2 = 0 && m3 = 0 && neg = n3 then neg else rm = 2)
      | .fin _ _ _, .fin _ _ _, .inf n => { bits := f.signed n f.infinity }
      | _, _, .inf n => if n = neg then { bits := f.signed n f.infinity } else f.invalid
      | _, _, _ => { bits := f.signed neg f.infinity }

/-- a × b + c with either sign turned (08 R176). -/
def Fmt.fma (f : Fmt) (rm : Nat) (negProduct negAddend : Bool) (x y z : Nat) : FOut :=
  let a := f.decode x
  let c := f.decode z
  f.fmaV rm (if negProduct then a.negate else a) (f.decode y) (if negAddend then c.negate else c)

/-! ## Comparison, minimum and maximum (08 R173, R177) -/

/-- a < b of two values neither of which is a NaN; −0 equals +0. -/
def FVal.lt : FVal → FVal → Bool
  | .inf n1, .inf n2 => n1 && !n2
  | .inf n, _ => n
  | _, .inf n => !n
  | .fin n1 m1 e1, .fin n2 m2 e2 => decide ((exactSum n1 m1 e1 (!n2) m2 e2).1 < 0)
  | _, _ => false

def FVal.isZero : FVal → Bool
  | .fin _ m _ => m == 0
  | _ => false

/-- FMIN and FMAX: an operand unchanged, −0 below +0; a NaN beside a number gives the number (08 R173). -/
def Fmt.minMax (f : Fmt) (isMax : Bool) (x y : Nat) : FOut :=
  let a := f.decode x
  let b := f.decode y
  let nv : Flags := if a.isSNan || b.isSNan then fNV else 0
  let x := x % 2 ^ f.width
  let y := y % 2 ^ f.width
  if a.isNan && b.isNan then { bits := f.nan, flags := nv }
  else if a.isNan then { bits := y, flags := nv }
  else if b.isNan then { bits := x, flags := nv }
  else
    let less := if a.isZero && b.isZero then a.isNeg && !b.isNeg else a.lt b
    let more := if a.isZero && b.isZero then b.isNeg && !a.isNeg else b.lt a
    { bits := if (if isMax then less else more) then y else x }

/-- FCMP's conditions and the NV each sets (08 R177). -/
def Fmt.compare (f : Fmt) (c : Nat) (x y : Nat) : Bool × Flags :=
  let a := f.decode x
  let b := f.decode y
  let unord := a.isNan || b.isNan
  let s : Flags := if a.isSNan || b.isSNan then fNV else 0
  let q : Flags := if unord then fNV else 0
  if c = 0 then (!unord && !a.lt b && !b.lt a, s)
  else if c = 1 then (!unord && a.lt b, q)
  else if c = 2 then (!unord && !b.lt a, q)
  else (unord, s)

/-- FCLASS's mask (08 R175). -/
def Fmt.classify (f : Fmt) (x : Nat) : Nat :=
  match f.decode x with
  | .nan s => if s then 256 else 512
  | .inf neg => if neg then 1 else 128
  | .fin neg m _ =>
    if m = 0 then (if neg then 8 else 16)
    else if f.subnormal x then (if neg then 4 else 32)
    else (if neg then 2 else 64)

/-! ## Conversions (04 R97, 08 R179) -/

/-- The types of conversions (02 R58, R60). -/
inductive NumTy where
  | int (signed : Bool) (w : Nat)
  | flt (f : Fmt)
  deriving DecidableEq, Repr

def intMin (signed : Bool) (w : Nat) : Int := if signed then -(2 ^ (w - 1)) else 0
def intMax (signed : Bool) (w : Nat) : Int := if signed then 2 ^ (w - 1) - 1 else 2 ^ w - 1
/-- The value of an integer encoding. -/
def intValue (signed : Bool) (w x : Nat) : Int :=
  let x := x % 2 ^ w
  if signed && decide (2 ^ (w - 1) ≤ x) then (x : Int) - 2 ^ w else x
/-- The encoding of an integer in w bits. -/
def intBits (w : Nat) (v : Int) : Nat := (v % 2 ^ w).toNat
/-- The nearest value in the limits of a type (04 R86). -/
def clampInt (signed : Bool) (w : Nat) (v : Int) : Int := max (intMin signed w) (min (intMax signed w) v)

/-- A float's value in an integer type (04 R97). -/
def floatToInt (signed : Bool) (w : Nat) (rm : Nat) (v : FVal) : FOut :=
  match v with
  | .nan _ => { bits := 0, flags := fNV }
  | .inf neg => { bits := intBits w (if neg then intMin signed w else intMax signed w), flags := fNV }
  | .fin neg m e =>
    let (k, inexact) := roundAt rm neg m e 0 false
    let r := mag neg k
    if r < intMin signed w || intMax signed w < r then { bits := intBits w (clampInt signed w r), flags := fNV }
    else { bits := intBits w r, flags := if inexact then fNX else 0 }

/-- A float's value in a float format (04 R97). -/
def floatToFloat (f : Fmt) (rm : Nat) (sat : Bool) (v : FVal) : FOut :=
  match v with
  | .nan s => { bits := f.nan, flags := if s then fNV else 0 }
  | .inf neg =>
    if f.ieee then { bits := f.signed neg f.infinity }
    else if sat then { bits := f.signed neg f.maxFinite }
    else { bits := f.nan, flags := fNV }
  | .fin neg m e => if m = 0 then { bits := f.signed neg 0 } else f.round rm sat neg m e false

/-- Any conversion of the table of 04 R97. -/
def convert (src dst : NumTy) (rm : Nat) (sat : Bool) (x : Nat) : FOut :=
  match src, dst with
  | .flt a, .flt b => floatToFloat b rm sat (a.decode x)
  | .flt a, .int g w => floatToInt g w rm (a.decode x)
  | .int g w, .flt b => b.roundInt rm sat (intValue g w x) 0 false
  | .int g w, .int g' w' => { bits := intBits w' (clampInt g' w' (intValue g w x)) }

/-- The types of FCVT, codes 0 to 9 (02 R60, 08 R170). -/
def scalarTy (c : Nat) : NumTy :=
  if c = 0 then .int true 64 else if c = 1 then .int false 64 else if c = 2 then .int true 32 else if c = 3 then .int false 32
  else if c = 4 then .flt f64 else if c = 5 then .flt f32 else if c = 6 then .flt f16 else if c = 7 then .flt bf16
  else if c = 8 then .flt e4m3 else .flt e5m2

/-- The formats of FOP, FFMA and FCMP, codes 0 to 3 (08 R170). -/
def scalarFmt (c : BitVec 2) : Fmt := if c = 0 then f64 else if c = 1 then f32 else if c = 2 then f16 else bf16

/-- The rounding mode of a field: code 7 takes FRM (04 R93). -/
def roundingMode (r : BitVec 3) (frm : BitVec 3) : Nat := if r = 7 then frm.toNat else r.toNat

end Sys2Proof.Machine
end

