-- ==== Sys2Proof/Machine/Bureau.lean ====
section
/-! DEFINITION. What the Bureau knows of launches and retirements, how it asks for a gang switch (15 R312 to R318, 16 R348,
20 R419), and how it interrupts the host (19 R406). -/
namespace Sys2Proof.Machine

/-! ## Interrupts to the host (19 R406) -/

/-- A vector is signalled at a port; one that the MSI-X table masks becomes pending instead (PRESUMED of MSI-X, log 73). -/
def Port.raise (x : Port) (v : Nat) : Port :=
  if (x.msix.get (0, 0, false) v).2.2 then { x with msixPending := x.msixPending ||| BitVec.ofNat 8 (2 ^ v) }
  else { x with vectors := v :: x.vectors }

/-- An entry of the MSI-X table is written: a pending vector that it unmasks is signalled. -/
def Port.writeMsix (x : Port) (n : Nat) (addr : Dword) (data : Word) (mask : Bool) : Port :=
  let x := { x with msix := x.msix.set n (addr, data, mask) }
  if !mask && x.msixPending.getLsbD n then
    ({ x with msixPending := x.msixPending &&& ~~~ BitVec.ofNat 8 (2 ^ n) } : Port).raise n
  else x

/-- A cause sets its bit at some ports, and signals its vector where it is enabled. -/
def State.signal (s : State) (md v : Nat) (ports : List Nat := [0, 1]) : State :=
  ports.foldl (fun s p =>
    let m := s.module md
    let x := m.ports.get {} p
    let x := { (if x.irqen.getLsbD v then x.raise v else x) with irq := x.irq ||| BitVec.ofNat 64 (2 ^ v) }
    s.setModule md { m with ports := m.ports.set p x }) s

/-- A tile's fault record goes to the Bureau (16 R333, R336, R341). -/
def State.toBureau (s : State) (t : Nat) (r : FaultRec) : State :=
  let m := s.module (Config.nameM t)
  s.setModule (Config.nameM t) { m with records := (t, r) :: m.records }

/-! ## Launches and retirements -/

/-- A launch that holds tiles. -/
def Launch.placed (l : Launch) : Bool := l.st == .resident || l.st == .stopping || l.st == .saved

def Launch.asid (l : Launch) : Nat := field (l.words.getD 0 0) 32 8
def Launch.lid (l : Launch) : Nat := field (l.words.getD 0 0) 0 32
def Launch.prio (l : Launch) : Nat := field (l.words.getD 0 0) 40 2

namespace State

/-- The module and launch whose partition an address space is. -/
def launchOf (s : State) (asid : Nat) : Option (Nat × Launch) :=
  s.mods.findSome? (fun e => (e.2.launches.find? (fun l => l.placed && l.asid == asid)).map (fun l => (e.1, l)))

/-- The tiles of the partition of an address space: those of its launch, else those where it is resident. -/
def gangTiles (s : State) (asid : Nat) : List Nat :=
  match s.launchOf asid with
  | some (_, l) => l.tiles
  | none => (s.tiles.filter (fun e => e.2.resident asid)).map (·.1)

/-- A launch of a module changed. -/
def mapLaunch (s : State) (md : Nat) (ok : Launch → Bool) (f : Launch → Launch) : State :=
  let m := s.module md
  s.setModule md { m with launches := m.launches.map (fun l => if ok l then f l else l) }

/-- The Bureau stops a partition: TL_GANGSTOP of its tiles takes a time 8,192 cycles ahead (16 R348), in a debug halt too, whose end the stop
waits for (19 R409). -/
def preempt (s : State) (asid : Nat) : State :=
  let s1 := (s.gangTiles asid).foldl (fun s t => s.mapTile t (fun tl =>
    if tl.gang != .stopped && tl.resident asid then { tl with gangstop := BitVec.ofNat 64 (s.time + 8192) } else tl)) s
  match s.launchOf asid with
  | some (md, _) => s1.mapLaunch md (fun l => l.asid == asid && l.st == .resident) (fun l => { l with st := .stopping })
  | none => s1

/-- A retirement is due: it is kept until no partition is resident at its tile, and one that is resident is stopped (20 R419). -/
def retireSoon (s : State) (t unit idx src : Nat) : State :=
  let md := Config.nameM t
  let m := s.module md
  let s := s.setModule md { m with retiring := m.retiring ++ [(t, unit, idx, src)] }
  if (s.tile t).segValid then s.preempt (s.tile t).asid.toNat else s

end State

end Sys2Proof.Machine
end

