-- ==== Sys2Proof/Machine/Mesh.lean ====
section
/-! DEFINITION. The mesh of routers: neighbours, pod links, what works, connected components, routes and the drain circuit (18 R372,
R381 to R383, R390, R393, R395). A router is numbered 2 (96 row + column) + plane; its ports are N, E, S, W, V from 0, and port 5 is
the tile's own. -/
namespace Sys2Proof.Machine

def dirN : Nat := 0
def dirE : Nat := 1
def dirS : Nat := 2
def dirW : Nat := 3
def dirV : Nat := 4

def siteNo (col row : Nat) : Nat := row * 96 + col
def routerNo (col row plane : Nat) : Nat := 2 * siteNo col row + plane
def routerCol (r : Nat) : Nat := r / 2 % 96
def routerRow (r : Nat) : Nat := r / 2 / 96
def routerPlane (r : Nat) : Nat := r % 2
/-- Routers of a module: 96 columns, 63 rows, two planes (00 R3, 18 R372). -/
def routerCount : Nat := 12096

/-- The input port at the far end of a link. -/
def farPort (d : Nat) : Nat := if d = dirV then dirV else (d + 2) % 4

/-- The router across a lateral or vertical link of the module's mesh. -/
def meshNext (r d : Nat) : Option Nat :=
  let c := routerCol r
  let y := routerRow r
  let p := routerPlane r
  if d = dirN then (if 0 < y then some (routerNo c (y - 1) p) else none)
  else if d = dirE then (if c < 95 then some (routerNo (c + 1) y p) else none)
  else if d = dirS then (if y < 62 then some (routerNo c (y + 1) p) else none)
  else if d = dirW then (if 0 < c then some (routerNo (c - 1) y p) else none)
  else if d = dirV then some (routerNo c y (1 - p))
  else none

/-- A router of the mesh works, and one of its ports: neither the link nor either router is dead (18 R390). -/
def Module.routerUp (m : Module) (r : Nat) : Bool := !m.deadRouters.contains r
def Module.portUp (m : Module) (r d : Nat) : Bool := m.routerUp r && !m.deadLinks.contains (r, d)

/-- The router across a working link of the module, if the port has one. -/
def Module.linkTo (m : Module) (r d : Nat) : Option Nat :=
  match meshNext r d with
  | some r' => if m.portUp r d && m.portUp r' (farPort d) then some r' else none
  | none => none

/-- The module as the tables in force know it: what has failed since the last repair stands in no tree and is on the drain circuit still (20
R421). -/
def Module.tables (m : Module) : Module := { m with deadLinks := m.knownLinks, deadRouters := m.knownRouters }

def Module.workingPorts (m : Module) (r : Nat) : List Nat := (List.range 5).filter (fun d => (m.linkTo r d).isSome)

/-! ## Pod links (18 R395) -/

/-- The edge port of a router in a direction: rows 7 k + 3 east and west, columns 12 k + 6 north and south, k from 0 to 7. -/
def isEdge (r d : Nat) : Bool :=
  let c := routerCol r
  let y := routerRow r
  if d = dirN then y == 0 && c % 12 == 6
  else if d = dirE then c == 95 && y % 7 == 3 && decide (y < 56)
  else if d = dirS then y == 62 && c % 12 == 6
  else if d = dirW then c == 0 && y % 7 == 3 && decide (y < 56)
  else false

/-- The router of edge port k of a side. -/
def edgeRouter (d k plane : Nat) : Nat :=
  if d = dirN then routerNo (12 * k + 6) 0 plane
  else if d = dirE then routerNo 95 (7 * k + 3) plane
  else if d = dirS then routerNo (12 * k + 6) 62 plane
  else routerNo 0 (7 * k + 3) plane

/-- The neighbouring module of the 4 by 4 torus, and whether the link to it wraps. -/
def torusNext (md d : Nat) : Nat × Bool :=
  let x := md % 4
  let y := md / 4
  if d = dirN then (x + 4 * ((y + 3) % 4), y == 0)
  else if d = dirE then (4 * y + (x + 1) % 4, x == 3)
  else if d = dirS then (x + 4 * ((y + 1) % 4), y == 3)
  else (4 * y + (x + 3) % 4, x == 0)

/-- The port number of an edge router on its side. -/
def edgeNo (r d : Nat) : Nat := if d = dirE || d = dirW then routerRow r / 7 else routerCol r / 12

namespace State

/-- The router across a working pod link: its module and number. -/
def podTo (s : State) (md r d : Nat) : Option (Nat × Nat) :=
  let md' := (torusNext md d).1
  let r' := edgeRouter (farPort d) (edgeNo r d) (routerPlane r)
  if isEdge r d && decide (md' < s.podSize) && md' != md && (s.module md).podLinksUp && (s.module md').podLinksUp &&
      (s.module md).portUp r d && (s.module md').portUp r' (farPort d) then some (md', r')
  else none

/-- The router that a working port leads to. -/
def linkTo (s : State) (md r d : Nat) : Option (Nat × Nat) :=
  match (s.module md).linkTo r d with
  | some r' => some (md, r')
  | none => s.podTo md r d

end State

/-! ## Components (18 R393) -/

/-- The routers reached from some, each with the port toward its parent, breadth first. -/
def reachFrom (next : Nat → List (Nat × Nat)) : Nat → List Nat → List (Nat × Nat) → List (Nat × Nat)
  | 0, _, seen => seen
  | _ + 1, [], seen => seen
  | fuel + 1, r :: rest, seen =>
    let fresh := (next r).filter (fun e => !seen.any (fun x => x.1 == e.1))
    reachFrom next fuel (rest ++ fresh.map (·.1)) (seen ++ fresh)

/-- Routers of the whole pod, numbered module by module. -/
def podNo (md r : Nat) : Nat := md * routerCount + r

/-- The neighbours of a router of the pod over working links, those aside that count as dead for connectivity (18 R383). -/
def State.podNeighbours (s : State) (g : Nat) : List (Nat × Nat) :=
  if (s.module (g / routerCount)).countedDead.contains (g % routerCount) then []
  else
    (List.range 5).filterMap (fun d =>
      match s.linkTo (g / routerCount) (g % routerCount) d with
      | some x => if (s.module x.1).countedDead.contains x.2 then none else some (podNo x.1 x.2, farPort d)
      | none => none)

/-- The component of a router of the pod. -/
def State.component (s : State) (g : Nat) : List Nat :=
  (reachFrom s.podNeighbours (16 * routerCount) [g] [(g, 5)]).map (·.1)

/-- The compute-plane routers of host ports A and B: row 31 of columns 0 and 95. -/
def portRouter (port : Nat) : Nat := if port = 0 then routerNo 0 31 0 else routerNo 95 31 0

/-- A port router counts when it works and its port's link is up. -/
def State.portCounts (s : State) (md port : Nat) : Bool :=
  let m := s.module md
  decide (md < s.podSize) && m.routerUp (portRouter port) && !m.countedDead.contains (portRouter port) && (m.ports.get {} port).up

/-- The router whose component is a module's host component. -/
def State.hostRouter (s : State) (md : Nat) : Option Nat :=
  if s.portCounts md 0 then some (podNo md (portRouter 0))
  else if s.portCounts md 1 then some (podNo md (portRouter 1))
  else
    ((List.range s.podSize).find? (fun n => s.portCounts n 0 || s.portCounts n 1)).map (fun n =>
      podNo n (portRouter (if s.portCounts n 0 then 0 else 1)))

/-- A module's host component. With every router and link of the pod at work each module is in one piece. -/
def State.hostComponent (s : State) (md : Nat) : List Nat :=
  match s.hostRouter md with
  | some g => s.component g
  | none => []

/-- A tile at a site is stranded unless both of its routers lie in its module's host component. -/
def stranded (comp : List Nat) (md col row : Nat) : Bool :=
  !(comp.contains (podNo md (routerNo col row 0)) && comp.contains (podNo md (routerNo col row 1)))

/-- With nothing dead in it, and a port to the host, a module is in one piece. -/
def State.onePiece (s : State) (md : Nat) : Bool :=
  (s.module md).deadLinks.isEmpty && (s.module md).deadRouters.isEmpty && (s.portCounts md 0 || s.portCounts md 1)

/-! ## Detour entries (18 R383) -/

/-- The lateral ports of working routers whose link does not work: they need a detour entry. -/
def Module.deadPorts (m : Module) : List (Nat × Nat) :=
  ((m.deadLinks ++ m.deadRouters.flatMap (fun r =>
    (List.range 5).filterMap (fun d => (meshNext r d).map (fun r' => (r', farPort d))))).filter
      (fun e => m.routerUp e.1 && decide (e.2 < 4) && (meshNext e.1 e.2).isSome)).eraseDups

/-- Working directions that an entry may name: perpendicular ones, and V. -/
def Module.detourOptions (m : Module) (e : Nat × Nat) : List Nat :=
  (if e.2 = dirN || e.2 = dirS then [dirE, dirW, dirV] else [dirN, dirS, dirV]).filter (fun d => (m.linkTo e.1 d).isSome)

/-- Every set of entries for some ports. -/
def Module.detourChoices (m : Module) : List (Nat × Nat) → List (Tab Nat)
  | [] => [[]]
  | e :: es => (m.detourOptions e).flatMap (fun d => (m.detourChoices es).map (fun t => t.set (5 * e.1 + e.2) d))

/-- The direction in which a router sends a packet that XY routing sends in a given one. -/
def Module.turned (m : Module) (t : Tab Nat) (r want : Nat) : Option Nat :=
  if (m.linkTo r want).isSome then some want
  else if t.has (5 * r + want) then some (t.get 0 (5 * r + want)) else none

/-- A direction is along the dimension in which a mode moves first: X for XY, Y for YX. -/
def isFirst (yFirst : Bool) (d : Nat) : Bool := if yFirst then d == dirN || d == dirS else d == dirE || d == dirW

/-- Directions in which XY or YX routing may send a packet at the next router, after one that it would have sent in direction `want` has
gone in direction d. -/
def nextWants (yFirst : Bool) (want d : Nat) : List Nat :=
  if d = want then (if isFirst yFirst d then d :: (List.range 4).filter (fun x => !isFirst yFirst x) else [d])
  else if !isFirst yFirst want && d ≠ dirV then [farPort d] else [want]

/-- The channels on which a packet that a mode brought to a channel (5 r + d) may then depend. -/
def Module.dependsOn (m : Module) (t : Tab Nat) (yFirst : Bool) (ch : Nat) : List Nat :=
  let r := ch / 5
  let d := ch % 5
  match m.linkTo r d with
  | none => []
  | some r' =>
    ((List.range 4).filter (fun want => m.turned t r want == some d)).flatMap (fun want =>
      (nextWants yFirst want d).filterMap (fun w => (m.turned t r' w).map (fun d' => 5 * r' + d')))

/-- No channel that a detour enters depends on itself, by XY routing or by YX: neither has a cycle of its own, and a class of routers uses
one of them (DEDUCED, log 5). -/
def Module.detoursLawful (m : Module) (t : Tab Nat) : Bool :=
  [false, true].all (fun yFirst => t.all (fun e =>
    let ch := 5 * (e.1 / 5) + e.2
    let next := fun c => (m.dependsOn t yFirst c).map (fun x => (x, 0))
    let first := (next ch).eraseDups
    !(reachFrom next (10 * routerCount) (first.map (·.1)) first).any (fun x => x.1 == ch)))

/-- The firmware's detour entries: one of the sets under which routes by XY, and by YX, form no cycle of channel dependences (log 5); none, where
there is no such set. -/
def Module.detourSet (m : Module) (md : Nat) : Option (Tab Nat) :=
  let ports := m.deadPorts
  let sets := m.detourChoices ports
  let k := Config.detour md ports % (sets.length + 1)
  (sets.drop k ++ sets.take k).find? m.detoursLawful

/-- The tables are made anew after a repair: the trees and the drain circuit take in what has failed, and detour entries are chosen; without
a lawful set the routers concerned count as dead for naming and connectivity. -/
def Module.rerouted (m : Module) (md : Nat) : Module :=
  let m := { m with knownLinks := m.deadLinks, knownRouters := m.deadRouters, treeSet := [], drainSet := [], depthSet := [] }
  match m.detourSet md with
  | some t => { m with detours := t, countedDead := [] }
  | none => { m with detours := [], countedDead := (m.deadPorts.map (·.1)).eraseDups }

/-! ## The drain circuit (18 R390) -/

/-- The links of a spanning forest of the module, as each router's port toward its parent: with nothing dead, west along each row of
the compute plane, north along column 0, and the vertical link from the memory plane. -/
def Module.parentPort (m : Module) (r : Nat) : Option Nat :=
  if m.deadLinks.isEmpty && m.deadRouters.isEmpty then
    if routerPlane r = 1 then some dirV
    else if 0 < routerCol r then some dirW
    else if 0 < routerRow r then some dirN
    else none
  else
    let near := fun g => (List.range 5).filterMap (fun d => (m.linkTo g d).map (fun g' => (g', farPort d)))
    let forest := (List.range routerCount).foldl (fun (seen : List (Nat × Nat)) g =>
      if seen.any (fun x => x.1 == g) then seen else reachFrom near (routerCount + 1) [g] (seen ++ [(g, 5)])) []
    ((forest.find? (fun x => x.1 == r)).map (·.2)).filter (· != 5)

/-- A working port of a router is on the forest. -/
def Module.onForest (m : Module) (r d : Nat) : Bool :=
  m.parentPort r == some d ||
  match m.linkTo r d with
  | some r' => m.parentPort r' == some (farPort d)
  | none => false

/-- The output port that follows an input port on the drain circuit (DESIGN CHOICE, log 10): a tour of the forest that goes to and fro
over every other link at the lower-numbered of its routers. -/
def Module.drainNext (m : Module) (r i : Nat) : Option Nat :=
  let tour := (m.workingPorts r).filter (fun d => m.onForest r d ||
    match m.linkTo r d with
    | some r' => decide (r < r')
    | none => false)
  if (m.linkTo r i).isNone then none
  else if !tour.contains i then some i
  else
    match tour.find? (fun d => decide (i < d)) with
    | some d => some d
    | none => tour.head?

/-- RT_DRAINMAP of a router: a field of 3 bits for each input port, 7 where none works. What firmware wrote by SYSW stands (18 R396). -/
def Module.drainMap (m : Module) (r : Nat) : Dword :=
  if m.drainSet.has r then m.drainSet.get 0 r
  else BitVec.ofNat 64 (((List.range 5).map (fun i => ((m.tables.drainNext r i).getD 7) * 2 ^ (3 * i))).sum)

/-- The output port that a router's map in force gives for an input port. -/
def Module.drainPort (m : Module) (r i : Nat) : Option Nat :=
  if m.drainSet.has r then (if field (m.drainSet.get 0 r) (3 * i) 3 < 5 then some (field (m.drainSet.get 0 r) (3 * i) 3) else none)
  else m.tables.drainNext r i

/-! ## Names of sites -/

/-- The logical name that a site bears, if any (18 R382). -/
def Module.nameAt (m : Module) (md col row : Nat) : Option Nat :=
  let fx := col / 8
  let fy := row / 9
  let byEntry := (m.exc.get [] (fy * 12 + fx)).map (fun e => Config.tileName md (8 * fx + e.lx) (8 * fy + e.ly))
  let byCount := (List.range 8).map (fun i => Config.tileName md col (8 * fy + i))
  (byEntry ++ byCount).find? (fun n => m.site n == some (col, row))

def State.nameAt (s : State) (md col row : Nat) : Option Nat := (s.module md).nameAt md col row

/-! ## The trees (18 R384), over the names whose routers work, column first toward the root where that way is whole (log 9) -/

def toward (a b : Nat) : Nat := if a < b then a + 1 else if b < a then a - 1 else a

/-- The next name on the grid toward a root, column first; the root has none. -/
def gridParent (r n : Nat) : Option Nat :=
  let m := Config.nameM n
  let x := Config.nameX n
  let y := Config.nameY n
  if x ≠ Config.nameX r then some (Config.tileName m (toward x (Config.nameX r)) y)
  else if y ≠ Config.nameY r then some (Config.tileName m x (toward y (Config.nameY r)))
  else if m ≠ Config.nameM r then some r
  else none

/-- The first step of a shortest way to a good node, from nodes to look at with the step that led to each. -/
def nearStep (good : Nat → Bool) (next : Nat → List Nat) : Nat → List (Nat × Nat) → List Nat → Option Nat
  | 0, _, _ => none
  | _ + 1, [], _ => none
  | fuel + 1, (x, first) :: rest, seen =>
    if good x then some first
    else
      let fresh := (next x).filter (fun y => !seen.contains y)
      nearStep good next fuel (rest ++ fresh.map (fun y => (y, first))) (seen ++ fresh)

namespace State

/-- Every name of a module has a site and every router and link works. -/
def wholeMesh (s : State) (md : Nat) : Bool :=
  (s.module md).absent.isEmpty && (s.module md).knownRouters.isEmpty && (s.module md).knownLinks.isEmpty

/-- A name whose compute-plane router works is a node of the trees. -/
def treeNode (s : State) (n : Nat) : Bool :=
  match s.site n with
  | some x => (s.module (Config.nameM n)).tables.routerUp (routerNo x.1 x.2 0)
  | none => false

/-- The link between the compute-plane routers of two names works, where their sites lie side by side. -/
def treeLink (s : State) (n k : Nat) : Bool :=
  match s.site n, s.site k with
  | some x, some y =>
    let r := routerNo x.1 x.2 0
    let r' := routerNo y.1 y.2 0
    match (List.range 4).find? (fun d => meshNext r d == some r') with
    | some d => Config.nameM n != Config.nameM k || (s.module (Config.nameM n)).tables.linkTo r d == some r'
    | none => true
  | _, _ => false

/-- Names that a tag's tree may join: those of a field for tag 1, of a module for the others. -/
def treeNames (tag n : Nat) : List Nat :=
  let m := Config.nameM n
  if tag = 1 then
    (List.range 64).map (fun i => Config.tileName m (Config.nameX n / 8 * 8 + i % 8) (Config.nameY n / 8 * 8 + i / 8))
  else (List.range (Config.gridW * Config.gridH)).map (fun i => Config.tileName m (i % Config.gridW) (i / Config.gridW))

/-- Root of a tag's tree for a tile: its field's (3, 3), its module's (48, 28), or that of module 0; where that name is no node, the
first name that is. -/
def treeRoot (s : State) (tag n : Nat) : Nat :=
  let r := if tag = 1 then Config.tileName (Config.nameM n) (Config.nameX n / 8 * 8 + 3) (Config.nameY n / 8 * 8 + 3)
    else if tag = 3 then Config.tileName 0 48 28
    else Config.tileName (Config.nameM n) 48 28
  if s.wholeMesh (Config.nameM r) || s.treeNode r then r else ((treeNames tag r).find? s.treeNode).getD r

/-- The way column first from a name to the root passes nodes only. -/
def gridPath (s : State) (r : Nat) : Nat → Nat → Bool
  | 0, _ => false
  | fuel + 1, n => s.treeNode n &&
    (match gridParent r n with
     | some p => s.treeLink n p && gridPath s r fuel p
     | none => true)

/-- Nodes beside a name on the grid that its tag's tree may join, N, E, S, W. -/
def gridNear (s : State) (tag n : Nat) : List Nat :=
  let m := Config.nameM n
  let x := Config.nameX n
  let y := Config.nameY n
  ([if 0 < y then [Config.tileName m x (y - 1)] else [], [Config.tileName m (x + 1) y], [Config.tileName m x (y + 1)],
    if 0 < x then [Config.tileName m (x - 1) y] else []].flatten).filter (fun k =>
      Config.isTile k && s.treeNode k && s.treeLink n k && (tag != 1 || Config.fieldOf k == Config.fieldOf n))

/-- The next node on the way to the root, by the trees that firmware computes; the root has none. A node from which no way on the grid of
names leads there has the root itself for its parent, across routers between (log 9). -/
def computedParent (s : State) (tag n : Nat) : Option Nat :=
  let r := s.treeRoot tag n
  if s.wholeMesh (Config.nameM n) || s.gridPath r 200 n then gridParent r n
  else if n = r then none
  else (nearStep (s.gridPath r 200) (s.gridNear tag) 5376 ((s.gridNear tag n).map (fun k => (k, k))) [n]).or (some r)

/-- The key of a node's parent among those written by SYSW. -/
def treeKey (tag n : Nat) : Nat := 8 * n + tag

/-- The next node on the way to the root, by the tables in force (18 R384, R396). -/
def treeParent (s : State) (tag n : Nat) : Option Nat :=
  let m := s.module (Config.nameM n)
  if m.treeSet.has (treeKey tag n) then m.treeSet.get none (treeKey tag n) else s.computedParent tag n

/-- The child of a node through which another tile's way to the root passes the node. -/
def childToward (s : State) (tag node cur : Nat) : Nat → Option Nat
  | 0 => none
  | fuel + 1 =>
    match s.treeParent tag cur with
    | none => none
    | some p => if p = node then some cur else s.childToward tag node p fuel

/-- Hops from a name to the root of its tree. -/
def treeHops (s : State) (tag cur : Nat) : Nat → Nat
  | 0 => 0
  | fuel + 1 =>
    match s.treeParent tag cur with
    | none => 0
    | some p => s.treeHops tag p fuel + 1

/-- D of a tag's tree at a tile: 8 and 76 with every name present. -/
def treeDepth (s : State) (tag t : Nat) : Nat :=
  if s.wholeMesh (Config.nameM t) then (if tag = 1 then 8 else 76)
  else (((treeNames tag t).filter s.treeNode).map (fun n => s.treeHops tag n 6000)).foldl max 0

/-- Pod links between a module and module 0, the shorter way round each dimension of the torus. -/
def podHops (md : Nat) : Nat := min (md % 4) (4 - md % 4) + min (md / 4) (4 - md / 4)

/-- RT_TREEDEPTH of a tile (18 R396): D of tags 1 to 3, each pod link counted as 20 hops; 0 before firmware has written it. -/
def treeDepths (s : State) (t : Nat) : Dword :=
  let old := (s.tile t).treedepth
  let m := s.module (Config.nameM t)
  if m.depthSet.has t then m.depthSet.get 0 t
  else if old = 0 || (s.podSize ≤ 1 && s.wholeMesh (Config.nameM t)) then old
  else
    let pod := (List.range s.podSize).map (fun md => s.treeDepth 2 (Config.tileName md 48 28) + 20 * podHops md)
    BitVec.ofNat 64 (s.treeDepth 1 t % 256 + s.treeDepth 2 t % 256 * 2 ^ 8 + pod.foldl max 0 % 256 * 2 ^ 16)

/-- The nodes beside a node through which some tiles are reached. -/
def treeToward (s : State) (tag node : Nat) (tiles : List Nat) : List Nat :=
  (tiles.filterMap (fun x =>
    if x = node then none
    else
      match s.childToward tag node x 6000 with
      | some c => some c
      | none => s.treeParent tag node)).eraseDups

end State

/-! ## The next hop (18 R381, R395) -/

/-- Directions out of a module toward another: torus X, then torus Y. A packet goes on in the direction in which it came round that
dimension, and one that begins it takes the shorter way first. -/
def podDirs (md dst : Nat) (heading : Option Nat := none) : List Nat :=
  let m := Config.nameM dst
  let dx := (m % 4 + 4 - md % 4) % 4
  let dy := (m / 4 + 4 - md / 4) % 4
  let ds := if dx ≠ 0 then (if dx ≤ 2 then [dirE, dirW] else [dirW, dirE])
    else if dy ≤ 2 then [dirS, dirN] else [dirN, dirS]
  match heading with
  | some d => if ds.contains d then d :: ds.erase d else ds
  | none => ds

/-- The edge router by which a packet leaves a module, and the direction: port dest.y div 7 or dest.x div 12, and the next working one
where it has failed. -/
def State.exit (s : State) (md plane dst : Nat) (heading : Option Nat := none) : Option (Nat × Nat) :=
  ((podDirs md dst heading).flatMap (fun d =>
    let k := if d = dirE || d = dirW then Config.nameY dst / 7 else Config.nameX dst / 12
    (List.range 8).map (fun i => (edgeRouter d ((k + i) % 8) plane, d)))).find? (fun e => (s.podTo md e.1 e.2).isSome)

/-- Where a packet heads in the module that holds it: column, row, and the direction in which it then leaves the module. One that was
under way when its name moved goes on to the former site (18 R392). -/
def State.goal (s : State) (p : Packet) : Option (Nat × Nat × Option Nat) :=
  if Config.nameM p.dst = p.md then (p.aim.or (s.site p.dst)).map (fun x => (x.1, x.2, none))
  else (s.exit p.md p.plane p.dst p.heading).map (fun e => (routerCol e.1, routerRow e.1, some e.2))

def stepX (c tx : Nat) : Option Nat := if c < tx then some dirE else if tx < c then some dirW else none
def stepY (y ty : Nat) : Option Nat := if y < ty then some dirS else if ty < y then some dirN else none

/-- The direction of XY or YX routing. -/
def xyHop (yFirst : Bool) (c y tx ty : Nat) (out : Option Nat) : Option Nat :=
  if yFirst then (stepY y ty).or ((stepX c tx).or out) else (stepX c tx).or ((stepY y ty).or out)

end Sys2Proof.Machine
end

