-- ==== Sys2Proof/Machine/SoftError.lean ====
section
/-! DEFINITION. Soft errors of tile memory and what reading a line finds (14 R298 to R301), with the retirement log that a failed bank
enters (20 R417), and where a tile's queues lie, whose entries a poisoned line may hold. -/
namespace Sys2Proof.Machine

/-! ## Where the queues lie (14 R294, 17 R356, R357; their order within the queue region is a DESIGN CHOICE, log 35) -/

def Tile.plain (tl : Tile) (i : Nat) : Option PlainQueue := (tl.queues.find? (fun e => e.1 == i)).map (·.2)
def Tile.dqueue (tl : Tile) (i : Nat) : Option DQueue := (tl.dqueues.find? (fun e => e.1 == i)).map (·.2)

/-- The local offset of a plain queue's ring: the queue region follows the scratch pool, with the rings of the plain queues first, by INDEX. -/
def Tile.plainBase (tl : Tile) (i : Nat) : Nat :=
  tl.poolBase + tl.poolSize + ((tl.queues.filter (fun e => decide (e.1 < i))).map (fun e => 32 * e.2.size)).sum

/-- The local offset of a D-queue's 40 KiB, at whose start its window lies: behind the rings, by INDEX. -/
def Tile.windowBase (tl : Tile) (i : Nat) : Nat :=
  tl.poolBase + tl.poolSize + (tl.queues.map (fun e => 32 * e.2.size)).sum +
    40960 * (tl.dqueues.filter (fun e => decide (e.1 < i))).length

/-- The vault offset of a D-queue's spill ring: the rings follow one another in INDEX order from 0x7E50_0000 (17 R357). -/
def Tile.spillBase (tl : Tile) (i : Nat) : Nat :=
  0x7E500000 + ((tl.dqueues.filter (fun e => decide (e.1 < i))).map (fun e => 32 * e.2.ringSize)).sum

/-- The device address of a window's entry. -/
def State.windowAt (s : State) (t i place : Nat) : Nat := sramAt t ((s.tile t).windowBase i + 32 * place)

/-! ## The retirement log (20 R417) -/

/-- A log entry for a unit of a site. -/
def logEntry (time col row unit idx src : Nat) : Dword :=
  BitVec.ofNat 64 (time / 65536 % 2 ^ 32 * 2 ^ 32 + idx / 16 % 2 * 2 ^ 26 + src % 4 * 2 ^ 24 + unit % 16 * 2 ^ 20 +
    idx % 16 * 2 ^ 16 + row % 9 * 2 ^ 10 + col % 8 * 2 ^ 7 + (12 * (row / 9) + col / 8))

def entryUnit (e : Dword) : Nat := field e 20 4
def entryIndex (e : Dword) : Nat := field e 16 4 + 16 * field e 26 1
/-- FIELD, COL and SITE as one number that orders sites. -/
def entrySite (e : Dword) : Nat := field e 0 7 * 128 + field e 7 3 * 16 + field e 10 4
def siteKey (col row : Nat) : Nat := (12 * (row / 9) + col / 8) * 128 + col % 8 * 16 + row % 9
def keyCol (k : Nat) : Nat := k / 128 % 12 * 8 + k / 16 % 8
def keyRow (k : Nat) : Nat := k / 128 / 12 * 9 + k % 16

namespace Module

/-- What the fuse map and the log say of a site. -/
def entriesOf (m : Module) (col row : Nat) : List Dword :=
  (m.fuses ++ m.log).filter (fun e => entrySite e == siteKey col row)

def hasEntry (m : Module) (col row unit idx : Nat) : Bool :=
  (m.entriesOf col row).any (fun e => entryUnit e == unit && entryIndex e == idx)

/-- TL_SLOTS of the tile at a site (01 R39, 20 R419). -/
def slotsOf (m : Module) (col row : Nat) : Dword :=
  let bank := fun i => m.hasEntry col row 0 i
  let core := fun c =>
    if m.hasEntry col row 1 c then 0 else 16 - 4 * ((List.range 4).filter (fun b => bank (4 * c + b))).length
  BitVec.ofNat 64 ((((List.range 4).map (fun c => core c * 2 ^ (5 * c))).sum) +
    (if m.hasEntry col row 3 0 then 0 else 2 ^ 20) +
    (((List.range 4).map (fun g => if m.hasEntry col row 2 g then 0 else 2 ^ (21 + g))).sum) +
    (((List.range 16).map (fun b => if bank b then 2 ^ (25 + b) else 0)).sum))

/-- The failed bank of a site plus one; 0 for none. -/
def bankOf (m : Module) (col row : Nat) : Nat :=
  match (m.entriesOf col row).find? (fun e => entryUnit e == 6) with
  | some e => entryIndex e + 1
  | none => 0

/-- The site with the most unit entries in the log, the lowest on ties. -/
def crowdedSite (m : Module) : Option Nat :=
  let units := (m.log.filter (fun e => entryUnit e != 4)).map entrySite
  (units.eraseDups.mergeSort (fun a b => decide (a ≤ b))).find? (fun k => units.all (fun x => decide (units.count x ≤ units.count k)))

/-- An entry joins the log. A tile entry replaces every other of its site. When the log of 8,192 is full, the tile with the most unit
entries is retired whole, and its site is given back; its tile entry stands for the new one too, where that is of the same site. -/
def addLog (m : Module) (e : Dword) : Module × Option Nat :=
  let keep := if entryUnit e = 4 then m.log.filter (fun x => entrySite x != entrySite e) else m.log
  if keep.length < 8192 then ({ m with log := keep ++ [e] }, none)
  else
    match { m with log := keep }.crowdedSite with
    | some k =>
      let rest := keep.filter (fun x => entrySite x != k)
      let whole := logEntry (field e 32 32 * 65536) (keyCol k) (keyRow k) 4 0 (field e 24 2)
      ({ m with log := if entrySite e = k then rest ++ [whole] else rest ++ [whole, e] }, some k)
    | none => ({ m with log := keep }, none)

end Module

/-! ## What a read of a line finds (14 R298 to R301) -/

/-- What a line's four columns say. -/
inductive LineState where
  | good
  | corrected (bank : Nat)
  | bad (bank : Option Nat)
  deriving DecidableEq, Repr

/-- The outcome table of 14 R298; `f` is the failed bank plus one. A bad line names a bank when every error of its columns does. -/
def lineState (f : Nat) (seen : LineRead) : LineState :=
  let cols := seen.take 4
  let named := cols.filterMap (fun c => match c with
    | .names b => if b + 1 = f then none else some b
    | _ => none)
  let lost := cols.any (fun c => c == .undecodable)
  match named with
  | [] => if lost then .bad none else .good
  | b :: rest =>
    let one := !lost && rest.all (fun x => x == b)
    if f = 0 then (if one then .corrected b else .bad none) else .bad (if one then some b else none)

namespace State

def logUnit (s : State) (md col row unit idx src : Nat) : State × Option Nat :=
  let r := (s.module md).addLog (logEntry s.time col row unit idx src)
  (s.setModule md r.1, r.2)

/-- The tile that a full log retires whole is retired (20 R417). -/
def retireCrowded (s : State) (md src : Nat) (crowded : Option Nat) : State :=
  match crowded.bind (fun k => s.nameAt md (keyCol k) (keyRow k)) with
  | some n => s.retireSoon n 4 0 src
  | none => s

/-- A failing unit of a site is logged (20 R417). -/
def logRetire (s : State) (md col row unit idx src : Nat) : State :=
  let r := s.logUnit md col row unit idx src
  r.1.retireCrowded md src r.2

/-- One more correction from a bank: at 16 within a pass it is marked failed and logged, and a second such bank is a MACHINE_CHECK to the
Bureau, which retires the tile (14 R300). -/
def bankYields (s : State) (t b : Nat) : State :=
  let tl := s.tile t
  let n := tl.corrections.get 0 b + 1
  let s := s.mapTile t (fun tl => { tl with corrections := tl.corrections.set b n })
  if n ≠ 16 then s
  else if tl.failedBank = 0 then
    let s := (s.mapTile t (fun tl => { tl with failedBank := b + 1 })).bb t 12 6
    match s.site t with
    | some (c, r) => (s.logRetire (Config.nameM t) c r 6 b 1).signal (Config.nameM t) 4
    | none => s
  else ((s.report (Config.nameM t) 0x13 t).bb t 2 0x13).retireSoon t 4 0 1

/-- The words of n words of tile memory from an offset. -/
def tagWords (t first n : Nat) : List Nat := (List.range n).map (fun i => sramAt t (first + 8 * i))

def poisonAll (s : State) (ws : List Nat) : State := ws.foldl (fun s a => s.setPoison a true) s

/-- The entries of a D-queue whose window lies at `base` that a poisoned line holds: an entry has the 32 bytes at its place (17 R356,
R366). -/
def poisonWindow (q : DQueue) (base line : Nat) : DQueue :=
  { q with window := q.window.map (fun e => if (base + 32 * e.place) / 64 = line then { e with poison := true } else e) }

/-- A poisoned line of tile memory may hold entries of the Dresser's windows. -/
def poisonDresser (s : State) (t line : Nat) : State :=
  s.mapTile t (fun tl =>
    { tl with dqueues := tl.dqueues.map (fun e => (e.1, poisonWindow e.2 (tl.windowBase e.1) line)) })

/-- A line of tile memory is poisoned, which its Dresser and its black box note (14 R299, 17 R366, 19 R412). -/
def poisonLine (s : State) (t line : Nat) : State :=
  (((s.poisonAll (tagWords t (64 * line) 8)).poisonDresser t line).count t 0x20A).bb t 3 0

/-- A group of 16 words whose tags do not decode is poisoned, both its lines, and full (14 R301). -/
def tagsLost (s : State) (t line : Nat) : State :=
  let s := [line / 2 * 2, line / 2 * 2 + 1].foldl (fun s l => s.poisonLine t l) s
  (tagWords t (line / 2 * 128) 16).foldl (fun s a => s.setEmpty a false) s

end State

/-- The other line of a group of tags. -/
def twinLine (line : Nat) : Nat := if line % 2 = 0 then line + 1 else line - 1

namespace SoftError

/-- The error is of the group's tags too, which a read of either of its lines meets. -/
def tags (e : SoftError) : Bool := e.seen.drop 4 == [.undecodable]
def withTags (e : SoftError) : SoftError := { e with seen := (e.seen ++ List.replicate 4 ColumnRead.clean).take 4 ++ [.undecodable] }
def noTags (e : SoftError) : SoftError := { e with seen := e.seen.take 4 }
/-- Nothing is left that a read would meet. -/
def spent (e : SoftError) : Bool := e.seen.all (fun c => c == .clean)

end SoftError

namespace State

/-- A soft error comes to a line; one of the group's tags is met by a read of either of the group's lines. -/
def strike (s : State) (t line : Nat) (e : SoftError) : State :=
  s.mapTile t (fun tl =>
    let errs := tl.errs.set line e
    { tl with errs := if e.tags then errs.set (twinLine line) (errs.get { seen := [] } (twinLine line)).withTags else errs })

/-- An access has read the tags of a line's group, and what it found of them stands in the group's other line no more. -/
def untag (s : State) (t line : Nat) : State :=
  s.mapTile t (fun tl =>
    match tl.errs.find? (fun x => x.1 == twinLine line) with
    | some (_, e) => { tl with errs := if e.noTags.spent then tl.errs.erase (twinLine line) else tl.errs.set (twinLine line) e.noTags }
    | none => tl)

/-- A read of a line decodes it: an error is corrected and written back, or poisons the line (14 R298, R299). Data that differ from those
stored come with an error alone: an outcome of no error reads the data that stand. -/
def decode (s : State) (t line : Nat) : State :=
  match (s.tile t).errs.find? (fun e => e.1 == line) with
  | none => s
  | some (_, e) =>
    let s := s.mapTile t (fun tl => { tl with errs := tl.errs.erase line })
    let s := if e.tags then (s.untag t line).tagsLost t line else s
    let take := fun (s : State) => match e.left with
      | some v => s.store (sramAt t (64 * line)) (leBytes 64 v.toNat)
      | none => s
    match lineState (s.tile t).failedBank e.seen with
    | .good => s
    | .corrected b => ((take s).count t 0x209).bankYields t b
    | .bad b =>
      let s := if e.tags then take s else (take s).poisonLine t line
      match b with
      | some b => s.bankYields t b
      | none => s

/-- A write of a whole line reads no data, but the tags of its group (14 R297, R301). -/
def overwritten (s : State) (t line : Nat) : State :=
  match (s.tile t).errs.find? (fun e => e.1 == line) with
  | none => s
  | some (_, e) =>
    let s := s.mapTile t (fun tl => { tl with errs := tl.errs.erase line })
    if e.tags then (s.untag t line).tagsLost t line else s

/-- The lines of tile memory that an access of n bytes reads are decoded; a write of a whole line replaces it without reading (14
R297, R298). -/
def decodeRange (s : State) (a n : Nat) (write : Bool := false) : State :=
  let t := devTile a
  if devVault a || n = 0 || (s.tile t).errs.isEmpty then s
  else
    let first := devOff a / 64
    (List.range ((devOff a % 64 + n + 63) / 64)).foldl (fun s i =>
      let line := first + i
      if write && decide (devOff a ≤ 64 * line) && decide (64 * line + 64 ≤ devOff a + n) then s.overwritten t line
      else s.decode t line) s

/-- Words that a unit writes, with their poison cleared: a line written in part is read first (14 R297, R299). -/
def putWords (s : State) (a : Nat) (ws : List Dword) : State :=
  (ws.zipIdx).foldl (fun s e => (s.setDword (a + 8 * e.2) e.1).setPoison (a + 8 * e.2) false) (s.decodeRange a (8 * ws.length) true)

/-- n words from an address. -/
def dwords (s : State) (a n : Nat) : List Dword := (List.range n).map (fun i => s.dword (a + 8 * i))

end State

end Sys2Proof.Machine
end

