-- ==== Sys2Proof/Machine/Vault.lean ====
section
/-! DEFINITION. The vault cache as its tags: hits, misses and their table, victims and write-backs, and the stride prefetcher
(14 R302 to R305). The bytes of the vault are in memory; a miss only delays its results. -/
namespace Sys2Proof.Machine

/-! ## Tree pseudo-LRU (14 R302, 16 R337): node i has children 2i and 2i + 1, a set bit points right -/

/-- The way the tree's bits lead to: `levels` more levels from node `i`. -/
def plruVictim (tree : Nat) : Nat → Nat → Nat
  | 0, _ => 0
  | l + 1, i => if tree.testBit i then 2 ^ l + plruVictim tree l (2 * i + 1) else plruVictim tree l (2 * i)

/-- The bits after way `w` is used: every node on its path points away from it. -/
def plruTouch (tree w : Nat) : Nat → Nat → Nat
  | 0, _ => tree
  | l + 1, i =>
    let right := w / 2 ^ l % 2 == 1
    let cleared := tree - (if tree.testBit i then 2 ^ i else 0)
    plruTouch (if right then cleared else cleared + 2 ^ i) w l (if right then 2 * i + 1 else 2 * i)

/-! ## Lines and sectors -/

/-- The 16-byte sectors of a line that n bytes from an offset touch, and those they cover whole. -/
def sectorsTouched (off n : Nat) : BitVec 4 :=
  ((List.range 4).filter (fun i => decide (off % 64 < 16 * i + 16) && decide (16 * i < off % 64 + n))).foldl
    (fun m i => m ||| BitVec.ofNat 4 (2 ^ i)) 0
def sectorsWhole (off n : Nat) : BitVec 4 :=
  ((List.range 4).filter (fun i => decide (off % 64 ≤ 16 * i) && decide (16 * i + 16 ≤ off % 64 + n))).foldl
    (fun m i => m ||| BitVec.ofNat 4 (2 ^ i)) 0

def lineSet (line : Nat) : Nat := line % 2048

namespace VaultCache

def line? (v : VaultCache) (line : Nat) : Option VLine := v.lines.find? (fun l => l.line == line)
def miss? (v : VaultCache) (line : Nat) : Option Miss := v.misses.find? (fun m => m.line == line)
def putLine (v : VaultCache) (l : VLine) : VaultCache := { v with lines := l :: v.lines.filter (fun x => x.line != l.line) }
def putMiss (v : VaultCache) (m : Miss) : VaultCache :=
  { v with misses := v.misses.map (fun x => if x.line == m.line then m else x) }
def touchWay (v : VaultCache) (line way : Nat) : VaultCache :=
  { v with trees := v.trees.set (lineSet line) (plruTouch (v.trees.get 0 (lineSet line)) way 4 1) }

/-- Ways of a set whose fill is outstanding are never victims (14 R302). -/
def busyWays (v : VaultCache) (line : Nat) : List Nat :=
  (v.misses.filter (fun m => lineSet m.line == lineSet line)).map (·.way)

/-- The way a new line of a set takes: a free one, else the tree's victim; none when every way has an outstanding fill. Where the tree's victim
has one, which R302 leaves open, the lowest way that has none is taken (DESIGN CHOICE, log 74). -/
def victim (v : VaultCache) (line : Nat) : Option Nat :=
  let busy := v.busyWays line
  let ok := (List.range 16).filter (fun w => !busy.contains w)
  let used := fun w => v.lines.any (fun l => lineSet l.line == lineSet line && l.way == w)
  match ok.find? (fun w => !used w) with
  | some w => some w
  | none =>
    let w := plruVictim (v.trees.get 0 (lineSet line)) 4 1
    if ok.contains w then some w else ok.head?

/-- The line that holds a way of a line's set. -/
def holder (v : VaultCache) (line way : Nat) : Option VLine :=
  v.lines.find? (fun l => lineSet l.line == lineSet line && l.way == way)

end VaultCache

/-- The cache after a victim has left its way: a clean one is dropped, a dirty one needs a write-back entry (14 R303). The
number counts a marked line evicted. None where a dirty victim must wait. -/
def VaultCache.evict (v : VaultCache) (line way : Nat) : Option (VaultCache × Nat) :=
  match v.holder line way with
  | none => some (v, 0)
  | some l =>
    let out := { v with lines := v.lines.filter (fun x => x.line != l.line) }
    if l.dirty = 0 then some (out, if l.mark then 1 else 0)
    else if v.writeback.length < 16 then
      some ({ out with writeback := v.writeback ++ [l.line] }, if l.mark then 1 else 0)
    else none

/-- The prefetcher sees a demand access of a line; a miss trains it (14 R304). -/
def VaultCache.train (v : VaultCache) (line now : Nat) (missed : Bool) : VaultCache :=
  let near := fun (x : Stream) => x.last / 64 == line / 64
  let on := fun (x : Stream) => near x && x.stride != 0 && decide ((x.last : Int) + x.stride = line)
  if v.streams.any on then
    { v with streams := v.streams.map (fun x => if on x && (missed || decide (3 ≤ x.count)) then
        { x with last := line, count := x.count + (if missed then 1 else 0), used := now } else x) }
  else if !missed then v
  else
    let gap := fun (x : Stream) => (line : Int) - x.last
    let joins := fun (x : Stream) => near x && decide (x.count < 3) && gap x != 0 && decide (-32 ≤ gap x) && decide (gap x ≤ 32)
    match v.streams.find? joins with
    | some x => { v with streams := { last := line, stride := gap x, count := 2, used := now } :: v.streams.erase x }
    | none =>
      let kept := if v.streams.length < 16 then v.streams
        else
          match v.streams.find? (fun x => v.streams.all (fun y => decide (x.used ≤ y.used))) with
          | some old => v.streams.erase old
          | none => v.streams
      { v with streams := { last := line, stride := 0, count := 1, used := now } :: kept }

/-- How the cache takes an access. -/
inductive Touch where
  | ok (gate : Option Gate) (s : State)
  | stall (s : State)

/-- The bytes of its line that an access reads or writes: the sectors and words touched, and those covered whole. -/
structure Span where
  touched : BitVec 4
  whole : BitVec 4
  words : BitVec 8
  wordsWhole : BitVec 8
  deriving DecidableEq, Repr

/-- The 8-byte words of a line that some bytes of it touch, or cover whole. -/
def wordMask (f : Nat → Bool) : BitVec 8 :=
  ((List.range 8).filter f).foldl (fun m i => m ||| BitVec.ofNat 8 (2 ^ i)) 0

/-- n bytes of a line from an offset. -/
def spanOf (off n : Nat) : Span :=
  { touched := sectorsTouched off n, whole := sectorsWhole off n
    words := wordMask (fun i => decide (off % 64 < 8 * i + 8) && decide (8 * i < off % 64 + n))
    wordsWhole := wordMask (fun i => decide (off % 64 ≤ 8 * i) && decide (8 * i + 8 ≤ off % 64 + n)) }

/-- The active 4-byte lanes of a line (09 R193). -/
def spanOfLanes (m : BitVec 16) : Span :=
  let some_ := fun (k i : Nat) => (List.range k).any (fun j => m.getLsbD (k * i + j))
  let all := fun (k i : Nat) => (List.range k).all (fun j => m.getLsbD (k * i + j))
  let sectors := fun (f : Nat → Bool) => ((List.range 4).filter f).foldl (fun x i => x ||| BitVec.ofNat 4 (2 ^ i)) (0 : BitVec 4)
  { touched := sectors (some_ 4), whole := sectors (all 4), words := wordMask (some_ 2), wordsWhole := wordMask (all 2) }

/-- A read-modify-write reads all that it writes: nothing of the line is replaced unread. -/
def Span.readFirst (x : Span) : Span := { x with whole := 0, wordsWhole := 0 }

/-- An access of one line at a vault offset (14 R302, R303). A copy's or Trestle's read counts as a demand read. A write needs the fill of
the sectors that it covers in part alone. Where the tree's victim has an outstanding fill (VaultCache.victim), and where a write of whole
sectors finds its victim dirty and no write-back entry free, which R303 does not settle, the model's choice is log 74. -/
def State.vaultTouch (s : State) (t off : Nat) (x : Span) (write : Bool) : Touch :=
  let tl := s.tile t
  let v := tl.vc
  let line := off / 64
  let put := fun (s : State) (v : VaultCache) => s.mapTile t (fun tl => { tl with vc := v })
  let reads := if write then x.touched &&& ~~~ x.whole else x.touched
  let written := if write then x.wordsWhole else 0
  let gate : Gate := { line := line, words := x.words &&& ~~~ written }
  match v.miss? line with
  | some m =>
    if 8 ≤ m.joiners then .stall s
    else
      let first := m.prefetch && !m.late && !m.spent
      let held := ((v.line? line).map (·.valid)).getD 0
      let gate := { gate with words := gate.words &&& ~~~ m.written }
      let m := { m with
        joiners := m.joiners + 1
        late := m.late || (first && !write), spent := m.spent || (first && write)
        sectors := m.sectors ||| (reads &&& ~~~ m.dirty &&& ~~~ held), dirty := if write then m.dirty ||| x.touched else m.dirty
        written := m.written ||| written }
      let s := put s ((v.putMiss m).train line s.time false)
      .ok (some gate) (if first then s.count t (if write then 0x207 else 0x206) else s)
  | none =>
    let miss := fun (lack : BitVec 4) (waitWb : Bool) (way : Nat) =>
      ({ line := line, waitWb := waitWb, sectors := lack, dirty := if write then x.touched else 0, written := written
         fromWb := v.writeback.contains line, way := way } : Miss)
    match v.line? line with
    | some l =>
      let lack := reads &&& ~~~ l.valid
      if lack = 0 then
        let s := put s (((v.putLine { l with
          valid := if write then l.valid ||| x.touched else l.valid
          dirty := if write then l.dirty ||| x.touched else l.dirty, mark := false }).touchWay line l.way).train line s.time false)
        let s := s.count t 0x200
        .ok none (if l.mark then s.count t (if write then 0x207 else 0x205) else s)
      else if 64 ≤ v.misses.length then .stall s
      else
        .ok (some gate) ((put s ({ v with misses := v.misses ++ [miss lack false l.way] }.train line s.time true)).count t 0x201)
    | none =>
      match v.victim line with
      | none => .stall s
      | some way =>
        match v.evict line way with
        | some (out, marked) =>
          if reads = 0 then
            .ok none (((put s (((out.putLine { line := line, valid := x.touched, dirty := x.touched, way := way }).touchWay line
              way).train line s.time true)).count t 0x201).count t 0x208 marked)
          else if 64 ≤ v.misses.length then .stall s
          else
            .ok (some gate) (((put s ({ out with misses := out.misses ++ [miss reads false way] }.train line s.time true)).count t
              0x201).count t 0x208 marked)
        | none =>
          if reads = 0 || decide (64 ≤ v.misses.length) then .stall s
          else .ok (some gate) ((put s ({ v with misses := v.misses ++ [miss reads true way] }.train line s.time true)).count t 0x201)

/-- An access at a device address, of some bytes of one line or of the active lanes of a block: tile memory takes it at once and decodes
the lines it reads (14 R298). -/
def State.touch (s : State) (a n : Nat) (write : Bool) (lanes : Option (BitVec 16) := none) (rmw : Bool := false) : Touch :=
  if n = 0 then .ok none s
  else
    match lanes with
    | some m =>
      if m = 0 then .ok none s
      else if devVault a then s.vaultTouch (devTile a) (devOff a) (spanOfLanes m) write
      else .ok none (s.decodeRange a n (write && m == 0xFFFF))
    | none =>
      if devVault a then
        s.vaultTouch (devTile a) (devOff a) (if rmw then (spanOf (devOff a) n).readFirst else spanOf (devOff a) n) write
      else .ok none (s.decodeRange a n (write && !rmw))

/-! ### Stalls (14 R303) -/

/-- Cycles for which requests that stall at a tile have done so up to now. -/
def Tile.stallCycles (tl : Tile) (now : Nat) : Nat :=
  (tl.stalls.map (fun e => now - e.2.2)).sum + (tl.cores.map (fun c => (c.2.stalled.map (fun e => now - e.2)).getD 0)).sum

def Tile.stall? (tl : Tile) (r : Nat) : Option (Staller × Nat) := (tl.stalls.find? (fun e => e.1 == r)).map (·.2)

/-- A request of a requester from 4 to 7 stalls. -/
def State.stalls (s : State) (t r : Nat) (x : Staller) : State :=
  s.mapTile t (fun tl => match tl.stall? r with
    | some (y, _) => if y = x then tl else { tl with stalls := tl.stalls.set r (x, s.time) }
    | none => { tl with stalls := tl.stalls.set r (x, s.time) })

/-- A requester's stall is over: its cycles count in CT_MTFULL. -/
def State.goes (s : State) (t r : Nat) : State :=
  match (s.tile t).stall? r with
  | some (_, since) => (s.mapTile t (fun tl => { tl with stalls := tl.stalls.erase r })).count t 0x203 (s.time - since)
  | none => s

/-- An access stalls. -/
def Touch.stalled : Touch → Bool
  | .stall _ => true
  | .ok _ _ => false

/-- A request other than this one still stalls for a requester, and this one waits behind it. A packet that is gone, and a line that the
cache would now take, stall no more. -/
def State.behind (s : State) (t r : Nat) (x : Staller) : Bool :=
  match (s.tile t).stall? r with
  | none => false
  | some (y, _) => y != x && match y with
    | .packet b => s.net.any (fun q => q.born == b) || (s.tile t).faultBuf.any (fun e => e.p.born == b)
    | .line a w => (s.touch a 64 w).stalled

/-- HUT's access of a line: it waits behind another of HUT's that stalls (14 R296, R303). -/
def State.hutTouch (s : State) (t a n : Nat) (write : Bool) : Touch :=
  if s.behind t 7 (.line a write) then .stall s
  else
    match s.touch a n write with
    | .stall s => .stall (s.stalls t 7 (.line a write))
    | .ok g s => .ok g (s.goes t 7)

/-- HUT's access of some lines, through the vault cache or with their decoding (14 R298, R302): whether the pipeline has taken them all. What
has been taken before a line that stalls is undone. -/
def State.touchLines (s : State) (t : Nat) (write : Bool) (as : List Nat) : State × Bool :=
  let go := as.foldl (fun (x : State × Option State) a => match x.2 with
    | some _ => x
    | none => match x.1.hutTouch t a 64 write with
      | .ok _ s => (s, none)
      | .stall s => (x.1, some s)) (s, none)
  match go.2 with
  | none => (go.1, true)
  | some u => (s.mapTile t (fun tl => { tl with
      stalls := (u.tile t).stalls, ct := tl.ct.set 0x203 ((u.tile t).ct.get 0 0x203) }), false)

/-- The line that an address lies in has an outstanding fill. -/
def State.missing (s : State) (a : Nat) : Bool :=
  devVault a && (((s.tile (devTile a)).vc.miss? (devOff a / 64))).isSome

/-- A core's request stalls: the slot's, or the store buffer's for 16. -/
def State.coreStalls (s : State) (t c k : Nat) : State :=
  s.mapTile t (fun tl =>
    let co := tl.core c
    tl.setCore c { co with stalled := if co.stalled.isSome then co.stalled else some (k, s.time) })

/-- A core's stalled request has been accepted, or is presented no more: its cycles count. -/
def State.coreGoes (s : State) (t c k : Nat) : State :=
  match ((s.tile t).core c).stalled with
  | some (j, since) =>
    if j = k then
      (s.mapTile t (fun tl => tl.setCore c { tl.core c with stalled := none })).count t 0x203 (s.time - since)
    else s
  | none => s

/-- Another request of the core stalls, and this one waits behind it. -/
def State.behindStall (s : State) (t c k : Nat) : Bool :=
  match ((s.tile t).core c).stalled with
  | some (j, _) => j != k && (j == 16 || (s.thread t c j).resumes)
  | none => false

/-- Packets that the pipeline has answered leave at once, or when the lines that they wait for have been filled (14 R303). -/
def State.gateOut (s : State) (t : Nat) (gates : List Gate) (va : Dword) (ps : List Packet) : State :=
  match gates with
  | [] => { s with net := s.net ++ ps }
  | g :: more =>
    s.mapTile t (fun tl => { tl with vc := { tl.vc with misses := tl.vc.misses.map (fun (m : Miss) =>
      if m.line == g.line then
        { m with out := m.out ++ ps.map (fun p => ({ p := p, va := va, words := g.words, more := more } : Gated)) }
      else m) } })

/-- An answer leaves, behind its gate if it has one. -/
def State.sendAfter (s : State) (gate : Option Gate) (va : Dword) (cls src dst asid len : Nat) (body : Payload) : State :=
  { s.gateOut src gate.toList va [s.packet cls src dst asid len body] with sent := s.sent + 1 }

/-- PREFETCH_ISSUE: a stream fetches the nearest of the next 4 lines it lacks, while 8 miss entries are free (14 R304). -/
def execPrefetchIssue (t n : Nat) (s : State) : Out :=
  let v := (s.tile t).vc
  match v.streams[n]? with
  | none => .next s
  | some x =>
    if x.count < 3 || decide (56 < v.misses.length) || !s.powered (Config.nameM t) then .next s
    else
      let ahead := (List.range 4).map (fun (k : Nat) => (x.last : Int) + x.stride * ((k : Int) + 1))
      let wanted := fun (l : Int) => decide (0 ≤ l) && l.toNat / 64 == x.last / 64 && (v.line? l.toNat).isNone &&
        (v.miss? l.toNat).isNone
      match ahead.find? wanted with
      | none => .next s
      | some l =>
        let line := l.toNat
        match v.victim line with
        | none => .next s
        | some way =>
          let m : Miss := { line := line, waitWb := false, prefetch := true, fromWb := v.writeback.contains line, way := way }
          let put := fun (v : VaultCache) => s.mapTile t (fun tl => { tl with vc := v })
          match v.evict line way with
          | some (out, marked) =>
            .next (((put { out with misses := out.misses ++ [m] }).count t 0x204).count t 0x208 marked)
          | none => .next ((put { v with misses := v.misses ++ [{ m with waitWb := true }] }).count t 0x204)

/-- WRITEBACK_ENTRY_FREE: a write-back entry has drained to DRAM; the miss that waited longest takes it (14 R303). -/
def execWritebackEntryFree (t n : Nat) (s : State) : Out :=
  let v := (s.tile t).vc
  if v.writeback.length ≤ n || !s.powered (Config.nameM t) then .next s
  else
    let v := { v with writeback := v.writeback.eraseIdx n }
    let (v, marked) := match v.misses.find? (·.waitWb) with
      | some m =>
        match v.evict m.line m.way with
        | some (out, marked) => (out.putMiss { m with waitWb := false }, marked)
        | none => (v, 0)
      | none => (v, 0)
    .next (((s.mapTile t (fun tl => { tl with vc := v })).count t 0x202).count t 0x208 marked)

end Sys2Proof.Machine
end

