-- ==== Sys2Proof/Machine/Translate.lean ====
section
/-! DEFINITION. Translation at the owner (16 R334 to R338): the TLB, the walk through the tables in memory,
and the fetch of an instruction's halfwords (01 R15, 02 R45). -/
namespace Sys2Proof.Machine

/-! ## The TLB -/

/-- log2 of the page size (16 R334). -/
def pageBits (psize : Nat) : Nat := if psize = 0 then 12 else if psize = 1 then 16 else 21

def TlbEntry.set (e : TlbEntry) : Nat := (e.page ^^^ (e.seg * 64)) % 512

/-- The entry that translates a local offset: a write needs one that is writable and whose leaf had D set (16 R335). -/
def Tile.lookup (tl : Tile) (asid seg psize lo : Nat) (write : Bool) : Option TlbEntry :=
  tl.tlb.find? (fun e => e.asid == asid && e.seg == seg && e.psize == psize && e.page == lo / 2 ^ pageBits psize &&
    (!write || (e.dirty && !e.wp)))

/-- The device address an entry gives for a local offset of tile t. -/
def TlbEntry.addr (e : TlbEntry) (t lo : Nat) : Nat :=
  devAddr t (if e.vault then 1 else 0) (e.frame + lo % 2 ^ pageBits e.psize)

/-- The replacement tree after a hit. -/
def Tile.touchTlb (tl : Tile) (e : TlbEntry) : Tile :=
  { tl with tlbTree := tl.tlbTree.set e.set (plruTouch (tl.tlbTree.get 0 e.set) e.way 3 1) }

/-- A translation entered: an entry of the same page is replaced, else a free way of its set, else the tree's victim. -/
def Tile.fillTlb (tl : Tile) (e : TlbEntry) : Tile :=
  let same := fun (x : TlbEntry) => x.asid == e.asid && x.seg == e.seg && x.psize == e.psize && x.page == e.page
  let others := tl.tlb.filter (fun x => !same x)
  let inSet := others.filter (fun x => x.set == e.set)
  let way := match (List.range 8).find? (fun w => inSet.all (fun x => x.way != w)) with
    | some w => w
    | none => plruVictim (tl.tlbTree.get 0 e.set) 3 1
  let e := { e with way := way }
  { tl with tlb := e :: others.filter (fun x => !(x.set == e.set && x.way == way)) }.touchTlb e

/-! ## The walk -/

/-- The home store ends where the scratch pool begins (14 R294). -/
def Tile.homeEnd (tl : Tile) : Nat := tl.poolBase

/-- What a walk finds (16 R336). -/
inductive WalkEnd where
  /-- the leaf's address and value -/
  | present (at_ : Nat) (leaf : Dword)
  | fault (reason : Nat)
  deriving DecidableEq, Repr

def pteValid (e : Dword) : Bool := e.getLsbD 0
def pteVault (e : Dword) : Bool := e.getLsbD 1
def pteFrame (e : Dword) : Nat := field e 12 20 * 4096

/-- A node pointer leads to home store, supervisor space or the vault's non-device pages (16 R335). -/
def nodeLawful (tl : Tile) (e : Dword) (size : Nat) : Bool :=
  let f := pteFrame e
  f % size == 0 &&
  if pteVault e then decide (f + size ≤ Config.deviceRegion)
  else decide (f + size ≤ tl.homeEnd) || (decide (Config.supervisorBase ≤ f) && decide (f + size ≤ Config.sramBytes))

/-- A leaf keeps the rules of 16 R335. -/
def leafLawful (tl : Tile) (vault : Bool) (psize : Nat) (e : Dword) : Bool :=
  let f := pteFrame e
  let size := 2 ^ pageBits psize
  pteVault e == vault && f % size == 0 && field e 5 7 == 0 && field e 32 32 == 0 &&
  (if vault then decide (f + size ≤ Config.deviceRegion) else decide (f + size ≤ tl.homeEnd))

def nodeAt (t : Nat) (e : Dword) : Nat := devAddr t (if pteVault e then 1 else 0) (pteFrame e)

/-- A walk for a local offset at tile t (16 R334, R336). -/
def State.walk (s : State) (t seg : Nat) (vault : Bool) (psize lo : Nat) (write : Bool) : WalkEnd :=
  let tl := s.tile t
  let leafEnd := fun (a : Nat) (e : Dword) =>
    if !pteValid e then WalkEnd.fault 1
    else if !leafLawful tl vault psize e then .fault 4
    else if write && e.getLsbD 2 then .fault 3
    else .present a e
  let root := tl.roots.get 0 seg
  if 2 ^ 39 ≤ lo then .fault 2
  else if !pteValid root then .fault 1
  else if !nodeLawful tl root 4096 then .fault 4
  else
    let a1 := nodeAt t root + 8 * (lo / 2 ^ 30 % 512)
    let e1 := s.dword a1
    if !pteValid e1 then .fault 1
    else if !nodeLawful tl e1 4096 then .fault 4
    else
      let a2 := nodeAt t e1 + 8 * (lo / 2 ^ 21 % 512)
      let e2 := s.dword a2
      if psize = 2 then leafEnd a2 e2
      else if !pteValid e2 then .fault 1
      else if !nodeLawful tl e2 (if psize = 1 then 256 else 4096) then .fault 4
      else
        let a3 := nodeAt t e2 + 8 * (if psize = 1 then lo / 2 ^ 16 % 32 else lo / 2 ^ 12 % 512)
        leafEnd a3 (s.dword a3)

/-- The words of the tables that a walk reads, in order, as they stand. -/
def State.walkNodes (s : State) (t seg psize lo : Nat) : List Nat :=
  let tl := s.tile t
  let leads := fun (e : Dword) (size : Nat) => pteValid e && nodeLawful tl e size
  let root := tl.roots.get 0 seg
  if 2 ^ 39 ≤ lo || !leads root 4096 then []
  else
    let a1 := nodeAt t root + 8 * (lo / 2 ^ 30 % 512)
    let e1 := s.dword a1
    if !leads e1 4096 then [a1]
    else
      let a2 := nodeAt t e1 + 8 * (lo / 2 ^ 21 % 512)
      let e2 := s.dword a2
      if psize = 2 || !leads e2 (if psize = 1 then 256 else 4096) then [a1, a2]
      else [a1, a2, nodeAt t e2 + 8 * (if psize = 1 then lo / 2 ^ 16 % 32 else lo / 2 ^ 12 % 512)]

/-- A walk's reads of tile memory are decoded level by level (14 R298). -/
def State.readNodes (s : State) (t seg psize lo : Nat) : State :=
  (List.range 3).foldl (fun s i => match (s.walkNodes t seg psize lo)[i]? with
    | some a => s.decodeRange a 8
    | none => s) s

/-- A present leaf takes A, and D for a write, and enters the TLB (16 R335, R336). -/
def State.fill (s : State) (t asid seg psize lo at_ : Nat) (leaf : Dword) (write : Bool) : State :=
  let leaf' := leaf ||| 8 ||| (if write then 16 else 0)
  let s := (s.decodeRange at_ 8 true).setDword at_ leaf'
  s.mapTile t (fun tl => tl.fillTlb
    { asid := asid, seg := seg, page := lo / 2 ^ pageBits psize, psize := psize, frame := pteFrame leaf
      vault := pteVault leaf, wp := leaf.getLsbD 2, dirty := leaf'.getLsbD 4 })

/-- TL_PTROOT read again: the walker takes the root's eight words (16 R334). -/
def State.readRoots (s : State) (t : Nat) : State :=
  let base := sramAt t (field (s.tile t).ptroot 0 31)
  let s := s.decodeRange base 64
  s.mapTile t (fun tl => { tl with roots := (List.range 8).map (fun i => (i, s.dword (base + 8 * i))) })

/-- How a local offset translates now. -/
inductive Xlate where
  | at_ (a : Nat) (s : State)
  | miss
  deriving DecidableEq, Repr

/-- Translation of a local offset at its owner: scratch offsets and device addresses are used directly (16 R334, 15 R307). -/
def State.translate (s : State) (t asid seg : Nat) (direct write : Bool) (psize lo : Nat) : Xlate :=
  if direct then .at_ (sramAt t lo) s
  else
    match (s.tile t).lookup asid seg psize lo write with
    | some e => .at_ (e.addr t lo) (s.mapTile t (fun tl => tl.touchTlb e))
    | none => .miss

/-- How the owner translates an access made under a descriptor (16 R334), and where a host window lies (19 R407). -/
def Segment.mapping (d : Segment) : Mapping := { scratch := d.kind == 4, psize := d.psize, vault := d.vault, host := if d.kind = 5 then d.host else 0 }

/-- A use waits for its page: it joins a walk of the page, or starts one of at most 32 (16 R338). None when all are active. -/
def State.startWalk (s : State) (t asid seg : Nat) (m : Mapping) (lo : Nat) (va : Dword) (write : Bool) (u : Use) : Option State :=
  let tl := s.tile t
  let page := fun x => x / 2 ^ pageBits m.psize
  let same := fun (w : Walk) =>
    w.asid == asid && w.seg == seg && w.psize == m.psize && w.vault == m.vault && page w.lo == page lo
  let joined : Tile := { tl with
    walks := tl.walks.map (fun w => if same w then { w with write := w.write || write, uses := w.uses ++ [u] } else w) }
  let started : Tile := { tl with
    walks := tl.walks ++ [{ asid := asid, seg := seg, lo := lo, va := va, write := write, uses := [u], psize := m.psize,
                            vault := m.vault }] }
  if tl.walks.any same then some (s.setTile t (joined.count 0x270))
  else if tl.walks.length < 32 then some (s.setTile t ((started.count 0x270).count 0x271))
  else none

/-! ## Fetch -/

/-- What fetching an instruction, or a halfword of one, finds. -/
inductive Fetched where
  | bits (w : Nat)
  | fault (cause : BitVec 8) (va : Dword)
  | miss (va : Dword)
  deriving DecidableEq, Repr

/-- Where a page of code lies. A fetch is no access (13 R279): it makes no walk of R338, counts no miss and fills no TLB entry, and only
a page that is not present is a miss (log 13). -/
def State.codeAt (s : State) (t asid seg : Nat) (d : Segment) (o : Nat) : Option Nat :=
  match (s.tile t).lookup asid seg d.psize o false with
  | some e => some (e.addr t o)
  | none =>
    match s.walk t seg d.vault d.psize o false with
    | .present _ leaf => some (devAddr t (if pteVault leaf then 1 else 0) (pteFrame leaf + o % 2 ^ pageBits d.psize))
    | .fault _ => none

/-- One halfword of code at the current tile (01 R15, R32), for a thread with the given scratch allotment. -/
def State.fetchHalf (s : State) (t asid : Nat) (scratch : Option (Nat × Nat)) (pc : CodeAddr) : Fetched :=
  let va := codeVA pc
  let d := (s.tile t).seg (vaSeg va)
  let o := vaOff va
  match d.check scratch o 2 2 .none with
  | some c => .fault c va
  | none =>
    if d.kind ≠ 2 || !d.x then .fault Cause.segRights va
    else
      match s.codeAt t asid (vaSeg va) d o with
      | some a => if s.isPoisoned a 2 then .fault Cause.poison va else .bits (s.num a 2)
      | none => .miss va

/-- A whole instruction: bit 0 of the first halfword tells its length (02 R45). -/
def State.fetch (s : State) (t asid : Nat) (scratch : Option (Nat × Nat)) (pc : CodeAddr) : Fetched :=
  match s.fetchHalf t asid scratch pc with
  | .bits lo =>
    if isFull lo then
      match s.fetchHalf t asid scratch (pc + 2) with
      | .bits hi => .bits (lo + 65536 * hi)
      | r => r
    else .bits lo
  | r => r

end Sys2Proof.Machine
end

