-- ==== Sys2Proof/Machine/Owner.lean ====
section
/-! DEFINITION. What an operation does to tile memory and the vault at the owner of its address: loads and stores, full-empty
forms, atomics, barrier objects and arrival words, with poison and waiter records (06 R130 to R134, 07 R147 to R163, 12 R251 to
R254, 14 R299). -/
namespace Sys2Proof.Machine

/-! ## Fault records (16 R342) -/

def State.addFault (s : State) (t : Nat) (r : FaultRec) : State :=
  s.mapTile t (fun tl => { tl with faultRecs := tl.faultRecs ++ [r] })

/-- TID of an operation's issuer as records and WAKE name it (16 R339). -/
def Origin.tid : Origin → BitVec 32
  | .thread _ tid _ => tid
  | .bookend t b _ => BitVec.ofNat 32 (t * 4096 + 0x7000 + b)
  | .host _ _ _ => 0xFFFFFFFF

/-- The class that a fault record names: of the packet that brought the operation; of one that came by none, POST for a record of a queue
and else 0 (log 24). -/
def Op.cls (op : Op) : Nat :=
  match op.path with
  | .posted => clsPOST
  | .remote => clsREQ
  | .here =>
    match op.kind with
    | .queue _ => clsPOST
    | _ => 0

/-- A discarded operation is reported to the owner's fault queue (14 R299, 11 R226). -/
def State.reportDiscard (s : State) (op : Op) (kind reason : Nat) : State :=
  s.addFault op.owner { tid := op.origin.tid, asid := op.asid, seg := op.seg, kind := kind, reason := reason, lo := op.lo
                        va := op.va, src := op.src, cls := op.cls }

/-! ## The outcome at the owner -/

/-- What the owner answers now. -/
inductive Ans where
  | reply (r : Reply)
  /-- a waiter record holds it -/
  | waits
  /-- a further page is needed first: segment, local offset, address, write -/
  | page (seg lo : Nat) (va : Dword) (write : Bool)
  /-- refused: the sending tile keeps it in its resend buffer (11 R234) -/
  | refused
  deriving DecidableEq, Repr

structure Effect where
  s : State
  ans : Ans
  /-- waiters served by it, with their answers, in order -/
  woken : List (Op × Reply) := []
  deriving DecidableEq, Repr

def Effect.of (s : State) (vals : List Dword) : Effect :=
  { s := s, ans := .reply (.done (vals.map (fun v => v.zeroExtend 512))) }
def Effect.trap (s : State) (cause : BitVec 8) (value : Dword) : Effect := { s := s, ans := .reply (.trap cause value) }

/-! ## Loads and stores (06 R130, 14 R299) -/

def LoadForm.extend (f : LoadForm) (x : Nat) : Dword := if f.signed then sextTo64 (8 * f.size) x else BitVec.ofNat 64 x

/-- A store of whole words replaces them and clears their poison; a narrower store to a poisoned word is discarded and
reported (14 R299). -/
def State.poke (s : State) (op : Op) (a : Nat) (bs : List Byte) : State :=
  if a % 8 = 0 && bs.length % 8 = 0 then
    { s.store a bs with poison := (wordsOf a bs.length).foldl (fun l w => dropFrom w l) s.poison }
  else if s.isPoisoned a bs.length then s.reportDiscard op 4 1
  else s.store a bs

/-- Bytes stored word by word, each word by its own rule of poison (14 R299). -/
def State.pokeWords (s : State) (op : Op) (a : Nat) (bs : List Byte) : State :=
  (wordsOf a bs.length).foldl (fun s w =>
    let lo := max a w
    s.poke op lo ((bs.drop (lo - a)).take (w + 8 - lo))) s

/-- The runs of a masked 64-byte block: each word written whole, by its low or by its high lane (09 R193). -/
def State.pokeLanes (s : State) (op : Op) (a : Nat) (mask : BitVec 16) (data : Line) : State :=
  (List.range 8).foldl (fun s i =>
    let w := (data >>> (64 * i)).truncate 64
    let lo := mask.getLsbD (2 * i)
    let hi := mask.getLsbD (2 * i + 1)
    if lo && hi then s.poke op (a + 8 * i) (leBytes 8 w.toNat)
    else if lo then s.poke op (a + 8 * i) (leBytes 4 w.toNat)
    else if hi then s.poke op (a + 8 * i + 4) (leBytes 4 (w.toNat / 2 ^ 32))
    else s) s

def State.loadEffect (s : State) (op : Op) (f : LoadForm) (a : Nat) : Effect :=
  if s.isPoisoned a f.size then .trap s Cause.poison op.va else .of s [f.extend (s.num a f.size)]

/-- A block: a poisoned word traps where one of its lanes is active (09 R181, R193). -/
def State.vloadEffect (s : State) (op : Op) (mask : BitVec 16) (a : Nat) : Effect :=
  if (List.range 8).any (fun i => (mask.getLsbD (2 * i) || mask.getLsbD (2 * i + 1)) && s.isPoisoned (a + 8 * i) 8) then
    .trap s Cause.poison op.va
  else { s := s, ans := .reply (.done [BitVec.ofNat 512 (s.num a 64)]) }

/-! ## Waiter records (06 R133) -/

def Tile.waitersAt (tl : Tile) (a : Nat) : List Waiter := tl.waiters.filter (fun w => w.addr == a)

/-- Waiter records in use at a tile: those of words and objects, and those of receivers (06 R133, 11 R235). -/
def Tile.waiterCount (tl : Tile) : Nat :=
  tl.waiters.length + (tl.queues.map (fun q => q.2.waiters.length)).sum + (tl.dqueues.map (fun q => q.2.waiters.length)).sum

def State.enterWaiter (s : State) (op : Op) (a : Nat) : Effect :=
  if 4096 ≤ (s.tile op.owner).waiterCount then { s := s, ans := .reply .retry }
  else { s := s.mapTile op.owner (fun tl => { tl with waiters := tl.waiters ++ [{ op := op, addr := a }] }), ans := .waits }

def State.removeWaiter (s : State) (t : Nat) (w : Waiter) : State :=
  s.mapTile t (fun tl => { tl with waiters := tl.waiters.erase w })

/-! ## Full-empty forms (06 R132, R133) -/

/-- Whether a full-empty form can be performed on a word now. -/
def FeForm.ready (f : FeForm) (empty : Bool) : Bool :=
  match f with
  | .ldfe => !empty
  | .ldff => !empty
  | .stef => empty
  | .stff => true
  | .feprobe => true
  | .feset => true

/-- A full-empty form performed on its word: the state after, and the answer. -/
def State.feStep (s : State) (op : Op) (f : FeForm) (v : Dword) (a : Nat) : State × Reply :=
  let bad := s.isPoisoned a 8
  let word := (s.dword a).zeroExtend 512
  match f with
  | .ldfe => if bad then (s, .trap Cause.poison op.va) else (s.setEmpty a true, .done [word])
  | .ldff => if bad then (s, .trap Cause.poison op.va) else (s, .done [word])
  | .stef => ((s.poke op a (leBytes 8 v.toNat)).setEmpty a false, .done [])
  | .stff => ((s.poke op a (leBytes 8 v.toNat)).setEmpty a false, .done [])
  | .feprobe => if bad then (s, .trap Cause.poison op.va) else (s, .done [if s.isEmpty a then 0 else 1])
  | .feset => (s.setEmpty a (!v.getLsbD 0), .done [])

/-- Serves the waiters of a word in order of arrival until none can go (06 R133); `fuel` bounds how many. -/
def State.serveFe (s : State) (t a : Nat) (woken : List (Op × Reply)) : Nat → State × List (Op × Reply)
  | 0 => (s, woken)
  | fuel + 1 =>
    let next := ((s.tile t).waitersAt a).find? (fun w => match w.op.kind with
      | .fe f _ => f.ready (s.isEmpty a)
      | _ => false)
    match next with
    | none => (s, woken)
    | some w =>
      match w.op.kind with
      | .fe f v =>
        let (s, r) := (s.removeWaiter t w).feStep w.op f v a
        s.serveFe t a (woken ++ [(w.op, r)]) fuel
      | _ => (s, woken)

def State.feEffect (s : State) (op : Op) (f : FeForm) (v : Dword) (a : Nat) : Effect :=
  if f.ready (s.isEmpty a) then
    let (s', r) := s.feStep op f v a
    let (s'', woken) := s'.serveFe op.owner a [] (s'.tile op.owner).waiters.length
    { s := s'', ans := .reply r, woken := woken }
  else s.enterWaiter op a

/-! ## Atomics (07 R149, R150, R155) -/

/-- FMAX of the atomic unit and of combines: +0 above −0 (07 R150). -/
def fmaxBits (f : Fmt) (x y : Nat) : Nat := (f.minMax true x y).bits

/-- The new value of a word of the given size in bits (07 R149). -/
def amoNew (o : AmoOp) (w x v : Nat) : Nat :=
  let f := if w = 32 then f32 else f64
  match o with
  | .add => (x + v) % 2 ^ w
  | .and => x &&& v
  | .or => x ||| v
  | .xor => x ^^^ v
  | .minS => if intValue true w x ≤ intValue true w v then x else v
  | .minZ => min x v
  | .maxS => if intValue true w x ≤ intValue true w v then v else x
  | .maxZ => max x v
  | .xchg => v
  | .fadd => (f.add 0 x v).bits
  | .fmax => fmaxBits f x v

/-- The register a fetching atomic leaves (07 R149). -/
def amoResult (o : AmoOp) (size x : Nat) : Dword :=
  match o with
  | .fadd => BitVec.ofNat 64 x
  | .fmax => BitVec.ofNat 64 x
  | _ => sextTo64 (8 * size) x

/-- A poisoned word is not written; a fetching form traps, a posted one is discarded and acknowledged (07 R152, 14 R299). -/
def State.poisonedAtomic (s : State) (op : Op) (fetch : Bool) (reason : Nat) : Effect :=
  let s := s.reportDiscard op 4 reason
  if fetch then .trap s Cause.poison op.va else .of s []

def State.amoEffect (s : State) (op : Op) (o : AmoOp) (size : Nat) (v : Dword) (fetch : Bool) (a : Nat) : Effect :=
  if s.isPoisoned a size then s.poisonedAtomic op fetch 2
  else
    let x := s.num a size
    let s' := s.store a (leBytes size (amoNew o (8 * size) x (v.toNat % 2 ^ (8 * size))))
    .of s' (if fetch then [amoResult o size x] else [])

def State.casEffect (s : State) (op : Op) (size : Nat) (expected new : Dword) (a : Nat) : Effect :=
  if s.isPoisoned a size then s.poisonedAtomic op true 2
  else
    let x := s.num a size
    let s' := if x = expected.toNat % 2 ^ (8 * size) then s.store a (leBytes size new.toNat) else s
    .of s' [sextTo64 (8 * size) x]

/-! ## Barrier objects (07 R158 to R163) -/

/-- Combine operations 0 to 5 (07 R162). -/
def combine (cop : Nat) (w v : Dword) : Dword :=
  if cop = 0 then BitVec.ofNat 64 (fmaxBits f32 (field w 0 32) (field v 0 32))
  else if cop = 1 then maxS w v
  else if cop = 2 then minS w v
  else if cop = 3 then w + v
  else if cop = 4 then BitVec.ofNat 64 (f64.add 0 w.toNat v.toNat).bits
  else w ||| v

/-- Identity(COP) of 07 R160 and R162, 0 for codes 6 to 15 (23 R431). -/
def combineIdentity (cop : Nat) : Dword :=
  if cop = 0 then 0xFF800000
  else if cop = 1 then 0x8000000000000000
  else if cop = 2 then 0x7FFFFFFFFFFFFFFF
  else 0

/-- The two words of an object. -/
structure BarObj where
  w0 : Dword
  w1 : Dword
  deriving DecidableEq, Repr

def State.barObj (s : State) (a : Nat) : BarObj := { w0 := s.dword a, w1 := s.dword (a + 8) }
def State.setBarObj (s : State) (a : Nat) (b : BarObj) : State := (s.setDword a b.w0).setDword (a + 8) b.w1
def BarObj.phase (b : BarObj) : Nat := field b.w0 32 4

/-- What an arrival does to an object (07 R160): the object after, whether it overran, and the final value if the phase
completed. -/
def BarObj.arrive (b : BarObj) (c : Nat) (chk : Bool) (ph : Nat) (v : Option Dword) : BarObj × Bool × Option Dword :=
  let e := if field b.w0 0 16 = 0 then 65536 else field b.w0 0 16
  let cop := field b.w0 40 4
  if chk && ph != b.phase then ({ b with w0 := putField b.w0 36 1 1 }, true, none)
  else
    let arrived := field b.w0 16 16
    let spent := decide (e < arrived + c)
    let sum := if spent then e else arrived + c
    let w0 := if spent then putField b.w0 36 1 1 else b.w0
    let w1 := match v with
      | some v => if cop ≤ 5 then combine cop b.w1 v else b.w1
      | none => b.w1
    if sum = e then
      ({ w0 := putField (putField w0 32 4 (b.phase + 1)) 16 16 0
         w1 := combineIdentity cop }, spent, some w1)
    else ({ w0 := putField w0 16 16 sum, w1 := w1 }, spent, none)

/-- The phase a waiting form waits on. -/
def BarForm.waits : BarForm → Bool
  | .wait => true
  | .arrw => true
  | .cmbw => true
  | _ => false

/-- The phase a waiter's record names: rs2's for BAR.WAIT, the phase of its arrival for the others, kept in the record's
second operand (log 7). -/
def Waiter.phase (w : Waiter) : Nat :=
  match w.op.kind with
  | .bar .wait rs2 => field rs2 0 4
  | .bar _ rs2 => field rs2 60 4
  | _ => 0

/-- A waiter of a barrier object: a full-empty form or an arrival-word wait at the same word is none. -/
def Waiter.ofBar (w : Waiter) : Bool :=
  match w.op.kind with
  | .bar _ _ => true
  | _ => false

/-- The waiters of an object that a predicate on their phases chooses are released in order of arrival. -/
def State.releaseBar (s : State) (t a : Nat) (goes : Nat → Bool) (final w0 : Dword) : State × List (Op × Reply) :=
  let ws := ((s.tile t).waitersAt a).filter (fun w => w.ofBar && goes w.phase)
  let s := ws.foldl (fun s w => s.removeWaiter t w) s
  (s, ws.map (fun w => (w.op, .done [match w.op.kind with
    | .bar .cmbw _ => final.zeroExtend 512
    | _ => w0.zeroExtend 512])))

/-- An arrival at the owner, and whether its form then waits (07 R160, R161): one of count 0 too, on the current phase (DESIGN CHOICE, log
76). -/
def State.barArrive (s : State) (op : Op) (form : BarForm) (rs2 : Dword) (a : Nat) : Effect :=
  let b := s.barObj a
  let comb := form = .cmb || form = .cmbw
  let (b', ov, final) :=
    if comb then b.arrive 1 false 0 (some rs2)
    else b.arrive (field rs2 0 16) (rs2.getLsbD 20) (field rs2 16 4) none
  let w0 := if ov then b'.w0 ||| 0x8000000000000000 else b'.w0
  if form.waits && final.isNone && !ov && decide (4096 ≤ (s.tile op.owner).waiterCount) then
    { s := s, ans := .reply .retry }
  else
    let s := s.setBarObj a b'
    let (s, woken) := match final with
      | some v => s.releaseBar op.owner a (fun p => p == b.phase) v b'.w0
      | none => (s, [])
    if ov && b.w0.getLsbD 44 then { s := s, ans := .reply (.trap Cause.barrierOverrun op.va), woken := woken }
    else if !form.waits || ov then { s := s, ans := .reply (.done [w0.zeroExtend 512]), woken := woken }
    else match final with
      | some v => { s := s, ans := .reply (.done [(if comb then v else b'.w0).zeroExtend 512]), woken := woken }
      | none =>
        let rec' := { op with kind := .bar form (putField rs2 60 4 b.phase) }
        { (s.enterWaiter rec' a) with woken := woken }

def State.barEffect (s : State) (op : Op) (form : BarForm) (rs2 : Dword) (a : Nat) : Effect :=
  if s.isPoisoned a 16 then s.poisonedAtomic op true 3
  else
    match form with
    | .init =>
      let cop := field rs2 20 4
      let w0 := putField (putField (putField (putField 0 44 1 (field rs2 24 1)) 40 4 cop) 32 4 (field rs2 16 4)) 0 16 (field rs2 0 16)
      let s := s.setBarObj a { w0 := w0, w1 := combineIdentity cop }
      let (s, woken) := s.releaseBar op.owner a (fun p => p != field rs2 16 4) w0 w0
      { (Effect.of s []) with woken := woken }
    | .wait =>
      let b := s.barObj a
      if b.phase ≠ field rs2 0 4 then .of s [b.w0] else s.enterWaiter op a
    | _ => s.barArrive op form rs2 a

/-! ## Arrival words (12 R251 to R254) -/

/-- The completion test with b more bytes (12 R252): the words after, and whether a generation completed. -/
def arriveWords (w0 w1 : Dword) (b : Nat) (faulted : Bool) : Dword × Dword × Bool :=
  let w1 := if faulted then putField w1 17 1 1 else w1
  let cnt := field w0 32 32 + b
  let tgt := field w0 0 31
  if tgt = 0 then
    (putField w0 32 32 cnt, if 2 ^ 32 ≤ cnt then putField w1 16 1 1 else w1, false)
  else
    let k := cnt / tgt
    if k = 0 then (putField w0 32 32 cnt, w1, false)
    else
      let w1 := putField w1 0 16 (field w1 0 16 + k)
      (putField w0 32 32 (cnt - k * tgt), if 2 ≤ k then putField w1 16 1 1 else w1, true)

/-- The waiters of an arrival word whose generation has passed are released with word 1. -/
def State.releaseAw (s : State) (t a : Nat) (w1 : Dword) : State × List (Op × Reply) :=
  let ws := ((s.tile t).waitersAt a).filter (fun w => match w.op.kind with
    | .awWait g => g.toNat != field w1 0 16
    | _ => false)
  (ws.foldl (fun s w => s.removeWaiter t w) s, ws.map (fun w => (w.op, .done [w1.zeroExtend 512])))

/-- Bytes counted into the arrival word at a device address (12 R252). -/
def State.awArrive (s : State) (t a b : Nat) (faulted : Bool) : State × List (Op × Reply) :=
  let (w0, w1, full) := arriveWords (s.dword a) (s.dword (a + 8)) b faulted
  let s := (s.setDword a w0).setDword (a + 8) w1
  if full then s.releaseAw t a w1 else (s, [])

def State.awInitEffect (s : State) (op : Op) (rs2 : Dword) (a : Nat) : Effect :=
  if s.isPoisoned a 16 then s.poisonedAtomic op true 4
  else
    let clear := rs2.getLsbD 32
    let w0 := if clear then putField (s.dword a) 32 32 0 else s.dword a
    let w1 := if clear then putField (s.dword (a + 8)) 16 2 0 else s.dword (a + 8)
    let (w0, w1, full) := arriveWords (putField w0 0 31 (field rs2 0 31)) w1 0 false
    let s := (s.setDword a w0).setDword (a + 8) w1
    let (s, woken) := if full then s.releaseAw op.owner a w1 else (s, [])
    { (Effect.of s [w1]) with woken := woken }

def State.awWaitEffect (s : State) (op : Op) (gen : BitVec 16) (a : Nat) : Effect :=
  if s.isPoisoned a 16 then s.poisonedAtomic op true 4
  else
    let w1 := s.dword (a + 8)
    if field w1 0 16 ≠ gen.toNat then .of s [w1] else s.enterWaiter op a

/-! ## A Bookend's outbox (12 R268, R270) -/

/-- The oldest word is taken; a halt word, bit 63, stays. -/
def Bookend.takeOut (b : Bookend) : Option (Dword × Bookend) :=
  match b.outbox with
  | [] => none
  | w :: rest => some (w, if w.getLsbD 63 then b else { b with outbox := rest })

def Tile.bookend (tl : Tile) (b : Nat) : Bookend := tl.bookends.get {} b
def Tile.setBookend (tl : Tile) (b : Nat) (x : Bookend) : Tile := { tl with bookends := tl.bookends.set b x }

/-- SCWAIT at its tile: the oldest word, or a place among the waiters (12 R270). -/
def State.outboxEffect (s : State) (op : Op) (b : Nat) : Effect :=
  let tl := s.tile op.owner
  match (tl.bookend b).takeOut with
  | some (w, x) => .of (s.setTile op.owner (tl.setBookend b x)) [w]
  | none => { s := s.mapTile op.owner (fun tl => { tl with scWaiters := tl.scWaiters ++ [(b, op)] }), ans := .waits }

/-- Waiters of an outbox that holds a word are served in order of arrival. -/
def State.serveOutbox (s : State) (t b : Nat) (woken : List (Op × Reply)) : Nat → State × List (Op × Reply)
  | 0 => (s, woken)
  | fuel + 1 =>
    let tl := s.tile t
    match tl.scWaiters.find? (fun w => w.1 == b), (tl.bookend b).takeOut with
    | some w, some (v, x) =>
      (s.setTile t { tl.setBookend b x with scWaiters := tl.scWaiters.erase w }).serveOutbox t b
        (woken ++ [(w.2, .done [v.zeroExtend 512])]) fuel
    | _, _ => (s, woken)

end Sys2Proof.Machine
end

