-- ==== Sys2Proof/Machine/Dresser.lean ====
section
/-! DEFINITION. Queues at their owner: the rings of plain queues (11 R233 to R237), and the Dresser with its window, spill ring,
rounds and release in bands (11 R238 to R243, 17 R355 to R367). -/
namespace Sys2Proof.Machine

def lines (ws : List Dword) : List Line := ws.map (fun w => w.zeroExtend 512)

/-- TH_VALUE of QUEUE: the reason and the handle (11 R247). -/
def queueValue (reason : Nat) (h : Dword) : Dword := BitVec.ofNat 64 (reason * 2 ^ 56 + field h 0 32)
/-- TH_VALUE of QUEUE for a header address. -/
def headerValue (reason : Nat) (va : Dword) : Dword := BitVec.ofNat 64 (reason * 2 ^ 56 + field va 0 56)

def handleIndex (h : Dword) : Nat := field h 0 11
def handleOwner (h : Dword) : Nat := field h 12 20

def State.setPlain (s : State) (t i : Nat) (q : PlainQueue) : State :=
  s.mapTile t (fun tl => { tl with queues := tl.queues.set i q })
def State.setDQueue (s : State) (t i : Nat) (q : DQueue) : State :=
  s.mapTile t (fun tl => { tl with dqueues := tl.dqueues.set i q })

/-! ## Plain queues -/

/-- The registers an item leaves: the group and the status (11 R235). -/
def QItem.values : QItem → List Line
  | .record r => lines [r.w0, r.w1, r.w2, r.w3, 0]
  | .eos => lines [0, 0, 0, 0, 1]

/-- The registers left by an item that the ring delivers from its four words. -/
def QItem.valuesOf (x : QItem) (ws : List Dword) : List Line :=
  match x with
  | .record _ => lines (ws ++ [0])
  | .eos => lines [0, 0, 0, 0, 1]

def QItem.token : QItem → Nat
  | .record _ => 0
  | .eos => 1

/-- The 32 bytes of an item in the ring: a record's words, or zeros for a token (its bytes are a DESIGN CHOICE, log 35). -/
def QItem.words : QItem → List Dword
  | .record r => [r.w0, r.w1, r.w2, r.w3]
  | .eos => [0, 0, 0, 0]

/-- The device address of the ring's head. -/
def State.ringHead (s : State) (t i : Nat) (q : PlainQueue) : Nat := sramAt t ((s.tile t).plainBase i + 32 * q.head)

/-- The device address of the ring's place behind its last item. -/
def State.ringTail (s : State) (t i : Nat) (q : PlainQueue) : Nat :=
  sramAt t ((s.tile t).plainBase i + 32 * ((q.head + q.ring.length) % q.size))

/-- An item at the ring's tail: it goes to the oldest waiter, into the ring, or is refused (11 R233 to R236). -/
def State.queueAppend (s : State) (op : Op) (x : QItem) : Effect :=
  let i := handleIndex op.va
  match (s.tile op.owner).plain i with
  | none => { s := s.reportDiscard op 5 3, ans := .reply (.done []) }
  | some q =>
    match q.waiters with
    | w :: rest =>
      { s := (s.setPlain op.owner i { q with waiters := rest, eosOut := q.eosOut + x.token }).count op.owner 0x251
        ans := .reply (.done []), woken := [(w, .done x.values)] }
    | [] =>
      if q.ring.length < q.size then
        { s := (s.setPlain op.owner i { q with ring := q.ring ++ [x] }).putWords (s.ringTail op.owner i q) x.words
          ans := .reply (.done []) }
      else { s := s, ans := .refused }

/-- The item at the ring's head, or a waiter record (11 R235). A poisoned record stays where it is and the form traps POISON, with the handle
as its value (14 R299; DESIGN CHOICE, log 35). -/
def State.queueReceive (s : State) (op : Op) : Effect :=
  let i := handleIndex op.va
  match (s.tile op.owner).plain i with
  | none => .trap s Cause.queue (queueValue 3 op.va)
  | some q =>
    match q.ring with
    | x :: rest =>
      let a := s.ringHead op.owner i q
      let s := s.decodeRange a 32
      if s.isPoisoned a 32 then .trap s Cause.poison op.va
      else
        { s := (s.setPlain op.owner i { q with
              head := (q.head + 1) % q.size, ring := rest, eosOut := q.eosOut + x.token }).count op.owner 0x251
          ans := .reply (.done (x.valuesOf (s.dwords a 4))) }
    | [] =>
      if 4096 ≤ (s.tile op.owner).waiterCount then { s := s, ans := .reply .retry }
      else { s := s.setPlain op.owner i { q with waiters := q.waiters ++ [op] }, ans := .waits }

/-- QSTAT's word (11 R237). -/
def State.queueStat (s : State) (op : Op) : Effect :=
  match (s.tile op.owner).plain (handleIndex op.va) with
  | none => .trap s Cause.queue (queueValue 3 op.va)
  | some q => .of s [BitVec.ofNat 64 (min q.waiters.length 65535 * 2 ^ 48 + min q.eosOut 65535 * 2 ^ 32 + q.ring.length)]

/-! ## Entries of the Dresser -/

def DEntry.ofRec (r : QRec) : DEntry :=
  { key := r.w0, v1 := r.w1, v2 := r.w2, round := field r.w3 32 16, sum := (r.w3.truncate 32 : BitVec 32).toInt }

def DEntry.same (a b : DEntry) : Bool := a.key == b.key && a.v1 == b.v1 && a.v2 == b.v2 && a.round == b.round

/-- A change added as a 64-bit sum; outside the i32 range it stays at the limit, with OVF (11 R239). -/
def DEntry.add (e : DEntry) (d : Int) : DEntry :=
  let x := e.sum + d
  { e with sum := max (-2147483648) (min 2147483647 x), ovf := e.ovf || decide (x < -2147483648) || decide (2147483647 < x) }

/-- Word 3 of a delivered record (11 R238). -/
def DEntry.word3 (e : DEntry) : Dword :=
  BitVec.ofNat 64 ((BitVec.ofInt 32 e.sum).toNat + e.round * 2 ^ 32 + (if e.ovf then 2 ^ 48 else 0))

/-- The 32 bytes of an entry or a spilled record (11 R238, 17 R356, R357). -/
def DEntry.words (e : DEntry) : List Dword := [e.key, e.v1, e.v2, e.word3]

/-- The 32 bytes of a spilled item: a note has bit 51 of word 3 (17 R357). -/
def Spilled.words : Spilled → List Dword
  | .record e => e.words
  | .note r f => [0, 0, 0, BitVec.ofNat 64 (r * 2 ^ 32 + (if f then 2 ^ 50 else 0) + 2 ^ 51)]

/-- The item that the 32 bytes of a place in a spill ring hold (11 R238, 17 R357). -/
def Spilled.ofWords (bad : Bool) (ws : List Dword) : Spilled :=
  let w3 := ws.getD 3 0
  if w3.getLsbD 51 then .note (field w3 32 16) (w3.getLsbD 50)
  else .record { DEntry.ofRec { w0 := ws.getD 0 0, w1 := ws.getD 1 0, w2 := ws.getD 2 0, w3 := w3 } with
                 ovf := w3.getLsbD 48, poison := bad }

def Spilled.bad : Spilled → Bool
  | .record e => e.poison
  | .note _ _ => false

/-- The lowest free place of a window. -/
def freePlace (w : List DEntry) : Nat := ((List.range 1024).find? (fun p => w.all (fun e => e.place != p))).getD 0

/-- An entry's bytes in its window. -/
def State.putEntry (s : State) (t i : Nat) (e : DEntry) : State :=
  s.putWords (s.windowAt t i e.place) e.words

/-- The entries of a window that are not as they were are written. -/
def State.putWindow (s : State) (t i : Nat) (before after : List DEntry) : State :=
  (after.filter (fun e => !before.contains e)).foldl (fun s e => s.putEntry t i e) s

/-- The device address of the n-th place that a ring has written. -/
def State.spillAt (s : State) (t i : Nat) (q : DQueue) (n : Nat) : Nat :=
  vaultAt t ((s.tile t).spillBase i + 32 * (n % q.ringSize))

/-- A spilled item's bytes at the n-th place that a ring has written. -/
def State.putSpilled (s : State) (t i : Nat) (q : DQueue) (n : Nat) (x : Spilled) : State := s.putWords (s.spillAt t i q n) x.words

/-- The items of a ring as its bytes hold them, oldest first; one that is poisoned stays so (17 R366). -/
def State.readRing (s : State) (t i : Nat) (q : DQueue) : List Spilled :=
  q.ring.zipIdx.map (fun x =>
    let a := s.spillAt t i q (q.tail + q.ringSize - q.ring.length + x.2)
    Spilled.ofWords (x.1.bad || s.isPoisoned a 32) (s.dwords a 4))

/-- The items of a ring whose contents are to be others: those that stay are written again behind its tail. -/
def DQueue.respill (q : DQueue) (ring : List Spilled) : DQueue :=
  if ring = q.ring then q else { q with ring := ring, tail := q.tail + ring.length }

/-- The items that a ring has written since it was as `before` says. -/
def State.putRing (s : State) (t i : Nat) (before q : DQueue) : State :=
  let n := min (q.tail - before.tail) q.ring.length
  ((q.ring.drop (q.ring.length - n)).zipIdx).foldl (fun s x => s.putSpilled t i q (q.tail - n + x.2) x.1) s

/-- One step of CRC-32C over a bit, and over a byte (17 R361). -/
def crcBit (c : Nat) : Nat := if c % 2 = 1 then (c / 2) ^^^ 0x82F63B78 else c / 2
def crcByte (c : Nat) (b : Byte) : Nat :=
  crcBit (crcBit (crcBit (crcBit (crcBit (crcBit (crcBit (crcBit (c ^^^ b.toNat))))))))
def crc32c (bs : List Byte) : Nat := (bs.foldl crcByte 0xFFFFFFFF) ^^^ 0xFFFFFFFF

/-- The 224-bit band key (17 R361). -/
def DEntry.bandKey (e : DEntry) : Nat :=
  crc32c (leBytes 8 e.key.toNat ++ leBytes 8 e.v1.toNat ++ leBytes 8 e.v2.toNat) * 2 ^ 192 +
  e.key.toNat * 2 ^ 128 + e.v2.toNat * 2 ^ 64 + e.v1.toNat
def DEntry.inBand (e : DEntry) (t b : Nat) : Bool := e.bandKey / 2 ^ (224 - t) == b

/-- A record added into the entry that it matches; none where no entry matches. A sum of 0 removes the entry. The numbers
count a cancellation and a new OVF flag. -/
def absorb (e : DEntry) : List DEntry → Option (List DEntry × Nat × Nat)
  | [] => none
  | x :: rest =>
    if x.same e then
      let y := x.add e.sum
      let y := { y with ovf := y.ovf || e.ovf, poison := y.poison || e.poison }
      if y.sum = 0 then some (rest, 1, 0) else some (y :: rest, 0, if y.ovf && !x.ovf then 1 else 0)
    else (absorb e rest).map (fun r => (x :: r.1, r.2))

def Spilled.round : Spilled → Nat
  | .record e => e.round
  | .note r _ => r

/-! ## Rounds -/

def DQueue.distance (q : DQueue) (r : Nat) : Nat := (r + 65536 - q.base % 65536) % 65536

/-- Later than the released rounds allow, or after a final round whose release has begun (17 R358). -/
def DQueue.late (q : DQueue) (r : Nat) : Bool := decide (32768 ≤ q.distance r) || q.finalBegun.isSome

/-- Held records and notes that have become late: their issuers are no longer known, so the record names none (log 8). -/
def State.reportHeld (s : State) (t asid : Nat) (handle : Dword) (reason : Nat) : Nat → State
  | 0 => s
  | n + 1 =>
    ((s.addFault t { tid := 0xFFFFFFFF, asid := asid, seg := 0, kind := 5, reason := reason, lo := 0, va := handle
                     src := t, cls := clsPOST }).count t 0x255).reportHeld t asid handle reason n

def dHandle (t i : Nat) : Dword := BitVec.ofNat 64 (t * 4096 + 2048 + i)

/-- The notes of one round that the ring holds are counted in order, and those beyond P discarded with their final marks (11 R242, 17
R360). -/
def DQueue.readNotes (q : DQueue) (r : Nat) : DQueue × Nat :=
  let isNote := fun (x : Spilled) => match x with
    | .note ρ _ => ρ == r
    | .record _ => false
  let got := q.ring.filter isNote
  let n := q.notes.get 0 r + got.length
  ({ q.respill (q.ring.filter (fun x => !isNote x)) with
      notes := q.notes.set r (min n q.producers)
      finals := if (got.take (q.producers - q.notes.get 0 r)).any (fun x => match x with | .note _ f => f | .record _ => false) then addTo r q.finals else q.finals },
   n - q.producers)

/-- Begins the release of round B when its notes are complete and no release runs (17 R360). A stageless queue's release is
over at once (17 R363). -/
def State.beginRounds (s : State) (t i : Nat) : Nat → State
  | 0 => s
  | fuel + 1 =>
    match (s.tile t).dqueue i with
    | none => s
    | some q =>
      if q.rel.isSome || q.finalBegun.isSome || q.notes.get 0 q.base != q.producers then s
      else
        let r := q.base
        let fin := q.finals.contains r
        let asid := (s.tile t).asid.toNat
        let before := q
        let q := { q with base := (r + 1) % 65536, notes := q.notes.erase r, finals := dropFrom r q.finals }
        let mine := fun (x : Spilled) => x.round == r
        let (q, s) :=
          if fin then
            let lost := (q.window.filter (fun e => e.round != r)).length + (q.ring.filter (fun x => !mine x)).length +
              (q.notes.map (·.2)).sum
            ({ q.respill (q.ring.filter mine) with
                window := q.window.filter (fun e => e.round == r), notes := [], finals := [], finalBegun := some r },
             s.reportHeld t asid (dHandle t i) 7 lost)
          else
            let (q, excess) := q.readNotes ((r + 4) % 65536)
            (q, s.reportHeld t asid (dHandle t i) 8 excess)
        if q.staged then
          (s.setDQueue t i { q with rel := some { round := r, final := fin, passDue := !q.ring.isEmpty } }).putRing t i before q
        else
          let q := { q.respill (q.ring.filter (fun x => !mine x)) with
            window := q.window.filter (fun e => e.round != r), rrel := r, noneYet := false, finalDone := q.finalDone || fin }
          ((s.setDQueue t i q).putRing t i before q).beginRounds t i fuel

/-- A bound on the rounds whose notes can be complete. -/
def DQueue.roundsHeld (q : DQueue) : Nat := q.notes.length + q.ring.length + 4

def State.begin_ (s : State) (t i : Nat) : State :=
  match (s.tile t).dqueue i with
  | none => s
  | some q => s.beginRounds t i q.roundsHeld

/-! ## Delivery -/

/-- With no entry of the round left in the window the release moves to its next band, or its token is due (17 R361). -/
def climb (t b : Nat) : Nat → Nat × Nat
  | 0 => (t, b)
  | n + 1 => if t ≠ 0 && b % 2 = 1 then climb (t - 1) (b / 2) n else (t, b)

def DQueue.advance (q : DQueue) : DQueue :=
  match q.rel with
  | none => q
  | some r =>
    if r.passDue || r.tokenDue || q.window.any (fun e => e.round == r.round) then q
    else
      let (t, b) := climb r.t r.b r.t
      if t = 0 || q.ring.isEmpty then { q with rel := some { r with tokenDue := true } }
      else { q with rel := some { r with t := t, b := b + 1, passDue := true } }

/-- The release goes on to the entry of its round that it delivers next: the entry's line is read (14 R298), and a poisoned one is dropped
with a record (17 R366). The number bounds how many. -/
def State.dropPoisoned (s : State) (t i : Nat) : Nat → State
  | 0 => s
  | fuel + 1 =>
    let next := fun (q : DQueue) => match q.rel with
      | some r => if r.passDue then none else q.window.find? (fun e => e.round == r.round)
      | none => none
    match ((s.tile t).dqueue i).bind next with
    | none => s
    | some e =>
      let s := s.decodeRange (s.windowAt t i e.place) 32
      match (s.tile t).dqueue i with
      | none => s
      | some q =>
        match next q with
        | none => s
        | some e =>
          if !e.poison then s
          else
            ((s.addFault t
              { tid := 0xFFFFFFFF, asid := (s.tile t).asid.toNat, seg := 0, kind := 5, reason := 6, lo := 0, va := dHandle t i
                src := t, cls := clsPOST }).setDQueue t i { q with window := q.window.erase e }.advance).dropPoisoned t i fuel

/-- What the release has to deliver now: the registers' values, OVF, and the state after (11 R240, 17 R361). An entry is delivered from the
bytes at its place. -/
def State.dTake (s : State) (t i : Nat) : Option (List Line × Bool × State) :=
  match (s.tile t).dqueue i with
  | none => none
  | some q =>
    match q.rel with
    | none => none
    | some r =>
      if r.passDue then none
      else
        match q.window.find? (fun e => e.round == r.round) with
        | some e =>
          some (lines (s.dwords (s.windowAt t i e.place) 4 ++ [0]), e.ovf,
            s.setDQueue t i { q with window := q.window.erase e }.advance)
        | none =>
          if r.tokenDue then
            let w3 := BitVec.ofNat 64 (r.round * 2 ^ 32 + 2 ^ 49 + (if r.final then 2 ^ 50 else 0))
            some (lines [0, 0, 0, w3, if r.final then 2 else 1], false,
              (s.setDQueue t i { q with
                rel := none, rrel := r.round, noneYet := false, finalDone := q.finalDone || r.final }).begin_ t i)
          else none

/-- A delivered record with OVF traps after its results are written (11 R241). -/
def dReply (vals : List Line) (ovf : Bool) (handle : Dword) : Reply :=
  if ovf then .doneTrap vals Cause.dqOverflow handle else .done vals

/-- Waiting receivers are served while the release has something to deliver. -/
def State.serveD (s : State) (t i : Nat) (woken : List (Op × Reply)) : Nat → State × List (Op × Reply)
  | 0 => (s, woken)
  | fuel + 1 =>
    let s := s.dropPoisoned t i 1025
    match (s.tile t).dqueue i with
    | none => (s, woken)
    | some q =>
      match q.waiters with
      | [] => (s, woken)
      | w :: rest =>
        match s.dTake t i with
        | none => (s, woken)
        | some (vals, ovf, s) =>
          let s := match (s.tile t).dqueue i with
            | some q' => s.setDQueue t i { q' with waiters := rest }
            | none => s
          s.serveD t i (woken ++ [(w, dReply vals ovf w.va)]) fuel

def State.serveAllD (s : State) (t i : Nat) : State × List (Op × Reply) :=
  match (s.tile t).dqueue i with
  | some q => s.serveD t i [] q.waiters.length
  | none => (s, [])

/-- DRECV at the owner (11 R240). -/
def State.dReceive (s : State) (op : Op) : Effect :=
  let i := handleIndex op.va
  let s := s.dropPoisoned op.owner i 1025
  match (s.tile op.owner).dqueue i with
  | none => .trap s Cause.queue (queueValue 3 op.va)
  | some q =>
    match s.dTake op.owner i with
    | some (vals, ovf, s) => { s := s, ans := .reply (dReply vals ovf op.va) }
    | none =>
      if 4096 ≤ (s.tile op.owner).waiterCount then { s := s, ans := .reply .retry }
      else { s := s.setDQueue op.owner i { q with waiters := q.waiters ++ [op] }, ans := .waits }

/-! ## Arrivals -/

/-- A record to the spill ring; a full ring refuses it (17 R357, R358). -/
def State.dSpill (s : State) (op : Op) (i : Nat) (q : DQueue) (x : Spilled) (n : Nat) : Effect :=
  if q.ringSize ≤ q.ring.length then { s := s, ans := .refused }
  else { s := (((s.setDQueue op.owner i { q with ring := q.ring ++ [x], tail := q.tail + 1 }).putSpilled op.owner i q q.tail x).count
           op.owner 0x254).count op.owner 0x252 n
         ans := .reply (.done []) }

/-- The place in its spill ring that a record or note at the Dresser is about to take, if it takes one (17 R357, R358, R359). -/
def State.spills (s : State) (op : Op) (q : QueueOp) : Option Nat :=
  let i := handleIndex op.va
  match (s.tile op.owner).dqueue i with
  | none => none
  | some d =>
    let far := fun (r : Nat) => !d.late r && decide (4 ≤ d.distance r)
    let spilled := match q with
      | .dsend r =>
        let e := DEntry.ofRec r
        far e.round || (!d.late e.round && (absorb e d.window).isNone && (d.rel.isSome || decide (1024 ≤ d.window.length)))
      | .dseal r _ => far r
      | _ => false
    if spilled && decide (d.ring.length < d.ringSize) then some (s.spillAt op.owner i d d.tail) else none

/-- The entry that a record has been added into is written, where its sum is not 0. -/
def State.putSum (s : State) (t i : Nat) (e : DEntry) (w : List DEntry) (cancelled : Nat) : State :=
  match w.find? (fun x => x.same e) with
  | some y => if cancelled = 0 then s.putEntry t i y else s
  | none => s

/-- The window's entry that a record is added into is read (14 R298). -/
def State.readMatch (s : State) (t i : Nat) (e : DEntry) : State :=
  match ((s.tile t).dqueue i).bind (fun q => q.window.find? (fun x => x.same e)) with
  | some x => s.decodeRange (s.windowAt t i x.place) 32
  | none => s

/-- A record at the Dresser (11 R239, 17 R358, R359, R362). -/
def State.dRecord (s : State) (op : Op) (r : QRec) : Effect :=
  let i := handleIndex op.va
  let s := s.readMatch op.owner i (DEntry.ofRec r)
  match (s.tile op.owner).dqueue i with
  | none => { s := s.reportDiscard op 5 3, ans := .reply (.done []) }
  | some q =>
    let e := DEntry.ofRec r
    if q.late e.round then
      { s := ((s.reportDiscard op 5 7).count op.owner 0x255).count op.owner 0x252, ans := .reply (.done []) }
    else if 4 ≤ q.distance e.round then s.dSpill op i q (.record e) 1
    else
      match absorb e q.window with
      | some (w, cancelled, ovf) =>
        { s := ((((s.setDQueue op.owner i { q with window := w }).putSum op.owner i e w cancelled).count op.owner 0x252).count
            op.owner 0x253 cancelled).count op.owner 0x256 ovf
          ans := .reply (.done []) }
      | none =>
        if q.rel.isSome || decide (1024 ≤ q.window.length) then s.dSpill op i q (.record e) 1
        else
          let e := { e with place := freePlace q.window }
          { s := ((s.setDQueue op.owner i { q with window := q.window ++ [e] }).putEntry op.owner i e).count op.owner 0x252
            ans := .reply (.done []) }

/-- A round-close note (11 R242, 17 R358, R360). -/
def State.dNote (s : State) (op : Op) (round : Nat) (final : Bool) : Effect :=
  let i := handleIndex op.va
  match (s.tile op.owner).dqueue i with
  | none => { s := s.reportDiscard op 5 3, ans := .reply (.done []) }
  | some q =>
    if q.late round then { s := (s.reportDiscard op 5 7).count op.owner 0x255, ans := .reply (.done []) }
    else if 4 ≤ q.distance round then s.dSpill op i q (.note round final) 0
    else if q.producers ≤ q.notes.get 0 round then
      { s := (s.reportDiscard op 5 8).count op.owner 0x255, ans := .reply (.done []) }
    else
      let q := { q with
        notes := q.notes.set round (q.notes.get 0 round + 1), finals := if final then addTo round q.finals else q.finals }
      let (s, woken) := ((s.setDQueue op.owner i q).begin_ op.owner i).serveAllD op.owner i
      { s := s, ans := .reply (.done []), woken := woken }

/-- DQUIET's word (11 R243). -/
def State.dQuiet (s : State) (op : Op) : Effect :=
  match (s.tile op.owner).dqueue (handleIndex op.va) with
  | none => .trap s Cause.queue (queueValue 3 op.va)
  | some q =>
    let open_ := fun (r : Nat) => match q.rel with
      | some x => r != x.round
      | none => true
    let n := (q.window.filter (fun e => open_ e.round)).length +
      (q.ring.filter (fun x => match x with | .record e => open_ e.round | .note _ _ => false)).length
    .of s [BitVec.ofNat 64 ((if q.noneYet then 2 ^ 63 else 0) + (if q.finalDone then 2 ^ 62 else 0) +
      min n 65535 * 2 ^ 32 + q.rrel)]

/-! ## A pass over the spill ring (17 R361) -/

structure Pass where
  window : List DEntry
  /-- items kept in place, newest first, and items written back behind them -/
  kept : List Spilled
  back : List Spilled
  t : Nat
  b : Nat
  cancelled : Nat
  ovf : Nat

/-- Entries of other rounds, latest round first. -/
def othersLatestFirst (w : List DEntry) (base r : Nat) : List DEntry :=
  [3, 2, 1, 0].flatMap (fun d => w.filter (fun e => e.round != r && e.round == (base + d) % 65536))

def Pass.item (base r : Nat) (p : Pass) (x : Spilled) : Pass :=
  match x with
  | .note _ _ => { p with kept := x :: p.kept }
  | .record e =>
    if e.round != r || !e.inBand p.t p.b then { p with kept := x :: p.kept }
    else
      match absorb e p.window with
      | some (w, c, o) => { p with window := w, cancelled := p.cancelled + c, ovf := p.ovf + o }
      | none =>
        if p.window.length < 1024 then { p with window := p.window ++ [{ e with place := freePlace p.window }] }
        else
          let others := othersLatestFirst p.window base r
          if !others.isEmpty then
            let w := p.window.filter (fun y => y.round == r)
            { p with window := w ++ [{ e with place := freePlace w }], back := p.back ++ others.map .record }
          else
            let t := p.t + 1
            let b := 2 * p.b
            let out := p.window.filter (fun y => y.inBand t (b + 1))
            let w := p.window.filter (fun y => !y.inBand t (b + 1))
            if e.inBand t b then { p with window := w ++ [{ e with place := freePlace w }], back := p.back ++ out.map .record, t := t, b := b }
            else { p with window := w, back := p.back ++ out.map .record, kept := x :: p.kept, t := t, b := b }

/-- The lines of a window's entries are read (14 R298). -/
def State.readWindow (s : State) (t i : Nat) : State :=
  match (s.tile t).dqueue i with
  | some q => q.window.foldl (fun s e => s.decodeRange (s.windowAt t i e.place) 32) s
  | none => s

/-- The lines of the vault that hold a ring's items, in order. -/
def State.ringLines (s : State) (t i : Nat) (q : DQueue) : List Nat :=
  ((List.range q.ring.length).map (fun n =>
    let a := s.spillAt t i q (q.tail + q.ringSize - q.ring.length + n)
    a - a % 64)).eraseDups

/-- A pass reads the ring through the vault cache, line by line, as far as the pipeline takes them now (14 R302); whether all is in hand. -/
def State.readSpilled (s : State) (t i : Nat) : State × Bool :=
  match (s.tile t).dqueue i with
  | none => (s, false)
  | some q =>
    match q.rel with
    | none => (s, false)
    | some r =>
      let as := s.ringLines t i q
      let go := (as.drop r.touched).foldl (fun (x : State × Nat × Bool) a =>
        if !x.2.2 then x
        else match x.1.hutTouch t a 64 false with
          | .ok _ s => (s, x.2.1 + 1, true)
          | .stall s => (s, x.2.1, false)) (s, r.touched, true)
      let s := go.1.setDQueue t i { q with rel := some { r with touched := go.2.1 } }
      (s, go.2.2 && as.all (fun a => !s.missing a))

/-- The items that a ring has written since it was as `before` says go through the vault cache (14 R302); one that stalls there is not
presented again (DESIGN CHOICE, log 35). -/
def State.touchRing (s : State) (t i : Nat) (before q : DQueue) : State :=
  let new := min (q.tail - before.tail) q.ring.length
  (List.range new).foldl (fun s n =>
    match s.touch (s.spillAt t i q (q.tail - new + n)) 32 true with
    | .ok _ s => s
    | .stall _ => s) s

/-- The pass that a release has due, over the ring as its bytes hold it. -/
def State.bandPass (s : State) (t i : Nat) : State × List (Op × Reply) :=
  let s := s.readWindow t i
  match (s.tile t).dqueue i with
  | none => (s, [])
  | some q =>
    match q.rel with
    | none => (s, [])
    | some r =>
      if !r.passDue then (s, [])
      else
        let p := (s.readRing t i q).foldl (Pass.item q.base r.round)
          { window := q.window, kept := [], back := [], t := r.t, b := r.b, cancelled := 0, ovf := 0 }
        let before := q
        let q := { q.respill (p.kept.reverse ++ p.back) with
          window := p.window, rel := some { r with t := p.t, b := p.b, passDue := false, touched := 0 } }
        let s := (((s.setDQueue t i q.advance).putWindow t i before.window q.window).touchRing t i before q).putRing t i before q
        let s := (((s.count t 0x258).count t 0x254 p.back.length).count t 0x253 p.cancelled).count t
          0x256 p.ovf
        s.serveAllD t i

/-- Any queue form at its owner. -/
def State.queueEffect (s : State) (op : Op) (q : QueueOp) : Effect :=
  match q with
  | .send r => s.queueAppend op (.record r)
  | .eos => s.queueAppend op .eos
  | .recv => s.queueReceive op
  | .stat => s.queueStat op
  | .dsend r => s.dRecord op r
  | .dseal round final => s.dNote op round final
  | .drecv => s.dReceive op
  | .dquiet => s.dQuiet op

end Sys2Proof.Machine
end

