-- ==== Sys2Proof/Machine/Index.lean ====
section
/-! DEFINITION. Arrangement indexes at the owner of their header (11 R244 to R247, 17 R368 to R370, 25 R438). -/
namespace Sys2Proof.Machine

/-- How an index operation ends early. -/
inductive IdxStop where
  | trap (cause : BitVec 8) (value : Dword)
  | page (seg lo : Nat) (va : Dword)
  deriving DecidableEq, Repr

/-- An array of entries at the owner: its segment, first address and first local offset. -/
structure IdxArray where
  seg : Nat
  va : Dword
  lo : Nat
  cap : Nat
  deriving DecidableEq, Repr

/-- The header's words (17 R368). -/
structure IdxHeader where
  entries : Dword
  cap : Nat
  used : Nat
  spare : Dword
  live : Nat
  keys : Nat
  deriving DecidableEq, Repr

def State.idxHeader (s : State) (a : Nat) : IdxHeader :=
  let w := fun i => s.dword (a + 8 * i)
  { entries := w 0, cap := field (w 1) 0 32, used := field (w 1) 32 32, spare := w 2, live := field (w 4) 0 32
    keys := field (w 4) 32 32 }

def State.setIdxHeader (s : State) (a : Nat) (h : IdxHeader) : State :=
  let w := fun (s : State) (i n : Nat) => s.setDword (a + 8 * i) (BitVec.ofNat 64 n)
  w (w (w (w s 0 h.entries.toNat) 1 (h.cap + h.used * 2 ^ 32)) 2 h.spare.toNat) 4 (h.live + h.keys * 2 ^ 32)

/-- An array lies wholly at the owner, in tile memory of a segment of kind 1 or 3 that grants RD and W, aligned to 64 bytes. -/
def State.idxArray (s : State) (t : Nat) (va : Dword) (cap : Nat) : Option IdxArray :=
  let d := (s.tile t).seg (vaSeg va)
  let o := vaOff va
  let last := o + 32 * cap - 1
  if va.toNat % 64 ≠ 0 || (d.kind ≠ 1 && d.kind ≠ 3) || d.vault || !d.rd || !d.w || decide (d.limit < o + 32 * cap) then none
  else if d.kind = 1 && (d.owner t o != some t || (d.lw + d.lh + d.lm ≠ 0 && o / 2 ^ d.g ≠ last / 2 ^ d.g)) then none
  else some { seg := vaSeg va, va := va, lo := d.localOffset none o, cap := cap }

/-- The device address of an entry. Its page is looked up, and walked when the TLB does not hold it; a page that is not
present stops the operation until the walk's fault is settled (17 R368). -/
def State.idxAddr (s : State) (t : Nat) (r : IdxArray) (i : Nat) (write : Bool) : Except IdxStop (Nat × State) :=
  let tl := s.tile t
  let d := tl.seg r.seg
  let lo := r.lo + 32 * i
  let asid := tl.asid.toNat
  match s.translate t asid r.seg false write d.psize lo with
  | .at_ a s => .ok (a, s)
  | .miss =>
    let s := s.readNodes t r.seg d.psize lo
    match s.walk t r.seg d.vault d.psize lo write with
    | .present at_ leaf =>
      let s := ((s.fill t asid r.seg d.psize lo at_ leaf write).count t 0x270).count t 0x271
      .ok (devAddr t (if pteVault leaf then 1 else 0) (pteFrame leaf + lo % 2 ^ pageBits d.psize), s)
    | .fault _ => .error (.page r.seg lo (r.va + BitVec.ofNat 64 (32 * i)))

/-- Reading an entry; a poisoned one traps POISON (14 R299). -/
def State.idxGet (s : State) (t : Nat) (r : IdxArray) (header : Dword) (i : Nat) (write : Bool) :
    Except IdxStop (QRec × State) :=
  match s.idxAddr t r i write with
  | .error e => .error e
  | .ok (a, s) =>
    let s := s.decodeRange a 32
    if s.isPoisoned a 32 then .error (.trap Cause.poison header)
    else .ok ({ w0 := s.dword a, w1 := s.dword (a + 8), w2 := s.dword (a + 16), w3 := s.dword (a + 24) }, s)

def State.idxPut (s : State) (t : Nat) (r : IdxArray) (i : Nat) (e : QRec) : Except IdxStop State :=
  match s.idxAddr t r i true with
  | .error x => .error x
  | .ok (a, s) =>
    .ok (s.putWords a [e.w0, e.w1, e.w2, e.w3])

/-- A probe run: its entries with their slots, the first empty slot, and the state after its translations (17 R369). -/
def State.idxRun (s : State) (t : Nat) (r : IdxArray) (header : Dword) (write : Bool) (i : Nat) (acc : List (Nat × QRec)) :
    Nat → Except IdxStop (List (Nat × QRec) × Option Nat × State)
  | 0 => .ok (acc, none, s)
  | fuel + 1 =>
    match s.idxGet t r header i write with
    | .error e => .error e
    | .ok (e, s) =>
      if e.w3 = 0 then .ok (acc, some i, s)
      else s.idxRun t r header write ((i + 1) % r.cap) (acc ++ [(i, e)]) fuel

def idxHash (key : Dword) (cap : Nat) : Nat := crc32c (leBytes 8 key.toNat) % cap

def State.idxProbe (s : State) (t : Nat) (r : IdxArray) (header : Dword) (key : Dword) (write : Bool) :
    Except IdxStop (List (Nat × QRec) × Option Nat × State) :=
  s.idxRun t r header write (idxHash key r.cap) [] r.cap

def isKeyEntry (key : Dword) (e : QRec) : Bool := e.w3 == 1 && e.w0 == key
def isValueEntry (key : Dword) (e : QRec) : Bool := field e.w3 32 32 != 0 && e.w0 == key
def QRec.mult (e : QRec) : Int := (e.w3.truncate 32 : BitVec 32).toInt

/-- Header and both arrays keep the rules of 17 R368. -/
def State.idxLawful (s : State) (t a : Nat) (h : IdxHeader) : Option IdxArray :=
  let caps := (List.range 14).map (fun i => 2 ^ (6 + i))
  let zeros := [3, 5, 6, 7].all (fun i => s.dword (a + 8 * i) == 0)
  if !caps.contains h.cap || !zeros then none
  else if h.spare ≠ 0 && (s.idxArray t h.spare (2 * h.cap)).isNone then none
  else s.idxArray t h.entries h.cap

/-- Every key and value entry goes into the spare (17 R370). -/
def State.idxMove (s : State) (t : Nat) (old new : IdxArray) (header : Dword) (i : Nat) : Nat → Except IdxStop State
  | 0 => .ok s
  | fuel + 1 =>
    match s.idxGet t old header i true with
    | .error e => .error e
    | .ok (e, s) =>
      if e.w3 = 0 || e.w3 = 2 then s.idxMove t old new header (i + 1) fuel
      else
        match s.idxProbe t new header e.w0 true with
        | .error x => .error x
        | .ok (_, none, s) => s.idxMove t old new header (i + 1) fuel
        | .ok (_, some slot, s) =>
          match s.idxPut t new slot e with
          | .error x => .error x
          | .ok s => s.idxMove t old new header (i + 1) fuel

/-- Growth into the spare, or QUEUE with reason 4 (17 R370). -/
def State.idxGrow (s : State) (t a : Nat) (h : IdxHeader) (r : IdxArray) (header : Dword) :
    Except IdxStop (IdxHeader × IdxArray × State) :=
  if h.spare = 0 || decide (524288 ≤ h.cap) then .error (.trap Cause.queue (headerValue 4 header))
  else
    match s.idxArray t h.spare (2 * h.cap) with
    | none => .error (.trap Cause.segBounds header)
    | some new =>
      match s.idxMove t r new header 0 h.cap with
      | .error e => .error e
      | .ok s =>
        let h' := { h with entries := h.spare, spare := 0, cap := 2 * h.cap, used := h.keys + h.live }
        .ok (h', new, s.setIdxHeader a h')

/-- XUPD's word of old and new multiplicity (11 R244). -/
def updResult (old new : Int) : Dword := BitVec.ofNat 64 ((BitVec.ofInt 32 old).toNat * 2 ^ 32 + (BitVec.ofInt 32 new).toNat)

/-- Inserts a value entry: the key entry first when the key is new, each at the first empty slot (25 R438). -/
def State.idxInsert (s : State) (t a : Nat) (h : IdxHeader) (r : IdxArray) (header : Dword) (g : QRec) (d : Int) :
    Except IdxStop State :=
  match s.idxProbe t r header g.w0 true with
  | .error e => .error e
  | .ok (_, none, _) => .error (.trap Cause.queue (headerValue 4 header))
  | .ok (run, some free, s) =>
    let known := run.find? (fun x => isKeyEntry g.w0 x.2)
    let ke := match known with
      | some x => x.2
      | none => { w0 := g.w0, w1 := 0, w2 := 0, w3 := 1 }
    let n := field ke.w2 0 32 + 1
    let ke := { ke with
      w1 := ke.w1 + BitVec.ofInt 64 d, w2 := BitVec.ofNat 64 ((field ke.w2 32 32 + 1) * 2 ^ 32 + n) }
    let value : QRec := { g with w3 := BitVec.ofNat 64 (n * 2 ^ 32 + (BitVec.ofInt 32 d).toNat) }
    match s.idxPut t r (match known with | some x => x.1 | none => free) ke with
    | .error e => .error e
    | .ok s =>
      match s.idxProbe t r header g.w0 true with
      | .error e => .error e
      | .ok (_, none, _) => .error (.trap Cause.queue (headerValue 4 header))
      | .ok (_, some slot, s) =>
        match s.idxPut t r slot value with
        | .error e => .error e
        | .ok s =>
          let new := if known.isSome then 0 else 1
          .ok (s.setIdxHeader a { h with used := h.used + 1 + new, live := h.live + 1, keys := h.keys + new })

/-- XUPD (11 R244): the result and the state after. -/
def State.idxUpdate (s : State) (t a : Nat) (h : IdxHeader) (r : IdxArray) (header : Dword) (g : QRec) :
    Except IdxStop (List Dword × State) :=
  match s.idxProbe t r header g.w0 true with
  | .error e => .error e
  | .ok (run, _, s) =>
    let d := g.mult
    let ve := run.find? (fun x => isValueEntry g.w0 x.2 && x.2.w1 == g.w1 && x.2.w2 == g.w2)
    let ke := run.find? (fun x => isKeyEntry g.w0 x.2)
    let old := match ve with
      | some x => x.2.mult
      | none => 0
    let new := old + d
    if d = 0 then .ok ([updResult old old], s)
    else if new < -2147483648 || 2147483647 < new then .error (.trap Cause.dqOverflow header)
    else
      match ve, ke with
      | some (vi, v), some (ki, k) =>
        let count := field k.w2 32 32
        let gone := new = 0
        let v' : QRec := if gone then { w0 := 0, w1 := 0, w2 := 0, w3 := 2 }
          else { v with w3 := putField v.w3 0 32 (BitVec.ofInt 32 new).toNat }
        let k' : QRec := if gone && count = 1 then { w0 := 0, w1 := 0, w2 := 0, w3 := 2 }
          else { k with
            w1 := k.w1 + BitVec.ofInt 64 d, w2 := if gone then putField k.w2 32 32 (count - 1) else k.w2 }
        match s.idxPut t r vi v' with
        | .error e => .error e
        | .ok s =>
          match s.idxPut t r ki k' with
          | .error e => .error e
          | .ok s =>
            let h' := { h with
              live := if gone then h.live - 1 else h.live, keys := if gone && count = 1 then h.keys - 1 else h.keys }
            .ok ([updResult old new], s.setIdxHeader a h')
      | _, _ =>
        let last := match ke with
          | some x => field x.2.w2 0 32
          | none => 0
        let need := if ke.isSome then 1 else 2
        if last = 4294967295 then .error (.trap Cause.queue (headerValue 5 header))
        else if 3 * h.cap / 4 < h.used + need then
          match s.idxGrow t a h r header with
          | .error e => .error e
          | .ok (h, r, s) =>
            match s.idxInsert t a h r header g d with
            | .error e => .error e
            | .ok s => .ok ([updResult old new], s)
        else
          match s.idxInsert t a h r header g d with
          | .error e => .error e
          | .ok s => .ok ([updResult old new], s)

/-- XSCAN (11 R245): the entry of the key with the lowest insertion number at or above the cursor. -/
def scanBest (key : Dword) (cursor : Nat) (run : List (Nat × QRec)) : Option QRec :=
  (run.filter (fun x => isValueEntry key x.2 && decide (cursor ≤ field x.2.w3 32 32))).foldl
    (fun b x => match b with
      | some y => if field x.2.w3 32 32 < field y.w3 32 32 then some x.2 else some y
      | none => some x.2) none

def scanResult (b : Option QRec) : List Dword :=
  match b with
  | some e => [e.w1, e.w2, BitVec.ofNat 64 ((field e.w3 32 32 + 1) * 2 ^ 32 + field e.w3 0 32)]
  | none => [0, 0, 0]

/-- An index form on the header at a device address. -/
def State.indexEffect (s : State) (op : Op) (x : IndexOp) (a : Nat) : Effect :=
  let t := op.owner
  let h := s.idxHeader a
  if s.isPoisoned a 64 then .trap s Cause.poison op.va
  else
    match s.idxLawful t a h with
    | none => .trap s Cause.segBounds op.va
    | some r =>
      let res : Except IdxStop (List Dword × State) := match x with
        | .upd g => s.idxUpdate t a h r op.va g
        | .scan key cursor =>
          match s.idxProbe t r op.va key false with
          | .error e => .error e
          | .ok (run, _, s) => .ok (scanResult (scanBest key cursor run), s)
        | .cnt key =>
          match s.idxProbe t r op.va key false with
          | .error e => .error e
          | .ok (run, _, s) => .ok ([match run.find? (fun (x : Nat × QRec) => isKeyEntry key x.2) with | some e => e.2.w1 | none => 0], s)
      match res with
      | .ok (vals, s') => .of s' vals
      | .error (.trap c v) => .trap s c v
      | .error (.page seg lo va) => { s := s, ans := .page seg lo va (match x with | .upd _ => true | _ => false) }

end Sys2Proof.Machine
end

