-- ==== Sys2Proof/Machine/Access.lean ====
section
/-! DEFINITION. The path of an access (06 R128, R129): its checks, the pipeline of the owner, the store buffer, remote and
posted operations, migration, and how answers reach the thread that waits. -/
namespace Sys2Proof.Machine

/-! ## Operations -/

def OpKind.size : OpKind → Nat
  | .load f => f.size
  | .store n _ => n
  | .vload _ => 64
  | .vstore _ _ => 64
  | .fe _ _ => 8
  | .amo _ n _ _ => n
  | .cas n _ _ => n
  | .bar _ _ => 16
  | .awInit _ => 16
  | .awWait _ => 16
  | .queue _ => 0
  | .index _ => 64
  | .arrive => 0
  | .quota => 0
  | .hbar => 0
  | .outbox _ => 0
  | .hostRead n => n
  | .hostWrite bs => bs.length

/-- An index operation. -/
def OpKind.isIndex : OpKind → Bool
  | .index _ => true
  | _ => false

/-- A write in the sense of 16 R336. -/
def OpKind.writes : OpKind → Bool
  | .load _ => false
  | .store _ _ => true
  | .vload _ => false
  | .vstore _ _ => true
  | .fe f _ => f != .ldff && f != .feprobe
  | .amo _ _ _ _ => true
  | .cas _ _ _ => true
  | .bar f _ => f != .wait
  | .awInit _ => true
  | .awWait _ => false
  | .queue _ => false
  | .index (.upd _) => true
  | .index _ => false
  | .arrive => false
  | .quota => false
  | .hbar => false
  | .outbox _ => false
  | .hostRead _ => false
  | .hostWrite _ => true

/-- Names an address that is translated; queue forms and plain arrivals do not. -/
def OpKind.addressed : OpKind → Bool
  | .queue _ => false
  | .arrive => false
  | .quota => false
  | .hbar => false
  | .outbox _ => false
  | _ => true

/-- A memory read for "loads returned" (07 R157). -/
def OpKind.reads : OpKind → Bool
  | .store _ _ => false
  | .vstore _ _ => false
  | .queue _ => false
  | .index _ => false
  | .arrive => false
  | .quota => false
  | .hbar => false
  | .outbox _ => false
  | .awInit _ => false
  | .awWait _ => false
  | .hostWrite _ => false
  | _ => true

/-- A form whose answer waits for the fill of the vault line that it reads; a store's, a posted atomic's and that of a record which is
spilled do not (14 R299, R303). -/
def OpKind.needsFill : OpKind → Bool
  | .store _ _ => false
  | .vstore _ _ => false
  | .amo _ _ _ fetch => fetch
  | .queue _ => false
  | .hostWrite _ => false
  | _ => true

/-- The state in which a thread waits for the form (01 R25). -/
def OpKind.waitState : OpKind → TState
  | .fe _ _ => .feWait
  | .awWait _ => .feWait
  | .bar f _ => if f.waits then .barWait else .remoteWait
  | .hbar => .barWait
  | .outbox _ => .qWait
  | .queue .recv => .qWait
  | .queue .drecv => .qWait
  | _ => .remoteWait

/-- The device address of an operation at its owner. -/
def State.locate (s : State) (op : Op) : Xlate :=
  if !op.kind.addressed then .at_ 0 s
  else if op.device then .at_ op.lo s
  else
    s.translate op.owner op.asid op.seg op.map.scratch op.kind.writes op.map.psize op.lo

/-- Forms that read what they write: their word is never replaced unread (14 R299). -/
def OpKind.readsFirst : OpKind → Bool
  | .amo _ _ _ _ => true
  | .cas _ _ _ => true
  | .bar _ _ => true
  | .awInit _ => true
  | _ => false

/-- The cache or the pipeline takes an operation at its address; an index header is read before it is written (17 R368), and what the Dresser
spills is written through the vault cache (14 R302). -/
def State.touchOp (s : State) (op : Op) (a : Nat) : Touch :=
  match op.kind with
  | .vload m => s.touch a 64 false (some m)
  | .vstore m _ => s.touch a 64 true (some m)
  | .index _ => s.touch a 64 false
  | .queue q =>
    match s.spills op q with
    | some p => s.touch p 32 true
    | none => .ok none s
  | k => s.touch a k.size k.writes none k.readsFirst

/-- The reason with which an operation on poisoned words is discarded or refused (14 R299): none for one that only reads. -/
def OpKind.discard : OpKind → Option Nat
  | .store _ _ => some 1
  | .vstore _ _ => some 1
  | .amo _ _ _ _ => some 2
  | .cas _ _ _ => some 2
  | _ => none

/-- A write of a part of a word joins the miss of its line: a fill that poisons the word discards it (14 R299, R303). -/
def State.noteNarrow (s : State) (op : Op) (gate : Option Gate) : State :=
  match gate with
  | some g =>
    if op.kind.discard.isNone then s
    else s.mapTile op.owner (fun tl => { tl with vc :=
      { tl.vc with misses := tl.vc.misses.map (fun m => if m.line == g.line then { m with narrow := m.narrow ++ [(op, g.words)] } else m) } })
  | none => s

/-- The operation performed on its address: one place in the owner order (13 R280). -/
def State.effect (s : State) (op : Op) (a : Nat) : Effect :=
  match op.kind with
  | .load f => s.loadEffect op f a
  | .store n v => .of (s.poke op a (leBytes n v.toNat)) []
  | .vload m => s.vloadEffect op m a
  | .vstore m v => .of (s.pokeLanes op a m v) []
  | .fe f v => s.feEffect op f v a
  | .amo o n v fetch => s.amoEffect op o n v fetch a
  | .cas n e v => s.casEffect op n e v a
  | .bar f v => s.barEffect op f v a
  | .awInit v => s.awInitEffect op v a
  | .awWait g => s.awWaitEffect op g a
  | .queue q => s.queueEffect op q
  | .index x => s.indexEffect op x a
  | .arrive => .of s []
  | .quota => .of s []
  | .hbar => .of s []
  | .outbox b => s.outboxEffect op b
  | .hostRead n =>
    let v := [BitVec.ofNat 512 (s.num a n)]
    { s := s, ans := .reply (if s.isPoisoned a n then .doneTrap v Cause.poison op.va else .done v) }
  | .hostWrite bs => .of (s.pokeWords op a bs) []

/-! ## Completion at the thread -/

/-- Cycles for which the partition has been resident at a tile (07 R168, 06 R134). -/
def State.residentCycles (s : State) (t : Nat) : Nat :=
  let tl := s.tile t
  if tl.gang == .running && tl.segValid then tl.residentCount + (s.time - tl.residentAt) else tl.residentCount

/-- The lanes of a loaded block that are active, over the old value (09 R181). -/
def mergeLanes (mask : BitVec 16) (old new : Line) : Line :=
  let sel := (List.range 16).foldl (fun (m : Line) i =>
    if mask.getLsbD i then m ||| (0xFFFFFFFF : Line) <<< (32 * i) else m) 0
  (new &&& sel) ||| (old &&& ~~~ sel)

/-- The destinations that a form writes: XSCAN leaves its group's first register unchanged (11 R245). -/
def WaitRec.written (w : WaitRec) : List Dest :=
  match w.op.kind with
  | .index (.scan _ _) => w.dests.tail
  | _ => w.dests

/-- The register writes of a form from the values of its answer. -/
def WaitRec.results (w : WaitRec) (vals : List Line) : List RegWrite :=
  (w.written.zip vals).map (fun e => match e.1 with
    | .v n => .to (.v n) (mergeLanes w.mask w.old e.2)
    | d => .to d e.2)

/-- A passing access that stays decrements a PINCNT of 1 to 62 (06 R128, R138). -/
def Thread.unpin (th : Thread) (pin : Bool) : Thread :=
  if pin && decide (1 ≤ th.pincnt.toNat) && decide (th.pincnt.toNat ≤ 62) then { th with pincnt := th.pincnt - 1 } else th

/-- The form is complete: its results are written, or pend, and the PC is past it. A SPAWN that has taken its quota goes on
with the draw of its number instead (11 R227). -/
def Thread.complete (th : Thread) (w : WaitRec) (vals : List Line) : Thread :=
  if w.op.kind = .quota then { th with wait := none, st := .ready, quotaTaken := true }
  else
    let th' := { th.unpin w.pin with
      pc := th.pc + BitVec.ofNat 48 w.size, g0slot := 0, wait := none, st := .ready, walking := false }
    if w.direct then th'.writes (w.results vals)
    else th'.await { tag := 0, dests := live w.dests, ready := w.bind.isNone, writes := w.results vals, mem := w.op.kind.reads
                     acq := w.acq, gates := w.gates, bad := w.bad, pc := th.pc, bind := w.bind }

/-- The form traps; no register changes (06 R142). -/
def State.fail (s : State) (t c k : Nat) (cause : BitVec 8) (value : Dword) : State :=
  s.trapAt t c k cause value (s.thread t c k).pc

/-- A 32-bit lane replaced (01 R23). -/
def setLane (v : Line) (i : Nat) (x : Line) : Line :=
  (v &&& ~~~ (BitVec.shiftLeft 0xFFFFFFFF (32 * i))) ||| BitVec.shiftLeft (x &&& 0xFFFFFFFF) (32 * i)

/-- The vector that the returned elements of an element-wise load make (09 R194). -/
def WaitRec.gathered (w : WaitRec) : Line :=
  w.got.foldl (fun (v : Line) (e : Nat × Line) => setLane v e.1 e.2) w.old

/-- The words of a block in order. -/
def WaitRec.words (w : WaitRec) : List Dword :=
  (List.range w.got.length).map (fun i => ((w.got.find? (fun e => e.1 == i)).map (fun e => e.2.truncate 64)).getD 0)

/-- What a thread was doing, halted or not. -/
def Thread.doing (th : Thread) : TState := if th.st == .halted then th.haltedFrom else th.st
def Thread.setDoing (th : Thread) (x : TState) : Thread := if th.st == .halted then { th with haltedFrom := x } else { th with st := x }

/-- A thread that was HALTED stays so, and goes on in its new state when its core resumes (16 R332, 19 R410). -/
def State.stayHalted (s : State) (t c k : Nat) (was : TState) : State :=
  let th := s.thread t c k
  if was == .halted && th.st != .halted then s.setThread t c k { th with st := .halted, haltedFrom := th.st } else s

/-- The last element is done: the vector is written, once the queue entry is bound (09 R183), or pends while lines are filled, or the trap
that an element brought is taken once every other has returned (09 R194, R195). A block that has been read goes to its form, which is presented again. -/
def State.elementsDone (s : State) (t c k : Nat) : State :=
  let th := s.thread t c k
  match th.wait with
  | none => s
  | some w =>
    if !w.todo.isEmpty || !w.lanes.isEmpty then s
    else if (w.direct || w.block || w.bad.isSome) && (!w.gates.isEmpty || (w.direct && w.bind.isSome)) then
      s.setThread t c k { th with st := if th.st == .halted then .halted else .remoteWait }
    else
      match w.bad with
      | some (cause, value) => (s.fail t c k cause value).stayHalted t c k th.st
      | none =>
        if w.block then
          (s.setThread t c k { th with wait := none, walking := false, st := .ready, block := some w.words }).stayHalted t c k th.st
        else
          (s.setThread t c k (th.complete { w with mask := 0xFFFF } (if w.dests.isEmpty then [] else [w.gathered]))).stayHalted
            t c k th.st

/-- One element's answer. Of several elements that bring a trap the first to answer gives its cause and address (DESIGN CHOICE, log 69: 09
R195 names none). -/
def WaitRec.element (w : WaitRec) (lane : Nat) (r : Reply) : WaitRec :=
  match r with
  | .done vals => { w with got := w.got ++ [(lane, vals.headD 0)] }
  | .trap cause value => { w with bad := if w.bad.isSome then w.bad else some (cause, value) }
  | _ => w

/-- The answer of the whole form reaches its thread. -/
def State.finish (s : State) (t c k : Nat) (r : Reply) : State :=
  let th := s.thread t c k
  match th.wait with
  | none => s
  | some w =>
    let s1 := match r with
      | .done vals => s.setThread t c k (th.complete w vals)
      | .trap cause value => s.fail t c k cause value
      | .doneTrap vals cause value =>
        (s.setThread t c k (th.complete w vals)).trapAt t c k cause value (th.pc + BitVec.ofNat 48 w.size)
      | .retry => s.setThread t c k { th with
          wait := some { w with retry := true, direct := true, withdrawn := false, retryAt := s.residentCycles t + 256 }
          st := w.op.kind.waitState }
    s1.stayHalted t c k th.st

def Tile.mapCores (tl : Tile) (f : Nat → Core → Core) : Tile := { tl with cores := tl.cores.map (fun e => (e.1, f e.1 e.2)) }

/-- A thread of the tile wherever it is held: in a slot, in the parked area, in the Hutch or being loaded. -/
def Tile.mapTid (tl : Tile) (tid : BitVec 32) (f : Thread → Thread) : Tile :=
  let g := fun (th : Thread) => if th.tid == tid then f th else th
  let held := fun (h : Held) => { h with ctx := { h.ctx with th := g h.ctx.th } }
  let tl := tl.mapThreads (fun _ _ th => g th)
  let tl := tl.mapCores (fun _ co => { co with loading := co.loading.map (fun l => (l.1, held l.2)) })
  { tl with parkedArea := tl.parkedArea.map (fun e => (e.1, g e.2)), hutch := tl.hutch.map held }

/-! ## Answers from an owner -/

/-- The thread awaits the answer with this tag. -/
def Thread.awaits (th : Thread) (tid : BitVec 32) (tag : Nat) : Bool :=
  th.tid == tid && (match th.wait with
    | some w => (match w.op.origin with
      | .thread _ _ g => g == tag
      | _ => false)
    | none => false)

/-- The slot of a tile whose thread awaits an answer. -/
def Tile.waiting (tl : Tile) (tid : BitVec 32) (tag : Nat) : Option (Nat × Nat) :=
  (tl.threads.find? (fun e => e.2.2.awaits tid tag)).map (fun e => (e.1, e.2.1))

/-- The answer goes into the wait record of a thread that awaits it. -/
def Thread.answered (th : Thread) (tid : BitVec 32) (tag : Nat) (r : Reply) : Thread :=
  if th.awaits tid tag then { th with wait := th.wait.map (fun w => { w with answer := some r }) } else th

/-- A parked thread's form found no waiter record: it is presented again later (06 R133). -/
def Thread.retried (th : Thread) (tid : BitVec 32) (tag at_ : Nat) : Thread :=
  if th.awaits tid tag then
    { th with wait := th.wait.map (fun w => { w with retry := true, direct := true, withdrawn := false, retryAt := at_ }) }
  else th

/-- Looks again at the holds of every core of a tile. -/
def State.refreshTile (s : State) (t : Nat) : State := (List.range 4).foldl (fun s c => s.refreshCore t c) s

/-- The answer of a form whose thread waits at this tile: in a slot, or on its way back to one, or in the parked area, where a
message to its own tile wakes it (15 R328). -/
def State.answerHere (s : State) (t : Nat) (tid : BitVec 32) (tag : Nat) (r : Reply) : State :=
  match (s.tile t).waiting tid tag with
  | some (c, k) => s.finish t c k r
  | none =>
    let parked := (s.tile t).parkedArea.any (fun e => e.2.awaits tid tag)
    let put := fun (th : Thread) => th.answered tid tag r
    let now := s.residentCycles t
    let keep := fun (th : Thread) => if r = .retry then th.retried tid tag (now + 256) else put th
    let s := s.mapTile t (fun tl => { tl with
      parkedArea := tl.parkedArea.map (fun e => (e.1, keep e.2))
      hutch := tl.hutch.map (fun h => { h with ctx := { h.ctx with th := put h.ctx.th } })
      cores := tl.cores.map (fun e => (e.1, { e.2 with
        loading := e.2.loading.map (fun l => (l.1, { l.2 with ctx := { l.2.ctx with th := put l.2.ctx.th } })) })) })
    if parked && r != .retry then s.send clsSYS t t (s.tile t).asid.toNat 1 (.wake tid false none) else s

/-- The number of the Bookend that sent an operation. -/
def Origin.bookend? : Origin → Option Nat
  | .bookend _ b _ => some b
  | _ => none

def Origin.tile : Origin → Nat
  | .thread t _ _ => t
  | .bookend t _ _ => t
  | .host md _ _ => Config.tileName md 0 0

/-- Flits of a response: one of more than 8 bytes, to a VLD or a read by the host, has two (18 R375). -/
def Op.flits (op : Op) : Nat :=
  match op.kind with
  | .vload _ => 2
  | .hostRead n => if 8 < n then 2 else 1
  | _ => 1

/-- The answer to an operation leaves its owner by the way the operation came (06 R129, 07 R146). -/
def State.reply (s : State) (op : Op) (r : Reply) (gate : Option Gate) : State :=
  match op.path with
  | .here =>
    match op.origin with
    | .thread _ tid tag => s.answerHere op.owner tid tag r
    | _ => s
  | .remote =>
    match op.origin with
    | .thread t tid tag => s.sendAfter gate op.va clsRSP op.owner t op.asid op.flits (.response tid tag op.lane r)
    | .bookend t b tag => s.sendAfter gate op.va clsRSP op.owner t op.asid op.flits (.bkResponse b tag r)
    | .host md port tag => s.sendAfter gate op.va clsRSP op.owner (Config.tileName md 0 0) op.asid op.flits (.hostResponse md port tag op.kind.size r)
  | .posted =>
    let denied := match r with
      | .trap _ v => some v
      | _ => none
    match op.origin with
    | .host _ _ _ => s
    | o => s.sendAfter gate op.va clsPOST op.owner o.tile op.asid 1 (.ack o denied)

/-- Waiters served by another operation get their answers in order. -/
def State.wakeAll (s : State) (ws : List (Op × Reply)) : State := ws.foldl (fun s w => s.reply w.1 w.2 none) s

def OpKind.isQueue : OpKind → Bool
  | .queue _ => true
  | _ => false

def Origin.sameThread : Origin → Origin → Bool
  | .thread _ a _, .thread _ b _ => a == b
  | _, _ => false

/-- A posted operation is performed after an earlier one to its owner: of its thread (13 R285), or to the same queue (11 R234). -/
def Op.follows (x y : Op) : Bool :=
  x.owner == y.owner && (x.origin.sameThread y.origin || (x.kind.isQueue && y.kind.isQueue && x.va == y.va))

/-- The operations of a list, in order, that follow some held ones or one another. -/
def followers (held : List Op) (xs : List Op) : List Op :=
  xs.foldl (fun h x => if h.any x.follows then h ++ [x] else h) held

/-- A refused queue record goes to its sending tile's resend buffer, with what follows it there and with those already on their way (11 R234,
13 R285). -/
def State.takeBack (s : State) (op : Op) : State :=
  let ofNet := fun (p : Packet) => match p.body with
    | .posted x => if x.path == .posted && x.src == op.src && x.owner == op.owner then some x else none
    | _ => none
  let sent := (s.net.filter (fun p => (ofNet p).isSome)).mergeSort (fun p q => decide (p.born ≤ q.born))
  let held := followers [op] ((s.tile op.owner).faultBuf.filterMap (fun e => ofNet e.p) ++ sent.filterMap ofNet)
  let back := fun (p : Packet) => match ofNet p with
    | some x => held.contains x
    | none => false
  let s := { s with net := s.net.filter (fun p => !back p) }
  let s := s.mapTile op.owner (fun tl => { tl with faultBuf := tl.faultBuf.filter (fun e => !back e.p) })
  s.mapTile op.src (fun tl =>
    let after := fun (x : Nat × Op) => held.any x.2.follows
    { tl with resend := tl.resend.takeWhile (fun x => !after x) ++ held.map (fun x => (s.residentCycles op.src + 256, x)) ++
        tl.resend.dropWhile (fun x => !after x) })

/-! ## The store buffer (13 R282) -/

/-- How an access of n bytes meets the entries of its core's store buffer. -/
inductive Meets where
  | clear
  /-- the youngest overlapping entry covers it: position and bytes -/
  | covered (pos : Nat) (bytes : List Byte)
  /-- it waits until every overlapping entry has drained -/
  | until_ (pos : Nat)
  deriving DecidableEq, Repr

/-- The byte an entry writes at an address. -/
def SbEntry.at_ (e : SbEntry) (a : Nat) : Option Byte := if e.addr ≤ a then e.bytes.getD (a - e.addr) none else none

/-- The bytes of its size that an access takes part in: those of active lanes for a block (09 R193; DEDUCED, log
80). -/
def OpKind.covers (k : OpKind) (i : Nat) : Bool :=
  match k with
  | .vload m => m.getLsbD (i / 4)
  | .vstore m _ => m.getLsbD (i / 4)
  | _ => true

def SbEntry.overlaps (e : SbEntry) (kind : OpKind) (a : Nat) : Bool :=
  (List.range kind.size).any (fun i => kind.covers i && (e.at_ (a + i)).isSome)

/-- An access that issued when the buffer stood at position `before` meets the entries that entered before it. A load takes its bytes from
the youngest that overlaps where that one covers them; an element of an element-wise form never does (13 R282). -/
def Core.meets (co : Core) (kind : OpKind) (a before : Nat) (element : Bool) : Meets :=
  match (co.sb.filter (fun e => decide (e.pos < before) && e.overlaps kind a)).getLast? with
  | none => .clear
  | some e =>
    let bs := (List.range kind.size).map (fun i => if kind.covers i then e.at_ (a + i) else some 0)
    let load := !element && (match kind with
      | .load _ => true
      | .vload _ => true
      | _ => false)
    if load && bs.all Option.isSome then .covered e.pos (bs.map (fun b => b.getD 0)) else .until_ e.pos

/-- The last entry that entered before an index operation and overlaps an array that its header names (13 R282, 17 R368): one of the same
segment, at the local offsets of the array. -/
def State.indexMeets (s : State) (t : Nat) (co : Core) (kind : OpKind) (a before : Nat) : Option Nat :=
  match kind with
  | .index _ =>
    let h := s.idxHeader a
    let arrays := [s.idxArray t h.entries h.cap, s.idxArray t h.spare (2 * h.cap)].filterMap id
    ((co.sb.filter (fun e => decide (e.pos < before) && arrays.any (fun r =>
      r.seg == e.seg && decide (e.lo < r.lo + 32 * r.cap) && decide (r.lo < e.lo + e.bytes.length)))).getLast?).map (·.pos)
  | _ => none

/-- A load's value from the bytes it reads. -/
def OpKind.value (k : OpKind) (bs : List Byte) : Line :=
  match k with
  | .load f => (f.extend (ofBytes bs)).zeroExtend 512
  | _ => BitVec.ofNat 512 (ofBytes bs)

/-- The bytes of a buffered store. -/
def OpKind.bytes (k : OpKind) : List (Option Byte) :=
  match k with
  | .store n v => (leBytes n v.toNat).map some
  | .vstore m v => (List.range 64).map (fun i => if m.getLsbD (i / 4) then some ((v >>> (8 * i)).truncate 8) else none)
  | _ => []

/-! ## The access in its slot -/

/-- The next operation of a wait record: its element in turn, or its one operation. -/
def WaitRec.next (w : WaitRec) : Op := if w.elems then w.todo.headD w.op else w.op

/-- The answer of the operation that the pipeline has just accepted, for the thread's own access. -/
def State.ownReply (s : State) (t c k : Nat) (gate : Option Gate) (r : Reply) : State :=
  let th := s.thread t c k
  match th.wait with
  | none => s
  | some w =>
    let gate := if w.next.kind.needsFill then gate else none
    let gates := w.gates ++ (gate.map (fun g => (w.next.va, g))).toList
    if w.elems then
      let w := { w with gates := gates, todo := w.todo.tail }.element w.next.lane r
      (s.setThread t c k { th with wait := some w, st := if w.lanes.isEmpty then .ready else .remoteWait }).elementsDone t c k
    else if w.direct && gate.isSome then
      s.setThread t c k { th with wait := some { w with gates := gates, answer := some r }, walking := true }
    else
      let s := s.setThread t c k { th with wait := some { w with gates := gates } }
      s.finish t c k r

/-- An operation of its own thread at the tile's memory: accepted, stalled at a full miss table, waiting, or refused. Its thread issues nothing
before a refused record is performed (11 R234, 13 R285; DESIGN CHOICE, log 39: it waits in MARKWAIT). -/
def State.performOwn (s : State) (t c k : Nat) (th : Thread) (w : WaitRec) (op : Op) (a : Nat) : State × Bool :=
  match s.touchOp op a with
  | .stall s => (s.coreStalls t c k, false)
  | .ok gate s =>
    let e := ((s.coreGoes t c k).noteNarrow op gate).effect op a
    let s := e.s.wakeAll e.woken
    match e.ans with
    | .reply r => (s.ownReply t c k gate r, true)
    | .waits =>
      (s.setThread t c k { s.thread t c k with st := op.kind.waitState, wait := some { w with direct := true } }, false)
    | .page seg lo va write =>
      match s.startWalk t op.asid seg ((s.tile t).seg seg).mapping lo va write (.own c k) with
      | some s => (s.setThread t c k { s.thread t c k with walking := true }, false)
      | none => (s.coreStalls t c k, false)
    | .refused =>
      let s := s.setThread t c k
        { th.complete w [] with
          posted := th.posted ++ [{ tag := th.tags, owner := t, acq := false }], tags := th.tags + 1, st := .markWait, hold := .record }
      (s.takeBack { op with path := .posted, origin := .thread t th.tid th.tags }, true)

/-- One presentation of a thread's own access to the pipeline of its tile; the answer tells whether it went on. It waits behind a request
of its core that stalls there (14 R303). -/
def State.present (s : State) (t c k : Nat) : State × Bool :=
  let th := s.thread t c k
  match th.wait with
  | none => (s, false)
  | some w =>
    let op := w.next
    match s.locate op with
    | .miss =>
      match s.startWalk t op.asid op.seg op.map op.lo op.va op.kind.writes (.own c k) with
      | some s => (s.setThread t c k { s.thread t c k with walking := true }, false)
      | none => (s.coreStalls t c k, false)
    | .at_ a s =>
      let co := (s.tile t).core c
      if w.buffered then
        if 16 ≤ co.sb.length then (s.count t 0x261, false)
        else
          let e : SbEntry := { pos := co.sbNext, addr := a, bytes := op.kind.bytes, asid := op.asid, seg := op.seg, lo := op.lo
                               va := op.va, tid := th.tid, entered := s.time }
          let s := s.mapTile t (fun tl => tl.setCore c { co with sb := co.sb ++ [e], sbNext := co.sbNext + 1 })
          (s.setThread t c k { th.complete w [] with mark := co.sbNext + 1 }, true)
      else
        match (if op.kind.addressed then co.meets op.kind a w.sbAt w.elems else .clear) with
        | .covered pos bs =>
          let s := s.setThread t c k { th with mark := max th.mark (pos + 1) }
          (s.ownReply t c k none (.done [op.kind.value bs]), true)
        | .until_ pos =>
          (if th.st == .remoteWait then s else s.setThread t c k { th with st := .markWait, hold := .overlap (pos + 1) }, false)
        | .clear =>
          match s.indexMeets t co op.kind a w.sbAt with
          | some pos => (s.setThread t c k { th with st := .markWait, hold := .overlap (pos + 1) }, false)
          | none => if s.behindStall t c k then (s, false) else s.performOwn t c k th w op a

/-- An access presented until it is accepted whole or must wait: its elements one after another (13 R281, 09 R194). -/
def State.accept (s : State) (t c k : Nat) : Nat → State
  | 0 => s
  | fuel + 1 =>
    match s.present t c k with
    | (s, true) => if (match (s.thread t c k).wait with | some w => w.elems && !w.todo.isEmpty | none => false)
      then s.accept t c k fuel else s
    | (s, false) => s

/-- A local access whose presentation is due: at issue, at a turn, or after its page was walked. -/
def State.acceptOwn (s : State) (t c k : Nat) : State :=
  if ((s.thread t c k).st == .ready || (s.thread t c k).presentsElement) && !(s.thread t c k).walking then s.accept t c k 64 else s

/-! ## Sending -/

/-- CT_REMOTE: a thread that is seated or pinned sends an access away (06 R144). -/
def State.countRemote (s : State) (t : Nat) (th : Thread) : State :=
  if (s.tile t).seated th || th.pincnt ≠ 0 then s.count t 0x246 else s

/-- A remote operation leaves: the thread waits for its response, and its budget begins (06 R129, R134). -/
def State.sendRemote (s : State) (t c k : Nat) (th : Thread) (w : WaitRec) : State :=
  let op := { w.op with path := .remote, origin := .thread t th.tid th.tags, src := t }
  let s := s.countRemote t th
  let s := s.setThread t c k
    { th with
      st := op.kind.waitState, wait := some { w with op := op, direct := true, since := s.residentCycles t }, tags := th.tags + 1 }
  s.send clsREQ t op.owner op.asid 1 (.request op)

/-- A posted operation leaves, or stands in the resend buffer behind a refused one that it follows (11 R234, 13 R285). -/
def State.post (s : State) (op : Op) : State :=
  if (s.tile op.src).resend.any (fun x => op.follows x.2) then
    s.mapTile op.src (fun tl => { tl with resend := tl.resend ++ [(s.residentCycles op.src, op)] })
  else s.send clsPOST op.src op.owner op.asid 1 (.posted op)

/-- A posted operation leaves and counts as unacknowledged (06 R129, 07 R146). -/
def State.sendPosted (s : State) (t c k : Nat) (th : Thread) (op : Op) (acq : Bool)
    (undo : Option (CodeAddr × BitVec 6 × Nat) := none) : State :=
  let op := { op with path := .posted, origin := .thread t th.tid th.tags, src := t }
  let s := s.setThread t c k
    { th with posted := th.posted ++ [{ tag := th.tags, owner := op.owner, acq := acq, undo := undo }], tags := th.tags + 1 }
  s.post op

/-- The thread departs to a tile with an access to complete there (06 R135). -/
def State.departTo (s : State) (t c k : Nat) (th : Thread) (dest : Nat) (w : WaitRec) : State :=
  let op := { w.op with path := .here, origin := .thread dest th.tid th.tags, owner := dest, src := t }
  (s.setThread t c k { th with
    st := .departing, depart := some dest, departAt := none, tags := th.tags + 1
    wait := some { w with op := op, pin := false, buffered := false, direct := true } }).refreshCore t c

/-- An operation to a host window waits in its port's queue: for a remote form the thread waits too (19 R407). -/
def State.sendHost (s : State) (t c k : Nat) (th : Thread) (w : WaitRec) (posted : Bool) : State :=
  let path : Path := if posted then .posted else .remote
  let op := { w.op with path := path, origin := .thread t th.tid th.tags, src := t, owner := Config.noTile }
  let th' := if posted then
      { th with posted := th.posted ++ [{ tag := th.tags, owner := Config.noTile, acq := w.acq }], tags := th.tags + 1 }
    else { th with st := op.kind.waitState, wait := some { w with op := op, direct := true }, tags := th.tags + 1 }
  { s.setThread t c k th' with hostWait := s.hostWait ++ [op] }

/-- A parameter block of n doublewords is read, each where it is owned, as LDR.D would (12 R260); its range has been checked. A
block over several owners is a DESIGN CHOICE (log 82). -/
def State.readBlock (s : State) (th : Thread) (va : Dword) (n : Nat) : State :=
  let t := s.here
  let (c, k) := s.cur.2
  let word := fun (i : Nat) =>
    let a := va + BitVec.ofNat 64 (8 * i)
    let d := s.myTile.seg (vaSeg a)
    let own := d.owner t (vaOff a)
    let op : Op := { kind := .load ⟨8, false⟩, path := .here, origin := .thread t th.tid th.tags, asid := th.asid.toNat
                     seg := vaSeg a, va := a, lo := d.localOffset th.scratch (vaOff a), owner := own.getD Config.noTile, src := t
                     map := d.mapping, lane := i }
    (own, op)
  let ops := (List.range n).map word
  match ops.find? (fun o => match o.1 with | some m => m != t && !s.reachable m | none => false) with
  | some o => s.trap Cause.isolated o.2.va
  | none =>
    let own := (ops.filter (fun o => o.1 == some t)).map (·.2)
    let away := ops.filter (fun o => o.1 != some t)
    let s := away.foldl (fun (s : State) o =>
      let op := { o.2 with path := .remote }
      let s := s.countRemote t th
      match o.1 with
      | some m => s.send clsREQ t m op.asid 1 (.request op)
      | none => { s with hostWait := s.hostWait ++ [op] }) s
    let w : WaitRec := { op := (word 0).2, dests := [], elems := true, block := true, todo := own, sbAt := s.myCore.sbNext
                         lanes := away.map (fun o => o.2.lane) }
    let s := s.setThread t c k { th with
      wait := some w, tags := th.tags + 1, st := if away.isEmpty then .ready else .remoteWait }
    if own.isEmpty then s else s.acceptOwn t c k

/-! ## The checks (06 R128, 01 R32) -/

/-- Which path an access takes when its owner is another tile. -/
inductive Route where
  /-- the thread migrates, or the access is a remote operation (06 R128) -/
  | follow
  /-- as follow, a seated thread's store being posted -/
  | followStore
  | remote
  | post
  deriving DecidableEq, Repr

/-- What an access asks of its segment. -/
structure Need where
  size : Nat
  align : Nat
  right : Right
  /-- a host window may be named (06 R128, 07 R154) -/
  host : Bool := true
  /-- the medium must be tile memory, and the kind 1 or 3 -/
  sramOnly : Bool := false
  kind13 : Bool := false
  /-- a 64-byte block needs granules that hold it (09 R193) -/
  block : Bool := false
  deriving DecidableEq, Repr

def Need.check (n : Need) (d : Segment) (scratch : Option (Nat × Nat)) (o : Nat) : Option (BitVec 8) :=
  if d.kind ≠ 0 && n.block && d.kind = 1 && decide (d.g < 6) then some Cause.misaligned
  else
    match d.check scratch o n.size n.align n.right with
    | some c => some c
    | none =>
      if d.kind = 5 then (if n.host then none else some Cause.hostWindow)
      else if n.sramOnly && d.vault then some Cause.segRights
      else if n.kind13 && d.kind ≠ 1 && d.kind ≠ 3 then some Cause.segRights
      else none

/-- An access as its instruction gives it. -/
structure Access where
  kind : OpKind
  va : Dword
  need : Need
  route : Route
  dests : List Dest := []
  mask : BitVec 16 := 0xFFFF
  old : Line := 0
  pin : Bool := true
  /-- a local ST, C.ST or VST enters the store buffer -/
  buffered : Bool := false
  acq : Bool := false
  /-- waits of a release first (07 R151) -/
  rel : Bool := false
  size : Nat := 4

/-- Its wait record, for an owner and a local offset. -/
def Access.record (x : Access) (s : State) (th : Thread) (t owner lo : Nat) : WaitRec :=
  { op := { kind := x.kind, path := .here, origin := .thread t th.tid th.tags, asid := th.asid.toNat, seg := vaSeg x.va
            va := x.va, lo := lo, owner := owner, src := t, map := ((s.tile t).seg (vaSeg x.va)).mapping }
    dests := x.dests, mask := x.mask, old := x.old, pin := x.pin, buffered := x.buffered, size := x.size
    since := s.residentCycles t, acq := x.acq, sbAt := s.myCore.sbNext }

/-- The waits of a release, and the denial taken at its end (07 R151, 16 R345). None when the instruction may go on. -/
def State.releaseWait (s : State) (rel : Bool) (co : Core) (th : Thread) : Option State :=
  if !rel then none
  else if !releaseDone co th then some (s.hold .release)
  else
    match th.denial with
    | some va => some ((s.setMe { th with denial := none }).trap Cause.pageDenied va)
    | none => none

/-- A thread that stays: seated or pinned (01 R26). -/
def State.stays (s : State) (th : Thread) : Bool := s.myTile.seated th || th.pincnt != 0

/-- The path chosen for an owner (06 R128). A local STR is performed and acknowledged at once, so that it counts in no step of the count of
R146 and never waits for it (DEDUCED from 06 R131, log 70). -/
def State.route (s : State) (th : Thread) (x : Access) (own lo : Nat) : State :=
  let t := s.here
  let (c, k) := s.cur.2
  let w := x.record s th t own lo
  let post := fun (_ : Unit) =>
    if 255 ≤ th.posted.length then s.hold .posted
    else
      ((s.countRemote t th).issued { th.unpin x.pin with pc := th.pc + BitVec.ofNat 48 x.size }) |> fun s =>
        s.sendPosted t c k s.me w.op x.acq (some (th.pc, th.pincnt, s.time))
  if own = t then (s.issued { th with wait := some w, tags := th.tags + 1 }).acceptOwn t c k
  else if !s.reachable own then s.trap Cause.isolated x.va
  else if x.route = .remote then (s.issued th) |> fun s => s.sendRemote t c k th w
  else if x.route = .post then post ()
  else if s.stays th then
    (if x.route = .followStore then post () else (s.issued th) |> fun s => s.sendRemote t c k th w)
  else (s.issued th) |> fun s => s.departTo t c k th own w

/-- The access takes its thread to another tile (06 R128). -/
def State.migrates (s : State) (th : Thread) (x : Access) : Bool :=
  let d := s.myTile.seg (vaSeg x.va)
  (x.route == .follow || x.route == .followStore) && (x.need.check d th.scratch (vaOff x.va)).isNone && !s.stays th &&
    (match d.owner s.here (vaOff x.va) with
      | some own => own != s.here && s.reachable own
      | none => false)

/-- An access: the segment checks, the waits of a release, then its path (06 R128, 07 R147, R151). -/
def accessAt (th : Thread) (s : State) (x : Access) : Out :=
  let t := s.here
  let (c, k) := s.cur.2
  let d := s.myTile.seg (vaSeg x.va)
  let o := vaOff x.va
  match x.need.check d th.scratch o with
  | some cause => .next (s.trap cause x.va)
  | none =>
    match s.releaseWait x.rel s.myCore th with
    | some s => .next s
    | none =>
      match d.owner t o with
      | none =>
        let w := x.record s th t Config.noTile o
        let writes := match x.kind with
          | .store _ _ => true
          | .vstore _ _ => true
          | .amo _ _ _ fetch => !fetch
          | _ => false
        if writes then
          if 255 ≤ th.posted.length then .next (s.hold .posted)
          else
            let s := (s.countRemote t th).issued { th.unpin x.pin with pc := th.pc + BitVec.ofNat 48 x.size }
            .next (s.sendHost t c k s.me w true)
        else .next (((s.issued th).countRemote t th).sendHost t c k th w false)
      | some own =>
        if x.buffered && own = t && decide (16 ≤ s.myCore.sb.length) then .next s.forfeit
        else .next (s.route th x own (d.localOffset th.scratch o))

/-- The form of an instruction that makes an access: one that migrates or releases waits as if marked (02 R66, 07 R151). -/
def Access.form (x : Access) (f : Form) (s : State) : Form := { f with waits := f.waits || x.rel || s.migrates s.me x }

/-- An instruction that makes one access. -/
def access (f : Form) (s : State) (mk : Thread → Access) : Out :=
  let x := { mk s.me with size := f.i.size }
  issue (x.form f s) s (fun th s => accessAt th s x)

end Sys2Proof.Machine
end

