-- ==== Sys2Proof/Machine/Barrier.lean ====
section
/-! DEFINITION. Hierarchical barriers: the episode of a tile, and the trees that join the tiles of a partition (07 R164 to
R167, 18 R384). -/
namespace Sys2Proof.Machine

/-! ## Nodes of the trees (18 R384) -/

/-- Two names lie side by side on the grid. -/
def gridBeside (n k : Nat) : Bool :=
  decide (Config.nameX n - Config.nameX k + (Config.nameX k - Config.nameX n) + (Config.nameY n - Config.nameY k) +
    (Config.nameY k - Config.nameY n) ≤ 1)

/-- The port by which a node takes a child's arrival; a child that does not lie beside it has one of its own (log 9). -/
def treePort (node child : Nat) : Nat :=
  if Config.nameM node ≠ Config.nameM child then 4 + Config.nameM child
  else if !gridBeside node child then 33 + child
  else if Config.nameY child < Config.nameY node then 0
  else if Config.nameX node < Config.nameX child then 1
  else if Config.nameY node < Config.nameY child then 2
  else 3

def localPort : Nat := 32

/-- Tiles that would take part in an episode of a tag's tree that opens now, with their counts: those of the tree with a nonzero
TL_HBARCNT (07 R165). -/
def State.members (s : State) (tag root asid : Nat) : List (Nat × Nat) :=
  (s.tiles.filter (fun e => e.2.resident asid && e.2.hbarcnt != 0 && s.treeRoot tag e.1 == root)).map (fun e => (e.1, e.2.hbarcnt.toNat))

/-- The open episode of a tag's tree that a node lies on, and that still runs. -/
def State.episode (s : State) (tag node asid : Nat) : Option Members :=
  s.episodes.find? (fun e => !e.bad && e.tag == tag && e.asid == asid && e.root == s.treeRoot tag node)

/-- The first arrival of an episode at any tile opens it and fixes its tiles and their counts, whatever TL_HBARCNT becomes (07
R165). -/
def State.openEpisode (s : State) (tag node asid : Nat) : State :=
  if (s.episode tag node asid).isSome then s
  else { s with episodes := s.episodes ++ [{ tag := tag, root := s.treeRoot tag node, asid := asid, tiles := s.members tag (s.treeRoot tag node) asid }] }

/-- The root has completed an episode. -/
def State.closeEpisode (s : State) (tag node asid : Nat) : State :=
  { s with episodes := s.episodes.filter (fun e => e.bad || !(e.tag == tag && e.asid == asid && e.root == s.treeRoot tag node)) }

/-- How many threads of a tile take part in the episode that its arrival joins: fixed as the episode opened, else TL_HBARCNT. -/
def State.hbarCount (s : State) (t level : Nat) : Nat :=
  let now := (s.tile t).hbarcnt.toNat
  if level = 1 then now
  else
    match (s.episode (level - 1) t (s.tile t).asid.toNat).bind (fun e => e.tiles.find? (fun x => x.1 == t)) with
    | some x => x.2
    | none => now

/-- A tile takes no part in the episode that is open on its tree: its arrival belongs to the next. -/
def State.leftOut (s : State) (t tag asid : Nat) : Bool :=
  match s.episode tag t asid with
  | some e => !e.tiles.any (fun x => x.1 == t)
  | none => false

/-- The ports a node expects in an episode of an address space. -/
def State.expected (s : State) (tag node asid : Nat) : List Nat :=
  (match s.episode tag node asid with
   | some e => e.tiles
   | none => []).foldl (fun (l : List Nat) (x : Nat × Nat) =>
    if x.1 = node then addTo localPort l
    else
      match s.childToward tag node x.1 6000 with
      | some c => addTo (treePort node c) l
      | none => l) []

/-! ## Episodes -/

/-- The partial value of a tile: its threads' values by core and slot (07 R166). -/
def Episode.partial_ (e : Episode) : Dword :=
  if e.cmb then
    ((List.range 64).flatMap (fun i => e.arrivals.filter (fun a => a.core * 16 + a.slot == i))).foldl
      (fun v a => combine e.op v a.value) (combineIdentity e.op)
  else 0

/-- The tag of a thread's HBAR that waits. -/
def Thread.hbarTag (th : Thread) : Option Nat :=
  match th.wait with
  | some w => if w.op.kind = .hbar then (match w.op.origin with
      | .thread _ _ g => some g
      | _ => none) else none
  | none => none

/-- The tag of a thread that has left its slot, to the Hutch or on its way back from it, while it waits in an HBAR (16 R332). -/
def Tile.movedHbar (tl : Tile) (tid : BitVec 32) : Option Nat :=
  (tl.threads.map (·.2.2) ++ tl.hutch.map (·.ctx.th) ++ tl.cores.filterMap (fun e => e.2.loading.map (fun l => l.2.ctx.th))).findSome?
    (fun th => if th.tid == tid then th.hbarTag else none)

/-- A participant is released with the value, or traps when the tree met different operations (07 R166): in the slot where it arrived, or
where it is now. -/
def State.releaseHbar (s : State) (t : Nat) (bad : Bool) (v : Dword) (a : HArrival) : State :=
  let th := s.thread t a.core a.slot
  let r : Reply := if bad then .trap Cause.barrierOverrun 2 else .done [v.zeroExtend 512]
  if a.gone then s
  else if th.tid = a.tid && th.hbarTag.isSome then s.finish t a.core a.slot r
  else
    match (s.tile t).movedHbar a.tid with
    | some g => s.answerHere t a.tid g r
    | none => s

/-- An arrival that waited for the next episode finds its tile's count 0, or an episode of another kind. -/
def State.overrunHbar (s : State) (t : Nat) (n : Dword) (a : HArrival) : State :=
  if (s.thread t a.core a.slot).tid = a.tid then s.finish t a.core a.slot (.trap Cause.barrierOverrun n)
  else
    match (s.tile t).movedHbar a.tid with
    | some g => s.answerHere t a.tid g (.trap Cause.barrierOverrun n)
    | none => s

/-- What an arrival does at its tile: it waits for the next episode, traps, or joins (07 R165). One beyond the count waits whatever its
level, combine bit and operation: R165 gives both rules, and the model lets the count go first (DESIGN CHOICE, log 67). -/
inductive Join where
  | later
  | overrun (v : Dword)
  | joined (e : Episode)
  deriving DecidableEq, Repr

def Tile.joinHbar (tl : Tile) (a : HArrival) (level : Nat) (cmb : Bool) (op count : Nat) : Join :=
  match tl.hbar with
  | none =>
    if count = 0 then .overrun 0
    else .joined { level := level, cmb := cmb, op := op, count := count, arrivals := [a] }
  | some e =>
    if e.count ≤ e.arrivals.length then .later
    else if e.level ≠ level || e.cmb != cmb || e.op ≠ op then .overrun 1
    else .joined { e with arrivals := e.arrivals ++ [a] }

def nodeKey (tag asid : Nat) : Nat := tag * 256 + asid

/-- The release goes down to the member ports of a node (18 R384). -/
def State.sendDown (s : State) (t tag asid : Nat) (nd : Node) (bad : Bool) (v : Dword) : State :=
  nd.got.foldl (fun s g => if g.1 = localPort then s else s.sendTagged tag clsCOLL t g.2.1 asid 1 (.collDown tag nd.cmb bad v)) s

/-- The combined value of a node: ascending port, the local tile last. -/
def Node.value (nd : Node) : Dword :=
  let far := (nd.got.filter (fun g => decide (localPort < g.1))).mergeSort (fun a b => decide (a.1 ≤ b.1))
  let near := (List.range 32).flatMap (fun p => nd.got.filter (fun g => g.1 == p))
  let vs := (near ++ far ++ nd.got.filter (fun g => g.1 == localPort)).map (fun g => g.2.2)
  match vs with
  | [] => 0
  | v :: rest => if nd.cmb then rest.foldl (combine nd.op) v else 0

/-- What an arrival at a node stands for: the tile itself, or those whose way to the root passes a child. -/
def State.standsFor (s : State) (tag t port child x : Nat) : Bool :=
  if port = localPort then x == t else s.childToward tag t x 6000 == some child

/-- An arrival for an episode that has ended without a value. -/
def State.tooLate (s : State) (t tag asid port child : Nat) : Bool :=
  s.episodes.any (fun (e : Members) => e.bad && e.tag == tag && e.asid == asid && e.root == s.treeRoot tag t &&
    e.tiles.any (fun x => s.standsFor tag t port child x.1))

/-- An open episode of another level that a node also serves, and in which a tile of the arrival takes part: the two can never both
complete (07 R166; which arrivals meet is a DESIGN CHOICE, log 78). -/
def State.meets (s : State) (t tag asid port child : Nat) : Option Members :=
  s.episodes.find? (fun e => !e.bad && e.asid == asid && e.tag != tag && e.root == s.treeRoot e.tag t &&
    (s.tile t).nodes.any (fun n => n.1 == nodeKey e.tag asid) && e.tiles.any (fun x => s.standsFor tag t port child x.1))

/-- An episode ends without a value: the news climbs to the root of its tree. -/
def State.giveUp (s : State) (t tag asid : Nat) : State :=
  let root := s.treeRoot tag t
  let s := { s with episodes := s.episodes.map (fun (e : Members) =>
    if !e.bad && e.tag == tag && e.asid == asid && e.root == root then { e with bad := true } else e) }
  { s.sendTagged tag clsCOLL t t asid 1 (.collBad tag) with episodes := s.episodes }

/-- A tile has been told that an episode ended without a value. -/
def State.told (s : State) (t asid : Nat) : State :=
  { s with episodes := (s.episodes.map (fun (e : Members) =>
      if e.bad && e.asid == asid then { e with tiles := e.tiles.filter (fun x => x.1 != t) } else e)).filter (fun e =>
        !e.bad || !e.tiles.isEmpty) }

/-- An arrival at a node; with all expected arrivals the node sends its value up, or, at the root, answers that the episode is
complete: whether without a value, and the value. An arrival that meets one of another level ends both episodes (07 R166). -/
def State.atNode (s : State) (t tag asid port child level op : Nat) (cmb bad : Bool) (v : Dword) :
    State × Option (Node × Bool × Dword) :=
  if s.tooLate t tag asid port child then
    if port = localPort then
      (s.told t asid, some ({ tag := tag, level := level, op := op, cmb := cmb, got := [(port, child, v)] }, true, 0))
    else (s.sendTagged tag clsCOLL t child asid 1 (.collDown tag cmb true 0), none)
  else
    let s := s.openEpisode tag t asid
    let key := nodeKey tag asid
    let old := ((s.tile t).nodes.find? (fun e => e.1 == key)).map (·.2)
    let nd := old.getD { tag := tag, level := level, op := op, cmb := cmb, expect := s.expected tag t asid }
    let nd := { nd with bad := nd.bad || bad || nd.level != level || nd.op != op || nd.cmb != cmb
                        got := nd.got ++ [(port, child, v)] }
    let full := nd.expect.all (fun p => nd.got.any (fun g => g.1 == p))
    let put := fun (nd : Node) => s.mapTile t (fun tl => { tl with nodes := tl.nodes.set key nd })
    match s.meets t tag asid port child with
    | some e => (((put { nd with bad := true }).giveUp t tag asid).giveUp t e.tag asid, none)
    | none =>
      if !full || nd.sent then (put nd, none)
      else
        match s.treeParent tag t with
        | some p => ((put { nd with sent := true }).sendTagged tag clsCOLL t p asid 1 (.collUp tag level nd.op nd.cmb nd.bad nd.value), none)
        | none =>
          ((s.mapTile t (fun tl => { tl with nodes := tl.nodes.erase key })).closeEpisode tag t asid, some (nd, nd.bad, nd.value))

/-- The first HBAR of an episode at a tile opens it in its tree. -/
def State.joinsTree (s : State) (t level asid : Nat) : State := if level = 1 then s else s.openEpisode (level - 1) t asid

/-- The episode of a tile completes: participants are released, and waiting arrivals open the next (07 R165, R166). `fuel`
bounds the episodes that complete at once. -/
def State.endEpisode (s : State) (t : Nat) (bad : Bool) (v : Dword) : Nat → State
  | 0 => s
  | fuel + 1 =>
    match (s.tile t).hbar with
    | none => s
    | some e =>
      let extra := (s.tile t).hbarExtra
      let s := s.mapTile t (fun tl => { tl with hbar := none, hbarExtra := [] })
      let s := e.arrivals.foldl (fun s a => s.releaseHbar t bad v a) s
      extra.foldl (fun s x =>
        match (s.tile t).joinHbar x.1 x.2.1 x.2.2.1 x.2.2.2 (s.hbarCount t x.2.1) with
        | .later => s.mapTile t (fun tl => { tl with hbarExtra := tl.hbarExtra ++ [x] })
        | .overrun n => s.overrunHbar t n x.1
        | .joined e =>
          let s := (s.joinsTree t e.level (s.tile t).asid.toNat).mapTile t (fun tl => { tl with hbar := some e })
          if e.arrivals.length < e.count then s
          else if e.level = 1 then s.endEpisode t false e.partial_ fuel
          else if s.leftOut t (e.level - 1) (s.tile t).asid.toNat then s
          else
            let s := s.mapTile t (fun tl => { tl with hbar := some { e with sent := true } })
            match s.atNode t (e.level - 1) (s.tile t).asid.toNat localPort t e.level e.op e.cmb false e.partial_ with
            | (s, none) => s
            | (s, some (nd, bad, v)) =>
              (s.sendDown t (e.level - 1) (s.tile t).asid.toNat nd bad v).endEpisode t bad v fuel) s

/-- A tile whose count is reached completes the episode itself, or sends its arrival up its tree; where it takes no part in the episode
that is open there, once that one is complete. -/
def State.episodeFull (s : State) (t : Nat) (e : Episode) : State :=
  let fuel := (s.tile t).hbarExtra.length + 2
  let asid := (s.tile t).asid.toNat
  if e.level = 1 then s.endEpisode t false e.partial_ fuel
  else if s.leftOut t (e.level - 1) asid then s
  else
    let s := s.mapTile t (fun tl => { tl with hbar := some { e with sent := true } })
    match s.atNode t (e.level - 1) asid localPort t e.level e.op e.cmb false e.partial_ with
    | (s, none) => s
    | (s, some (nd, bad, v)) => (s.sendDown t (e.level - 1) asid nd bad v).endEpisode t bad v fuel

/-- Arrivals of tiles that took no part in the episode that has just closed go up for the next one. -/
def State.lateArrivals (s : State) (asid : Nat) : State :=
  (s.tiles.filter (fun e => e.2.resident asid)).foldl (fun s x =>
    match (s.tile x.1).hbar with
    | some e => if e.level ≠ 1 && !e.sent && decide (e.count ≤ e.arrivals.length) then s.episodeFull x.1 e else s
    | none => s) s

/-- HBAR (07 R164, R165): a release, then an arrival. -/
def hbarForm (f : Form) (level op : Nat) (cmb : Bool) (dst : List Dest) (value : Thread → Dword) (s : State) : Out :=
  issue { f with waits := true } s (fun th s =>
    match s.releaseWait true s.myCore th with
    | some s => .next s
    | none =>
      let t := s.here
      let (c, k) := s.cur.2
      let a : HArrival := { core := c, slot := k, tid := th.tid, value := value th }
      let w : WaitRec := { op := { kind := .hbar, path := .here, origin := .thread t th.tid th.tags, asid := th.asid.toNat
                                   seg := 0, va := 0, lo := 0, owner := t, src := t }
                           dests := dst, direct := true, size := f.i.size, since := s.residentCycles t }
      let go := fun (s : State) => s.issued { th with st := .barWait, wait := some w, tags := th.tags + 1 }
      match s.myTile.joinHbar a level cmb op (s.hbarCount t level) with
      | .overrun v => .next (s.trap Cause.barrierOverrun v)
      | .later => .next ((go s).mapTile t (fun tl => { tl with hbarExtra := tl.hbarExtra ++ [(a, level, cmb, op)] }))
      | .joined e =>
        let asid := th.asid.toNat
        let s := (go (s.joinsTree t level asid)).mapTile t (fun tl => { tl with hbar := some e })
        .next (if e.arrivals.length < e.count then s else (s.episodeFull t e).lateArrivals asid))

/-- 07 R165. -/
def execHbar (m : Bool) (l : BitVec 3) (s : State) : Out :=
  hbarForm { i := .hbar m l, m := m, mem := true } l.toNat 0 false [] (fun _ => 0) s

/-- 07 R166. -/
def execHbarCmb (m : Bool) (d a : BitVec 5) (l o : BitVec 3) (s : State) : Out :=
  hbarForm { i := .hbarCmb m d a l o, m := m, dst := [gd d], src := [gd a], long := true, mem := true } l.toNat o.toNat true [gd d]
    (fun th => th.rg a) s

/-! ## The trees' packets and the budget -/

/-- The release reaches a tile's node: down to its children, and to the tile's own episode. -/
def State.treeRelease (s : State) (t tag asid : Nat) (nd : Node) (bad : Bool) (v : Dword) : State :=
  let s := s.sendDown t tag asid nd bad v
  let own := nd.got.any (fun g => g.1 == localPort) && (match (s.tile t).hbar with
    | some e => e.level == tag + 1 && e.sent
    | none => false)
  (if own && (s.tile t).resident asid then s.endEpisode t bad v ((s.tile t).hbarExtra.length + 2) else s).lateArrivals asid

/-- The news that an episode has ended without a value comes down from the root: to every child with a tile still to be told, and to
the tile's own participants (07 R166). -/
def State.badRelease (s : State) (t tag asid : Nat) : State :=
  let left := (s.episodes.filter (fun e => e.bad && e.tag == tag && e.asid == asid && e.root == s.treeRoot tag t)).flatMap (fun e =>
    e.tiles.map (·.1))
  let children := (left.filterMap (fun x => if x = t then none else s.childToward tag t x 6000)).eraseDups
  let s := children.foldl (fun s c => s.sendTagged tag clsCOLL t c asid 1 (.collDown tag false true 0)) s
  let s := s.mapTile t (fun tl => { tl with nodes := tl.nodes.filter (fun n =>
    !(n.1 == nodeKey tag asid && n.2.got.any (fun g => left.any (fun x => s.standsFor tag t g.1 g.2.1 x)))) })
  let own := left.contains t && (s.tile t).resident asid && (match (s.tile t).hbar with
    | some e => e.level == tag + 1 && e.sent
    | none => false)
  if own then ((s.told t asid).endEpisode t true 0 ((s.tile t).hbarExtra.length + 2)).lateArrivals asid else s

/-- A collective packet at a node whose routers serve its address space. -/
def State.collects (s : State) (n : Nat) : Option Packet :=
  match s.arrived n with
  | some p => if s.unitsTake p.dst || !(s.tile p.dst).resident p.asid then some p else none
  | none => none

/-- HBAR_TREE_ARRIVE: an arrival from a child node (18 R384). -/
def execHbarTreeArrive (n : Nat) (s : State) : Out :=
  match s.collects n with
  | some p =>
    match p.body with
    | .collUp tag level op cmb bad v =>
      match (s.dropPacket n).atNode p.dst tag p.asid (treePort p.dst p.src) p.src level op cmb bad v with
      | (s, none) => .next s
      | (s, some (nd, bad, v)) => .next (s.treeRelease p.dst tag p.asid nd bad v)
    | .collBad tag =>
      match s.treeParent tag p.dst with
      | some up => .next ((s.dropPacket n).sendTagged tag clsCOLL p.dst up p.asid 1 (.collBad tag))
      | none => .next ((s.dropPacket n).badRelease p.dst tag p.asid)
    | _ => .next s
  | none => .next s

/-- HBAR_TREE_RELEASE: the result comes down from the parent (07 R166). -/
def execHbarTreeRelease (n : Nat) (s : State) : Out :=
  match s.collects n with
  | some p =>
    match p.body with
    | .collDown tag _ bad v =>
      let s := s.dropPacket n
      let gaveUp := bad && s.episodes.any (fun e => e.bad && e.tag == tag && e.asid == p.asid && e.root == s.treeRoot tag p.dst)
      match if gaveUp then none else (s.tile p.dst).nodes.find? (fun e => e.1 == nodeKey tag p.asid) with
      | some e =>
        let s := s.mapTile p.dst (fun tl => { tl with nodes := tl.nodes.erase e.1 })
        .next (s.treeRelease p.dst tag p.asid e.2 bad v)
      | none => .next (if gaveUp then s.badRelease p.dst tag p.asid else s)
    | _ => .next s
  | none => .next s

/-- HBAR_TIMEOUT: the thread traps; an arrival that has joined stays in its episode, one beyond the count is withdrawn (07
R167). -/
def execHbarTimeout (t c k : Nat) (s : State) : Out :=
  let th := s.thread t c k
  match th.wait with
  | none => .next s
  | some w =>
    if w.op.kind ≠ .hbar || !s.unitsRun t || th.st != .barWait || th.few = 15 ||
        decide (s.residentCycles t ≤ w.since + 2 ^ (10 + th.few.toNat)) then .next s
    else
      let mine := fun (a : HArrival) => a.tid == th.tid && ((a.core == c && a.slot == k) || (s.thread t a.core a.slot).tid != a.tid)
      let s := s.mapTile t (fun tl => { tl with
        hbarExtra := tl.hbarExtra.filter (fun x => !mine x.1)
        hbar := tl.hbar.map (fun e => { e with
          arrivals := e.arrivals.map (fun a => if mine a then { a with gone := true } else a) }) })
      .next (s.finish t c k (.trap Cause.barrierTimeout 0))

end Sys2Proof.Machine
end

