-- ==== Sys2Proof/Machine/Queues.lean ====
section
/-! DEFINITION. Queue and index instructions: handles, paths, and the pass over a spill ring (11 R224 to R226, R233 to R247, 17
R361). -/
namespace Sys2Proof.Machine

/-- A tile of the partition that holds an address space: placement makes it resident at each of them (15 R316). -/
def State.inPartition (s : State) (asid n : Nat) : Bool := Config.isTile n && (s.tile n).resident asid

/-- The reason for which a handle traps QUEUE at issue (11 R225, R247). -/
def State.handleFault (s : State) (th : Thread) (h : Dword) (isD : Bool) : Option Nat :=
  if field h 32 32 ≠ 0 || field h 12 3 ≠ 0 || !s.inPartition th.asid.toNat (handleOwner h) then some 1
  else if (field h 11 1 == 1) != isD then some 2
  else none

def groupDest (r : BitVec 5) : List Dest := (List.range 4).map (fun i => .g (r.toNat + i))

/-- The four registers of a group (11 R224). -/
def Thread.group (th : Thread) (r : BitVec 5) : QRec :=
  let w := fun i => th.rg (r + BitVec.ofNat 5 i)
  { w0 := w 0, w1 := w 1, w2 := w 2, w3 := w 3 }

/-- What a queue form by handle asks. -/
structure QForm where
  f : Form
  isD : Bool
  route : Route
  /-- a release: it waits as if marked, then for the buffer and the count (07 R151, 11 R226) -/
  rel : Bool := false
  acq : Bool := false
  dests : List Dest := []
  handle : Thread → Dword
  op : Thread → QueueOp

/-- Records and notes of this tile to one queue that wait in its resend buffer (11 R234). -/
def Tile.resendBusy (tl : Tile) (h : Dword) : Bool := tl.resend.any (fun x => x.2.va == h)

/-- It takes its thread to the queue's tile (06 R128, 11 R226). -/
def QForm.migrates (q : QForm) (s : State) : Bool :=
  let own := handleOwner (q.handle s.me)
  q.route == .follow && own != s.here && s.reachable own && !s.stays s.me && (s.handleFault s.me (q.handle s.me) q.isD).isNone

/-- A queue form by handle (11 R225, R226), which waits as if marked where it releases or migrates (02 R66, 07 R151): the waits of a
release, the handle's checks, then its path. A posted form waits behind refused records of its queue, at its own tile with its thread, and
forfeits while the resend buffer is full (11 R234). A DSEND of multiplicity 0 is discarded (11 R239). -/
def queueForm (q : QForm) (s : State) : Out :=
  issue { q.f with waits := q.rel || q.migrates s } s (fun th s =>
    let t := s.here
    let h := q.handle th
    let own := handleOwner h
    let op := q.op th
    let x : Access := { kind := .queue op, va := h, need := { size := 1, align := 1, right := .none }, route := q.route
                        dests := q.dests, acq := q.acq, size := q.f.i.size }
    let past := { th.unpin true with pc := th.nextPc q.f.i }
    let nothing := match op with
      | .dsend r => r.w3.truncate 32 == (0 : BitVec 32)
      | _ => false
    match s.releaseWait q.rel s.myCore th with
    | some s => .next s
    | none =>
      match s.handleFault th h q.isD with
      | some r => .next (s.trap Cause.queue (queueValue r h))
      | none =>
        if nothing then .next (s.issued past)
        else if own ≠ t && !s.reachable own then .next (s.trap Cause.isolated (BitVec.ofNat 64 own))
        else if q.route == .post then
          if 64 ≤ s.myTile.resend.length then .next s.forfeit
          else if 255 ≤ th.posted.length then .next (s.hold .posted)
          else if own = t && s.myTile.resendBusy h then
            let rec' := { (x.record s th t own 0).op with path := .posted, origin := .thread t th.tid th.tags }
            let s := s.issued { past with
              posted := past.posted ++ [{ tag := th.tags, owner := own, acq := false }], tags := th.tags + 1, st := .markWait, hold := .record }
            .next (s.mapTile t (fun tl => { tl with resend := tl.resend ++ [(s.residentCycles t, rec')] }))
          else .next (s.route th x own 0)
        else .next (s.route th x own 0))

/-- 11 R233, R234. -/
def execQsend (m : Bool) (a b : BitVec 5) (s : State) : Out :=
  queueForm { f := { i := .qsend m a b, m := m, src := groupDest a ++ [gd b], mem := true }, isD := false, route := .post
              handle := fun th => th.rg b, op := fun th => .send (th.group a) } s

/-- 11 R235. -/
def execQrecv (m : Bool) (a b c : BitVec 5) (s : State) : Out :=
  queueForm { f := { i := .qrecv m a b c, m := m, dst := groupDest a ++ [gd c], src := [gd b], long := true, mem := true }
              isD := false, route := .follow, acq := true, dests := groupDest a ++ [gd c]
              handle := fun th => th.rg b, op := fun _ => .recv } s

/-- 11 R236. -/
def execQeos (m : Bool) (b : BitVec 5) (s : State) : Out :=
  queueForm { f := { i := .qeos m b, m := m, src := [gd b], mem := true }, isD := false, route := .post, rel := true
              handle := fun th => th.rg b, op := fun _ => .eos } s

/-- 11 R237. -/
def execQstat (m : Bool) (a b : BitVec 5) (s : State) : Out :=
  queueForm { f := { i := .qstat m a b, m := m, dst := [gd a], src := [gd b], long := true, mem := true }
              isD := false, route := .remote, dests := [gd a], handle := fun th => th.rg b, op := fun _ => .stat } s

/-- 11 R239: bits [63:48] of word 3 are sent as zero. -/
def execDsend (m : Bool) (a b : BitVec 5) (s : State) : Out :=
  queueForm { f := { i := .dsend m a b, m := m, src := groupDest a ++ [gd b], mem := true }, isD := true, route := .post
              handle := fun th => th.rg b
              op := fun th => .dsend { th.group a with w3 := putField (th.group a).w3 48 16 0 } } s

/-- 11 R240, R241. -/
def execDrecv (m : Bool) (a b c : BitVec 5) (s : State) : Out :=
  queueForm { f := { i := .drecv m a b c, m := m, dst := groupDest a ++ [gd c], src := [gd b], long := true, mem := true }
              isD := true, route := .follow, acq := true, dests := groupDest a ++ [gd c]
              handle := fun th => th.rg b, op := fun _ => .drecv } s

/-- 11 R242. -/
def execDseal (m : Bool) (b c : BitVec 5) (s : State) : Out :=
  queueForm { f := { i := .dseal m b c, m := m, src := [gd b, gd c], mem := true }, isD := true, route := .post, rel := true
              handle := fun th => th.rg b, op := fun th => .dseal (field (th.rg c) 0 16) ((th.rg c).getLsbD 16) } s

/-- 11 R243. -/
def execDquiet (m : Bool) (a b : BitVec 5) (s : State) : Out :=
  queueForm { f := { i := .dquiet m a b, m := m, dst := [gd a], src := [gd b], long := true, mem := true }
              isD := true, route := .remote, dests := [gd a], handle := fun th => th.rg b, op := fun _ => .dquiet } s

/-! ## Arrangement indexes (11 R244 to R246) -/

def indexNeed : Need := { size := 64, align := 64, right := .rdWA, host := false, sramOnly := true, kind13 := true }

/-- 11 R244. -/
def execXupd (m : Bool) (a b c : BitVec 5) (s : State) : Out :=
  access { i := .xupd m a b c, m := m, dst := [gd a], src := gd b :: groupDest c, long := true, mem := true } s (fun th =>
    { kind := .index (.upd (th.group c)), va := th.rg b, need := indexNeed, route := .follow, dests := [gd a] })

/-- 11 R245: the value and the next cursor go to the group's last three registers; the whole group pends (11 R224). -/
def execXscan (m : Bool) (a b : BitVec 5) (s : State) : Out :=
  access { i := .xscan m a b, m := m, dst := groupDest a, src := [gd a, gd (a + 3), gd b], long := true, mem := true } s
    (fun th =>
      { kind := .index (.scan (th.rg a) (field (th.rg (a + 3)) 32 32)), va := th.rg b, need := indexNeed, route := .follow
        dests := groupDest a })

/-- 11 R246. -/
def execXcnt (m : Bool) (a b c : BitVec 5) (s : State) : Out :=
  access { i := .xcnt m a b c, m := m, dst := [gd a], src := [gd b, gd c], long := true, mem := true } s (fun th =>
    { kind := .index (.cnt (th.rg c)), va := th.rg b, need := indexNeed, route := .follow, dests := [gd a] })

/-- BAND_PASS: the pass that the release of a D-queue has due (17 R361), once its ring has been read. -/
def execBandPass (t q : Nat) (s : State) : Out :=
  if !s.unitsRun t || !(((s.tile t).dqueue q).bind (·.rel)).any (·.passDue) then .next s
  else
    match s.readSpilled t q with
    | (s, false) => .next s
    | (s, true) =>
      let (s, woken) := s.bandPass t q
      .next (s.wakeAll woken)

end Sys2Proof.Machine
end

