-- ==== Sys2Proof/Machine/Trestle.lean ====
section
/-! DEFINITION. The arithmetic of a Trestle step on an accumulator slot (10 R204 to R209), and the parameter block's fields (10
R201, R202). -/
namespace Sys2Proof.Machine

/-! ## The parameter block -/

namespace Block

def kind (b : Block) : Nat := field (b.word 0) 0 4
def fmt (b : Block) : Nat := field (b.word 0) 8 4
def ae5 (b : Block) : Bool := field (b.word 0) 12 1 == 1
def be5 (b : Block) : Bool := field (b.word 0) 13 1 == 1
def scaled (b : Block) : Bool := field (b.word 0) 14 1 == 1
def mcast (b : Block) : Bool := field (b.word 0) 15 1 == 1
def k (b : Block) : Nat := field (b.word 0) 16 16
def isMma (b : Block) : Bool := b.kind == 0

/-- The slot's tag that a format names (10 R199, R203, R204). -/
def tag (b : Block) : Nat := if b.fmt = 2 then 2 else if b.fmt = 6 then 3 else 1

/-- Bytes of an element of A or B (10 R204). -/
def elemBytes (b : Block) : Nat := if b.fmt ≤ 2 then 1 else if b.fmt ≤ 4 then 2 else if b.fmt = 5 then 4 else 8

/-- Values of k that one step takes (10 R213). -/
def stepK (b : Block) : Nat := if b.fmt ≤ 2 then 128 else if b.fmt ≤ 4 then 32 else 1

/-- Bytes of a row of C that are in use (10 R199). -/
def rowBytes (b : Block) : Nat := if b.tag = 3 then 512 else 256

/-- Steps of a command; ZERO acts as one, in place of the cycles of 10 R213 (log 48). -/
def steps (b : Block) : Nat := if b.kind = 0 then b.k / b.stepK else if b.kind = 1 then 1 else 32

def aRow (b : Block) (i : Nat) : Dword := b.word 1 + BitVec.ofNat 64 (i * field (b.word 3) 0 32)
def bRow (b : Block) (k : Nat) : Dword := b.word 2 + BitVec.ofNat 64 (k * field (b.word 3) 32 32)
def cRow (b : Block) (i : Nat) : Dword := b.word 1 + BitVec.ofNat 64 (i * field (b.word 3) 0 32)
def saWord (b : Block) (i c : Nat) : Dword := b.word 4 + BitVec.ofNat 64 (i * field (b.word 6) 0 32 + 4 * c)
def sbWord (b : Block) (c : Nat) : Dword := b.word 5 + BitVec.ofNat 64 (c * field (b.word 6) 32 32)

/-- The 64-byte lines a step reads, in order (10 R210, R213). -/
def stepLines (b : Block) (n : Nat) : List Dword :=
  let line := fun (x : Dword) => x &&& ~~~ (63 : Dword)
  if b.kind = 0 then
    let e := b.elemBytes
    let k0 := n * b.stepK
    let first := k0 * e / 64
    let last := ((k0 + b.stepK) * e - 1) / 64
    let a := (List.range 32).flatMap (fun i =>
      (List.range (last - first + 1)).map (fun j => b.aRow i + BitVec.ofNat 64 (64 * (first + j))))
    let bs := (List.range b.stepK).flatMap (fun j =>
      (List.range e).map (fun l => b.bRow (k0 + j) + BitVec.ofNat 64 (64 * l)))
    let scales := if b.scaled then (List.range 32).map (fun i => line (b.saWord i n)) ++ [line (b.sbWord n)] else []
    a ++ bs ++ scales
  else if b.kind = 2 then (List.range (b.rowBytes / 64)).map (fun j => b.cRow n + BitVec.ofNat 64 (64 * j))
  else []

end Block

/-! ## Reading what has arrived -/

/-- The byte at an address of the pieces that have arrived. -/
def byteOf (got : List (Dword × Nat × Line)) (a : Dword) : Byte :=
  match got.find? (fun e => decide ((a - e.1).toNat < e.2.1)) with
  | some e => (e.2.2 >>> (8 * (a - e.1).toNat)).truncate 8
  | none => 0

/-- n bytes little-endian from an address of the pieces. -/
def valueOf (got : List (Dword × Nat × Line)) (a : Dword) (n : Nat) : Nat :=
  ofBytes ((List.range n).map (fun i => byteOf got (a + BitVec.ofNat 64 i)))

/-! ## Accumulators (10 R199) -/

namespace Acc

/-- Element n of row r, of w bits. -/
def elem (a : Acc) (w r n : Nat) : Nat :=
  let b := n * w / 8
  (a.data.get 0 (8 * r + b / 64)).toNat / 2 ^ (8 * (b % 64)) % 2 ^ w

/-- Every element of the columns in use becomes a function of its row and column; the flag gathers what the function tells. -/
def mapElems (a : Acc) (w : Nat) (f : Nat → Nat → Nat → Nat × Bool) : Acc :=
  let per := 512 / w
  let chunk := fun (acc : Acc × Bool) (rc : Nat × Nat) =>
    let rs := (List.range per).map (fun j =>
      let n := rc.2 * per + j
      f rc.1 n (a.elem w rc.1 n))
    let v := ((List.range per).zip rs).foldl (fun (x : Nat) e => x + e.2.1 % 2 ^ w * 2 ^ (w * e.1)) 0
    ({ acc.1 with data := acc.1.data.set (8 * rc.1 + rc.2) (BitVec.ofNat 512 v) }, acc.2 || rs.any (·.2))
  let all := (List.range 32).flatMap (fun r => (List.range (64 * w / 512)).map (fun c => (r, c)))
  let r := all.foldl chunk (a, false)
  { r.1 with ovf := r.1.ovf || r.2 }

end Acc

/-! ## Products and sums -/

/-- The exact product of two decoded values (10 R209): 0 × ∞ is a NaN. -/
def exactProduct (a b : FVal) : FVal :=
  match a, b with
  | .nan _, _ => .nan false
  | _, .nan _ => .nan false
  | .inf n1, .inf n2 => .inf (n1 != n2)
  | .inf n1, .fin n2 m _ => if m = 0 then .nan false else .inf (n1 != n2)
  | .fin n1 m _, .inf n2 => if m = 0 then .nan false else .inf (n1 != n2)
  | .fin n1 m1 e1, .fin n2 m2 e2 => .fin (n1 != n2) (m1 * m2) (e1 + e2)

/-- The special sum of a chunk or step (10 R209); none when every product is finite. -/
def specialSum (ps : List FVal) : Option FVal :=
  if ps.any FVal.isNan then some (.nan false)
  else
    let plus := ps.any (· == .inf false)
    let minus := ps.any (· == .inf true)
    if plus && minus then some (.nan false) else if plus then some (.inf false) else if minus then some (.inf true) else none

/-- Finite values summed exactly, as an integer times a power of two. -/
def sumFinite (ps : List FVal) : Int × Int :=
  ps.foldl (fun s p => match p with
    | .fin n m e => exactSum (decide (s.1 < 0)) s.1.natAbs s.2 n m e
    | _ => s) (0, 0)

def finite (v e : Int) : FVal := .fin (decide (v < 0)) v.natAbs e

/-- The exact sum of a chunk's products (10 R205); a sum of zero is +0 (DEDUCED, log 75). -/
def chunkSum (ps : List FVal) : FVal :=
  match specialSum ps with
  | some v => v
  | none => let s := sumFinite ps; finite s.1 s.2

/-- A value rounded to FP32 with RNE (04 R102). -/
def roundF32 (v : FVal) : Nat := (floatToFloat f32 0 false v).bits

/-- Exponent of the leading bit of a nonzero magnitude. -/
def leadingExp (m : Nat) (e : Int) : Int := e + bitLength m - 1

/-- A step's sum: products truncated to the grain of the largest, then summed exactly (10 R207). -/
def stepSum (ps : List FVal) : FVal :=
  match specialSum ps with
  | some v => v
  | none =>
    let exps := ps.filterMap (fun p => match p with
      | .fin _ m e => if m = 0 then none else some (leadingExp m e)
      | _ => none)
    match exps with
    | [] => .fin false 0 0
    | x :: rest =>
      let grain := rest.foldl max x - 47
      let cut := ps.map (fun p => match p with
        | .fin n m e => if e < grain then .fin n (m / 2 ^ (grain - e).toNat) grain else .fin n m e
        | v => v)
      let s := sumFinite cut
      finite s.1 s.2

/-- One step of an MMA on its slot (10 R205 to R208). -/
def mmaStep (b : Block) (n : Nat) (got : List (Dword × Nat × Line)) (acc : Acc) : Acc :=
  let e := b.elemBytes
  let k0 := n * b.stepK
  let av := fun (i k : Nat) => valueOf got (b.aRow i + BitVec.ofNat 64 (k * e)) e
  let bv := fun (k c : Nat) => valueOf got (b.bRow k + BitVec.ofNat 64 (c * e)) e
  let ks := (List.range b.stepK).map (k0 + ·)
  let floatFmt := fun (five : Bool) =>
    if b.fmt = 0 then (if five then e5m2 else e4m3) else if b.fmt = 3 then bf16 else f16
  let products := fun (i c : Nat) => ks.map (fun k =>
    exactProduct ((floatFmt b.ae5).decode (av i k)) ((floatFmt b.be5).decode (bv k c)))
  let intSum := fun (i c : Nat) => ks.foldl (fun (s : Int) k => s + intValue true 8 (av i k) * intValue true 8 (bv k c)) 0
  let scale := fun (i : Nat) =>
    if b.scaled then (f32.mul 0 (valueOf got (b.saWord i n) 4) (valueOf got (b.sbWord n) 4)).bits else 0x3F800000
  let promoted := fun (t i c : Nat) => (f32.add 0 c (f32.mul 0 t (scale i)).bits).bits
  if b.fmt = 0 then acc.mapElems 32 (fun i c x => (promoted (roundF32 (chunkSum (products i c))) i x, false))
  else if b.fmt = 1 then acc.mapElems 32 (fun i c x => (promoted (roundF32 (finite (intSum i c) 0)) i x, false))
  else if b.fmt = 2 then
    acc.mapElems 32 (fun i c x =>
      let s := intValue true 32 x + intSum i c
      (intBits 32 (clampInt true 32 s), s != clampInt true 32 s))
  else if b.fmt ≤ 4 then
    acc.mapElems 32 (fun i c x => ((f32.addV 0 (f32.decode x) (stepSum (products i c))).bits, false))
  else
    let f := if b.fmt = 5 then f32 else f64
    acc.mapElems f.width (fun i c x => ((f.fma 0 false false (av i k0) (bv k0 c) x).bits, false))

/-- An accepted command naming the slot has not completed (10 R200). -/
def Tile.slotBusy (tl : Tile) (n : Nat) : Bool :=
  tl.trestle.queue.any (fun b => b.slot == n) || (match tl.trestle.running with | some r => r.blk.slot == n | none => false)

end Sys2Proof.Machine
end

