-- ==== Sys2Proof/Machine/Memory.lean ====
section
/-! DEFINITION. Loads, stores, full-empty forms and migration, and the events that carry them on (06 R127 to R144, 13 R282, 14
R303). -/
namespace Sys2Proof.Machine

/-- Effective address: base and scaled offset (06 R128, 02 R51). -/
def effective (th : Thread) (a : BitVec 5) (i : BitVec 11) (scale : Nat) : Dword := th.rg a + imm 11 i * BitVec.ofNat 64 scale

/-- func3 of the loads: B, BZ, H, HZ, W, WZ, D (06 R127). -/
def loadForm (f : BitVec 3) : LoadForm :=
  if f = 0 then ⟨1, true⟩ else if f = 1 then ⟨1, false⟩ else if f = 2 then ⟨2, true⟩ else if f = 3 then ⟨2, false⟩
  else if f = 4 then ⟨4, true⟩ else if f = 5 then ⟨4, false⟩ else ⟨8, false⟩

def storeSize (f : BitVec 3) : Nat := if f = 0 then 1 else if f = 1 then 2 else if f = 2 then 4 else 8

/-- A load (06 R130): `route` tells LD from LDR. -/
def loadAccess (i : Instr) (m : Bool) (d a : BitVec 5) (lf : LoadForm) (va : Thread → Dword) (route : Route) (s : State) : Out :=
  access { i := i, m := m, dst := [gd d], src := [gd a], long := true, mem := true } s (fun th =>
    { kind := .load lf, va := va th, need := { size := lf.size, align := lf.size, right := .rd }, route := route, dests := [gd d] })

/-- A store (06 R130): ST enters the store buffer when it is local, STR is written directly. -/
def storeAccess (i : Instr) (m : Bool) (d a : BitVec 5) (n : Nat) (va : Thread → Dword) (route : Route) (buffered : Bool)
    (s : State) : Out :=
  access { i := i, m := m, src := [gd d, gd a], mem := true } s (fun th =>
    { kind := .store n (th.rg d), va := va th, need := { size := n, align := n, right := .w }, route := route
      buffered := buffered })

/-- 06 R130. -/
def execLd (m : Bool) (d a : BitVec 5) (f : BitVec 3) (i : BitVec 11) (s : State) : Out :=
  loadAccess (.ld m d a f i) m d a (loadForm f) (fun th => effective th a i (loadForm f).size) .follow s

/-- 06 R131. -/
def execLdr (m : Bool) (d a : BitVec 5) (f : BitVec 3) (i : BitVec 11) (s : State) : Out :=
  loadAccess (.ldr m d a f i) m d a (loadForm f) (fun th => effective th a i (loadForm f).size) .remote s

/-- C.LD: LD.D with offset 0 (02 R47). -/
def execCLd (m : Bool) (a b : BitVec 5) (s : State) : Out :=
  loadAccess (.cLd m a b) m a b ⟨8, false⟩ (fun th => th.rg b) .follow s

/-- 06 R130. -/
def execSt (m : Bool) (d a : BitVec 5) (f : BitVec 3) (i : BitVec 11) (s : State) : Out :=
  storeAccess (.st m d a f i) m d a (storeSize f) (fun th => effective th a i (storeSize f)) .followStore true s

/-- 06 R131. -/
def execStr (m : Bool) (d a : BitVec 5) (f : BitVec 3) (i : BitVec 11) (s : State) : Out :=
  storeAccess (.str m d a f i) m d a (storeSize f) (fun th => effective th a i (storeSize f)) .post false s

/-- C.ST: ST.D with offset 0 (02 R47). -/
def execCSt (m : Bool) (a b : BitVec 5) (s : State) : Out :=
  storeAccess (.cSt m a b) m a b 8 (fun th => th.rg b) .followStore true s

/-! ## Full-empty forms (06 R132) -/

/-- A full-empty form: with a destination, or with a data register. -/
def feAccess (i : Instr) (m : Bool) (form : FeForm) (d a : BitVec 5) (off : BitVec 11) (reads acq rel : Bool) (right : Right)
    (s : State) : Out :=
  access { i := i, m := m, dst := if reads then [gd d] else [], src := if reads then [gd a] else [gd d, gd a], long := reads
           mem := true } s (fun th =>
    { kind := .fe form (if reads then 0 else th.rg d), va := effective th a off 8
      need := { size := 8, align := 8, right := right, host := false }, route := .follow, dests := if reads then [gd d] else []
      acq := acq, rel := rel })

/-- 06 R132. -/
def execLdfe (m : Bool) (d a : BitVec 5) (i : BitVec 11) (s : State) : Out :=
  feAccess (.ldfe m d a i) m .ldfe d a i true true false .fe s

/-- 06 R132. -/
def execLdff (m : Bool) (d a : BitVec 5) (i : BitVec 11) (s : State) : Out :=
  feAccess (.ldff m d a i) m .ldff d a i true true false .fe s

/-- 06 R132. -/
def execStef (m : Bool) (d a : BitVec 5) (i : BitVec 11) (s : State) : Out :=
  feAccess (.stef m d a i) m .stef d a i false false true .feW s

/-- 06 R132. -/
def execStff (m : Bool) (d a : BitVec 5) (i : BitVec 11) (s : State) : Out :=
  feAccess (.stff m d a i) m .stff d a i false false true .feW s

/-- 06 R132. -/
def execFeprobe (m : Bool) (d a : BitVec 5) (i : BitVec 11) (s : State) : Out :=
  feAccess (.feprobe m d a i) m .feprobe d a i true false false .fe s

/-- 06 R132. -/
def execFeset (m : Bool) (d a : BitVec 5) (i : BitVec 11) (s : State) : Out :=
  feAccess (.feset m d a i) m .feset d a i false false true .feW s

/-! ## The migration instructions (06 R141) -/

/-- Departure without an access to a tile that is not this one. -/
def migrateTo (f : Form) (th : Thread) (s : State) (dest : Nat) (va isolated : Dword) : Out :=
  let t := s.here
  if dest = t || s.stays th then .next (s.issued { th with pc := th.nextPc f.i })
  else if !s.reachable dest then .next (s.trap Cause.isolated isolated)
  else
    let w : WaitRec := { op := { kind := .arrive, path := .here, origin := .thread t th.tid th.tags, asid := th.asid.toNat
                                 seg := vaSeg va, va := va, lo := 0, owner := dest, src := t }
                         dests := [], size := f.i.size }
    .next ((s.issued th).departTo t s.cur.2.1 s.cur.2.2 th dest w)

/-- MIGRATE (06 R141): it waits as if marked (02 R66); the checks of R128 without alignment or right; a host window traps HOST_WINDOW. -/
def execMigrate (m : Bool) (a : BitVec 5) (i : BitVec 11) (s : State) : Out :=
  let f : Form := { i := .migrate m a i, m := m, waits := true, src := [gd a], mem := true }
  issue f s (fun th s =>
    let va := effective th a i 8
    let d := s.myTile.seg (vaSeg va)
    match ({ size := 1, align := 1, right := .none, host := false } : Need).check d th.scratch (vaOff va) with
    | some c => .next (s.trap c va)
    | none => migrateTo f th s ((d.owner s.here (vaOff va)).getD s.here) va va)

/-- PIN (06 R138). -/
def execPin (m : Bool) (s : State) : Out :=
  let f : Form := { i := .pin m, m := m }
  issue f s (fun th s => .next (s.issued { th with pc := th.nextPc f.i, pincnt := 63 }))

/-- UNPIN (06 R138). -/
def execUnpin (m : Bool) (s : State) : Out :=
  let f : Form := { i := .unpin m, m := m }
  issue f s (fun th s => .next (s.issued { th with pc := th.nextPc f.i, pincnt := 0, bounce := 0 }))

/-- HOME (06 R141): to the tile that the TID names; when it migrates it waits as if marked (02 R66). AVA is left as it is. -/
def execHome (m : Bool) (s : State) : Out :=
  let dest := s.me.tid.toNat / 4096
  let f : Form := { i := .home m, m := m, mem := true, waits := dest != s.here && !s.stays s.me && s.reachable dest }
  issue f s (fun th s =>
    migrateTo f th s dest th.ava (BitVec.ofNat 64 dest))

/-- HERE (06 R141). -/
def execHere (m : Bool) (d : BitVec 5) (s : State) : Out :=
  let name := s.myTile.name.zeroExtend 64
  short { i := .here m d, m := m, dst := [gd d] } s (fun _ => [toG d name])

/-! ## Departure (06 R135 to R139) -/

/-- The departure update: names, bounce, AVA and the g0 slot (01 R22, 06 R135, R139). -/
def Thread.depart' (th : Thread) (t dest : Nat) (w : WaitRec) : Thread :=
  let d2 := th.d1
  let back := d2.toNat == dest
  let four := back && th.bounce.toNat + 1 == 4
  { th with
    d1 := BitVec.ofNat 20 t
    d2 := d2
    bounce := if back && !four then th.bounce + 1 else 0
    pincnt := if four then 32 else th.pincnt
    ava := w.op.va
    g0slot := match w.op.kind with
      | .store _ v => v
      | _ => 0
    hops := 0
    depart := none
    departAt := none
    mark := 0 }

/-- Flits of a context packet (01 R24). -/
def Thread.contextFlits (th : Thread) : Nat := 4 + ones th.vlive.toNat 8

/-- MIGRATION_COMMIT: the port accepts the packet, at the latest in the cycle in which the hold reaches 2,048; the slot is FREE (06 R135,
R137). -/
def execMigrationCommit (t c k : Nat) (s : State) : Out :=
  let th := s.thread t c k
  match th.depart, th.wait with
  | some dest, some w =>
    let held := match th.departAt with
      | some since => decide (s.time ≤ since + 2048)
      | none => false
    if th.st != .departing || !held || !s.unitsRun t then .next s
    else
      let th' := th.depart' t dest w
      let s := ((s.setThread t c k {}).count t 0x240).bb t 5 0 th.tid c k
      let s := if th'.pincnt ≠ th.pincnt then s.count t 0x244 else s
      .next (s.send clsMIG t dest th.asid.toNat th.contextFlits (.context { th := th' } .migrated))
  | _, _ => .next s

/-- DEPARTURE_CONVERT: at a hold of 2,048 cycles the packet is withdrawn, and the access goes as for a seated thread; a
MIGRATE or HOME has no effect (06 R137, R141). -/
def execDepartureConvert (t c k : Nat) (s : State) : Out :=
  let th := s.thread t c k
  match th.departAt, th.wait with
  | some from_, some w =>
    if th.st != .departing || decide (s.time < from_ + 2048) || !s.unitsRun t then .next s
    else
      let s := s.count t 0x243
      let th := { th with st := .ready, depart := none, departAt := none, wait := none }
      let past := { th with pc := th.pc + BitVec.ofNat 48 w.size }
      .next (match w.op.kind with
        | .arrive => s.setThread t c k past
        | .store _ _ => s.sendPosted t c k past w.op w.acq (some (th.pc, th.pincnt, th.issuedAt))
        | .vstore _ _ => s.sendPosted t c k past w.op w.acq (some (th.pc, th.pincnt, th.issuedAt))
        | _ => s.sendRemote t c k th w)
  | _, _ => .next s

/-! ## Responses, retries and budgets (06 R129, R133, R134, 07 R161) -/

/-- An element's answer reaches a thread that is parked or on its way to a slot (15 R327). -/
def Thread.elementBack (th : Thread) (tid : BitVec 32) (tag lane : Nat) (r : Reply) : Thread :=
  if th.awaits tid tag then
    { th with wait := th.wait.map (fun w => if w.elems then { w with lanes := w.lanes.erase lane }.element lane r else w) }
  else th

/-- Such a thread awaits an element. -/
def Tile.elementAway (tl : Tile) (tid : BitVec 32) (tag : Nat) : Bool :=
  (tl.parkedArea.map (·.2) ++ tl.hutch.map (·.ctx.th) ++ tl.cores.filterMap (fun e => e.2.loading.map (fun l => l.2.ctx.th))).any
    (fun th => th.awaits tid tag && (match th.wait with
      | some w => w.elems
      | none => false))

/-- A response reaches its thread: of one element, or of the whole form. -/
def State.response (s : State) (t : Nat) (tid : BitVec 32) (tag lane : Nat) (r : Reply) : State :=
  match (s.tile t).waiting tid tag with
  | none =>
    if (s.tile t).elementAway tid tag then s.mapTile t (fun tl => tl.mapTid tid (fun th => th.elementBack tid tag lane r))
    else s.answerHere t tid tag r
  | some (c, k) =>
    let th := s.thread t c k
    match th.wait with
    | none => s
    | some w =>
      if w.elems then
        let w := { w with lanes := w.lanes.erase lane }.element lane r
        let th := if th.doing == .remoteWait && w.lanes.isEmpty && !w.todo.isEmpty then th.setDoing .ready else th
        (s.setThread t c k { th with wait := some w }).elementsDone t c k
      else s.finish t c k r

/-- Whether the wait budget of a form has run out (06 R134). In the cycle in which it does the form may still be performed: the wait ends
from the next one on. -/
def State.budgetOut (s : State) (t : Nat) (th : Thread) (w : WaitRec) : Bool :=
  th.few ≠ 15 && decide (w.since + 2 ^ (10 + th.few.toNat) < s.residentCycles t)

/-- The device address of an operation, its page walked at once where the TLB lacks it. -/
def State.resolve (s : State) (op : Op) : Option (Nat × State) :=
  match s.locate op with
  | .at_ a s => some (a, s)
  | .miss =>
    let s := s.readNodes op.owner op.seg op.map.psize op.lo
    match s.walk op.owner op.seg op.map.vault op.map.psize op.lo op.kind.writes with
    | .present at_ leaf =>
      some (devAddr op.owner (if pteVault leaf then 1 else 0) (pteFrame leaf + op.lo % 2 ^ pageBits op.map.psize),
        s.fill op.owner op.asid op.seg op.map.psize op.lo at_ leaf op.kind.writes)
    | .fault _ => none

/-- The thread in a slot of a core, or in place k of the parked area for c = 4. -/
def State.threadAt (s : State) (t c k : Nat) : Thread :=
  if c = 4 then (((s.tile t).parkedArea.find? (fun e => e.1 == k)).map (·.2)).getD {} else s.thread t c k

/-- The wait record of an entry of the parked area. -/
def State.setParkedWait (s : State) (t k : Nat) (w : WaitRec) : State :=
  s.mapTile t (fun tl => { tl with parkedArea := tl.parkedArea.map (fun e => if e.1 == k then (k, { e.2 with wait := some w }) else e) })

/-- A parked thread's form at an owner that is its own tile is presented again; where its page has gone the thread takes a slot first. -/
def State.retryParked (s : State) (t k : Nat) (th : Thread) (w : WaitRec) : State :=
  let toSlot := (s.setParkedWait t k { w with retryAt := s.residentCycles t + 256 }).send clsSYS t t th.asid.toNat 1 (.wake th.tid false none)
  match s.resolve w.op with
  | none => toSlot
  | some (a, s') =>
    match s'.touchOp w.op a with
    | .stall s' => s'
    | .ok gate s' =>
      let e := ((s'.setParkedWait t k { w with retry := false }).noteNarrow w.op gate).effect w.op a
      let s' := e.s.wakeAll e.woken
      match e.ans with
      | .reply r => (match w.op.origin with
        | .thread _ tid g => s'.answerHere t tid g r
        | _ => s')
      | .waits => s'
      | _ => toSlot

/-- WAITER_RETRY: a form that found no waiter record is presented again after 256 cycles, for as long as its budget lasts (06 R133, 07
R161); core 4 names an entry of the parked area. -/
def execWaiterRetry (t c k : Nat) (s : State) : Out :=
  let th := s.threadAt t c k
  match th.wait with
  | none => .next s
  | some w =>
    if !w.retry || w.withdrawn || !s.unitsRun t || (if c = 4 then th.haltedFrom else th.st) != w.op.kind.waitState ||
        decide (s.residentCycles t < w.retryAt) || s.budgetOut t th w then .next s
    else if c = 4 then
      .next (if w.op.path = .remote then
          (s.setParkedWait t k { w with retry := false }).send clsREQ t w.op.owner w.op.asid 1 (.request w.op)
        else s.retryParked t k th w)
    else
      let w := { w with retry := false }
      if w.op.path = .remote then
        .next ((s.setThread t c k { th with wait := some w }).send clsREQ t w.op.owner w.op.asid 1 (.request w.op))
      else .next ((s.setThread t c k { th with wait := some w, st := .ready }).acceptOwn t c k)

/-- The cause of a wait that times out. -/
def OpKind.timeout : OpKind → BitVec 8
  | .bar _ _ => Cause.barrierTimeout
  | _ => Cause.feTimeout

/-- TOUT of a barrier object (07 R161). -/
def State.setTout (s : State) (op : Op) (a : Nat) : State :=
  match op.kind with
  | .bar _ _ =>
    let s := s.decodeRange a 8
    s.setDword a (putField (s.dword a) 37 1 1)
  | _ => s

/-- The waiter record of an operation is withdrawn at its owner; none where there is none. -/
def State.withdraw (s : State) (op : Op) : Option State :=
  match (s.tile op.owner).waiters.find? (fun w => w.op.origin == op.origin) with
  | none => none
  | some w => some ((s.removeWaiter op.owner w).setTout op w.addr)

/-- A budget has run out: where the thread waits at the owner its record goes and it traps; where it waits for a response a
withdrawal is sent, unless no record can be held (06 R134, 07 R161). -/
def State.expire (s : State) (t c k : Nat) : State :=
  let th := s.threadAt t c k
  match th.wait with
  | none => s
  | some w =>
    if !s.budgetOut t th w || w.answer.isSome then s
    else
      let trap := fun (s : State) =>
        if c = 4 then s.answerHere t th.tid (match w.op.origin with | .thread _ _ g => g | _ => 0)
            (.trap w.op.kind.timeout w.op.va)
        else s.fail t c k w.op.kind.timeout w.op.va
      let mark := fun (s : State) =>
        if c = 4 then s.setParkedWait t k { w with withdrawn := true }
        else s.setThread t c k { th with wait := some { w with withdrawn := true } }
      if w.op.path = .remote then
        if w.withdrawn && !(w.retry && w.op.kind.timeout != Cause.barrierTimeout) then s
        else if w.retry && w.op.kind.timeout ≠ Cause.barrierTimeout then trap s
        else (mark s).send clsREQ t w.op.owner w.op.asid 1 (.withdraw w.op w.retry)
      else if w.retry then
        match s.resolve w.op with
        | some (a, s) => trap (s.setTout w.op a)
        | none => trap s
      else
        match s.withdraw w.op with
        | some s => trap s
        | none => s

/-- FE_BUDGET_EXPIRE (06 R134, 12 R254); core 4 names an entry of the parked area. -/
def execFeBudgetExpire (t c k : Nat) (s : State) : Out :=
  let st := if c = 4 then TState.feWait else (s.thread t c k).st
  .next (if st == .feWait && s.unitsRun t then s.expire t c k else s)

/-- BAR_WAIT_TIMEOUT (07 R161). -/
def execBarWaitTimeout (t c k : Nat) (s : State) : Out :=
  .next (if (s.thread t c k).st == .barWait && s.unitsRun t then s.expire t c k else s)

/-- FE_WITHDRAW_ACK: the withdrawal found the record; the thread traps (06 R134). -/
def execFeWithdrawAck (n : Nat) (s : State) : Out :=
  match s.takes n with
  | some p =>
    match p.body with
    | .withdrawAck tid tag =>
      let th := (((s.tile p.dst).threads.map (·.2.2)) ++ ((s.tile p.dst).parkedArea.map (·.2))).find? (fun th => th.awaits tid tag)
      match th.bind (·.wait) with
      | some w => .next ((s.dropPacket n).answerHere p.dst tid tag (.trap w.op.kind.timeout w.op.va))
      | none => .next (s.dropPacket n)
    | _ => .next s
  | none => .next s

/-! ## The store buffer's drain (13 R282, 16 R332) -/

/-- The lanes of a block's entry that are written. -/
def SbEntry.lanes (e : SbEntry) : BitVec 16 :=
  (List.range 16).foldl (fun (m : BitVec 16) i =>
    if (e.bytes.getD (4 * i) none).isSome then m ||| BitVec.ofNat 16 (2 ^ i) else m) 0

/-- An entry as an operation at its address. -/
def SbEntry.op (e : SbEntry) (t : Nat) : Op :=
  { kind := .store e.bytes.length 0, path := .here, origin := .thread t e.tid 0, asid := e.asid, seg := e.seg, va := e.va
    lo := e.lo, owner := t, src := t }

/-- An entry performed in the owner order. -/
def State.performEntry (s : State) (t : Nat) (e : SbEntry) : State :=
  if e.bytes.length = 64 then
    s.pokeLanes (e.op t) e.addr e.lanes (BitVec.ofNat 512 (ofBytes (e.bytes.map (fun b => b.getD 0))))
  else s.poke (e.op t) e.addr (e.bytes.map (fun b => b.getD 0))

/-- The threads of a core are HALTED, one in NORMALISE when its service has ended (04 R100), and the BUSY slots of the Trestle that they
own become ORPHANED (01 R25, 10 R221). -/
def State.haltCore (s : State) (t c : Nat) : State :=
  s.mapTile t (fun tl =>
    let core := tl.core c
    let tids := core.slots.filterMap (fun e => if e.2.st == .free then none else some e.2.tid)
    let owned := fun (a : Acc) => match a.owner with
      | some o => tids.contains o
      | none => false
    { tl.setCore c { core with
        slots := core.slots.map (fun e => (e.1, if e.2.st == .free || e.2.st == .halted || e.2.st == .normalise then e.2
          else { e.2 with haltedFrom := e.2.st, st := .halted })) } with
      accs := tl.accs.map (fun e => (e.1, if owned e.2 && tl.slotBusy e.1 then { e.2 with orphaned := true } else e.2)) })

/-- A machine-check stop: the core issues nothing more, and the Bureau is told (16 R332). -/
def State.machineCheckStop (s : State) (t c : Nat) : State :=
  let s := s.haltCore t c
  let s := s.mapTile t (fun tl => tl.setCore c { tl.core c with stopped := true })
  ((s.report (Config.nameM t) 0x13 (t * 8 + c)).bb t 2 0x13 0xFFFFFFFF c).retireSoon t 1 c 1

/-- STORE_BUFFER_DRAIN: the oldest entry of a core, from the cycle after its entry on, is performed (13 R282); one found bad is written
poisoned and stops the core (16 R332). -/
def execStoreBufferDrain (t c : Nat) (bad : Bool) (s : State) : Out :=
  let co := (s.tile t).core c
  match co.sb with
  | [] => .next s
  | e :: rest =>
    if s.time ≤ e.entered || s.behindStall t c 16 then .next s
    else
      match (if e.bytes.length = 64 then s.touch e.addr 64 true (some e.lanes) else s.touch e.addr e.bytes.length true) with
      | .stall s => .next (s.coreStalls t c 16)
      | .ok gate s =>
        let s := ((s.coreGoes t c 16).noteNarrow (e.op t) gate).performEntry t e
        let s := s.mapTile t (fun tl => tl.setCore c { tl.core c with sb := rest })
        if bad then
          .next ((((wordsOf e.addr e.bytes.length).foldl (fun s a => s.setPoison a true) s).bb t 3 0).machineCheckStop t c)
        else .next (s.refreshCore t c)

/-! ## A vault fill returns (14 R303, R305) -/

/-- An access that waited for a line has it; a word of it that the fill poisoned and the access reads makes it trap POISON, and the first
such trap stands (14 R299, R305, log 69). -/
def gatesFilled (line : Nat) (bad : BitVec 8) (gates : List (Dword × Gate)) (trap : Option (BitVec 8 × Dword)) :
    List (Dword × Gate) × Option (BitVec 8 × Dword) :=
  let here := gates.filter (fun g => g.2.line == line)
  let hit := here.find? (fun g => g.2.words &&& bad != 0)
  (gates.filter (fun g => g.2.line != line), match trap, hit with
    | some x, _ => some x
    | none, some g => some (Cause.poison, g.1)
    | none, none => none)

def Pending.lineFilled (line : Nat) (bad : BitVec 8) (p : Pending) : Pending :=
  let r := gatesFilled line bad p.gates p.bad
  { p with gates := r.1, bad := r.2 }

/-- What waited for a line: pending results, and a thread's own access. -/
def Thread.lineFilled (th : Thread) (line : Nat) (bad : BitVec 8) : Thread :=
  { th with
    pending := th.pending.map (Pending.lineFilled line bad)
    silent := th.silent.map (Pending.lineFilled line bad)
    wait := th.wait.map (fun w =>
      let r := gatesFilled line bad w.gates w.bad
      { w with gates := r.1, bad := r.2 }) }

/-- The result whose reads have all come and one of which was poisoned: it traps, and no register of it is written. -/
def Thread.spoilt (th : Thread) : Option Pending := (th.pending ++ th.silent).find? (fun p => p.gates.isEmpty && p.bad.isSome)

/-- Results that trap are no longer awaited; of those that no register takes, the ones that can trap no more either. -/
def Thread.dropSpoilt (th : Thread) : Thread :=
  { th with
    pending := th.pending.filter (fun p => !(p.gates.isEmpty && p.bad.isSome))
    silent := th.silent.filter (fun p => !p.gates.isEmpty || p.mseq.isSome || (p.flags != 0 && p.bad.isNone)) }

/-- A thread whose own access has all its lines now goes on. -/
def State.goOn (s : State) (t c k : Nat) : State :=
  let th := s.thread t c k
  match th.wait with
  | some w =>
    if !w.gates.isEmpty then s
    else if w.elems then s.elementsDone t c k
    else
      match w.answer with
      | some r =>
        if th.walking then
          (s.setThread t c k { th with walking := false, wait := some { w with answer := none } }).finish t c k
            (match w.bad with
              | some (cause, va) => .trap cause va
              | none => r)
        else s
      | none => s
  | none => s

/-- The lines that a thread of the tile waited for have come: its access goes on, and a poisoned result traps (14 R299). -/
def State.lineCame (s : State) (t c k : Nat) : State :=
  let s := s.goOn t c k
  let th := s.thread t c k
  let s := s.setThread t c k th.dropSpoilt
  match th.spoilt with
  | some p =>
    match p.bad with
    | some (cause, va) => (s.trapAt t c k cause va p.pc).stayHalted t c k th.st
    | none => s.refreshCore t c
  | none => s.refreshCore t c

/-- Words i of a line that lie in the sectors given. -/
def lineWords (m : BitVec 4) : BitVec 8 := wordMask (fun i => m.getLsbD (i / 2))

/-- The device addresses of words of a vault line. -/
def vaultWords (t line : Nat) (m : BitVec 8) : List Nat :=
  (List.range 8).filterMap (fun i => if m.getLsbD i then some (vaultAt t (64 * line + 8 * i)) else none)

/-- An answer that reads a word which the fill poisoned becomes a POISON trap; data read for a piece or an operand line are poisoned, and
a host's read says so (14 R299, 19 R402). -/
def poisonedAnswer (p : Packet) (va : Dword) : Packet :=
  match p.body with
  | .response tid tag lane (.done (_ :: _)) => { p with body := .response tid tag lane (.trap Cause.poison va) }
  | .bkResponse b tag (.done (_ :: _)) => { p with body := .bkResponse b tag (.trap Cause.poison va) }
  | .hostResponse md port tag n (.done vals) => { p with body := .hostResponse md port tag n (.doneTrap vals Cause.poison va) }
  | .copyData x => if x.srcOwner = p.src then
      { p with body := .copyData { x with poison := List.range x.data.length, faulted := Cause.poison } } else p
  | .copyRead x => if x.data.isEmpty then p else
      { p with body := .copyRead { x with poison := List.range x.data.length, faulted := Cause.poison } }
  | .bkDone x => if x.bkPut then p else { p with body := .bkDone { x with faulted := Cause.poison } }
  | .line x data _ => { p with body := .line x data Cause.poison }
  | .mline xs data _ => { p with body := .mline xs data Cause.poison }
  | _ => p

/-- A piece whose source data a fill brought poisoned is reported at its source (12 R258). -/
def State.pieceReport (s : State) (p : Packet) : State :=
  let report := fun (x : Piece) => s.addFault p.src
    { tid := x.origin.tid, asid := x.asid, seg := x.srcSeg, kind := 6, reason := 0x12, lo := x.srcLo, va := x.srcVa
      src := x.origin.tile, cls := clsBULK }
  match p.body with
  | .copyData x => if x.srcOwner = p.src then report x else s
  | .bkDone x => if x.bkPut then s else report x
  | _ => s

/-- The sector that an error of a fill lies in: errors beyond 5 name the later of the sectors fetched, in order, over and over. -/
def badSector (fetched : BitVec 4) (errs : Nat) : BitVec 4 :=
  let ks := (List.range 4).filter (fun i => fetched.getLsbD i)
  match ks[(errs - 5) % ks.length]? with
  | some k => BitVec.ofNat 4 (2 ^ k)
  | none => 0

/-- An item of a spill ring whose record is poisoned. -/
def Spilled.poisoned (x : Spilled) : Spilled :=
  match x with
  | .record e => .record { e with poison := true }
  | .note r f => .note r f

/-- Words of a vault line that fail poison the records of a tile's spill rings that they hold: each item has the 32 bytes
of its place in its ring (17 R357, R366). -/
def Tile.poisonRings (tl : Tile) (line : Nat) (bad : BitVec 8) : Tile :=
  if bad = 0 then tl
  else
    { tl with dqueues := tl.dqueues.map (fun e =>
        let base := tl.spillBase e.1
        (e.1, { e.2 with ring := (e.2.ring.zipIdx).map (fun x =>
          let a := base + 32 * ((e.2.tail + e.2.ringSize - e.2.ring.length + x.2) % e.2.ringSize)
          if a / 64 = line && bad &&& ((0xF : BitVec 8) <<< (a / 8 % 8)) != 0 then x.1.poisoned else x.1) })) }

/-- An answer whose line has come: it waits for its next line, or leaves; one that reads what came poisoned is spoilt. -/
def State.release (s : State) (t : Nat) (g : Gated) : State :=
  match g.more with
  | h :: rest =>
    s.mapTile t (fun tl => { tl with vc := { tl.vc with misses := tl.vc.misses.map (fun (m : Miss) =>
      if m.line == h.line then { m with out := m.out ++ [{ g with words := h.words, more := rest }] } else m) } })
  | [] =>
    let s := if g.bad then s.pieceReport g.p else s
    { s with net := s.net ++ [if g.bad then poisonedAnswer g.p g.va else g.p] }

/-- VAULT_FILL_RETURN: the line's sectors are filled and what waited for it goes on. `errs` counts detected link errors in a row of one
transfer more (State.transferError): up to 4 are retried; with more the sector is poisoned, but for the words that later writes have replaced
(14 R299, R305). One whose line still
sits in a write-back entry fills from that (14 R303). -/
def execVaultFillReturn (t n errs : Nat) (s : State) : Out :=
  let v := (s.tile t).vc
  match v.misses[n]? with
  | none => .next s
  | some m =>
    if m.waitWb || !s.powered (Config.nameM t) then .next s
    else
      let errs := if m.fromWb then 0 else errs
      let lostSectors := m.lost ||| (if 4 < errs then badSector m.sectors errs else 0)
      let lost := lineWords lostSectors
      let bad := lost &&& ~~~ m.written
      let l : VLine := match v.line? m.line with
        | some l => { l with valid := l.valid ||| m.sectors ||| m.dirty, dirty := l.dirty ||| m.dirty, mark := false }
        | none => { line := m.line, valid := m.sectors ||| m.dirty, dirty := m.dirty, mark := m.prefetch && !m.late && !m.spent
                    way := m.way }
      let v := { ({ v with misses := v.misses.eraseIdx n }.putLine l).touchWay m.line l.way with }
      let s := s.mapTile t (fun tl => ({ tl with vc := v } : Tile).poisonRings m.line bad)
      let s := if lostSectors ≠ 0 then
          (((vaultWords t m.line bad).foldl (fun s a => s.setPoison a true) s).count t 0x20C
            ((List.range 4).filter lostSectors.getLsbD).length).bb t 3 0
        else s
      let s := if errs ≠ 0 && errs < 5 && m.sectors ≠ 0 then s.count t 0x20B else s
      let s := m.narrow.foldl (fun s e =>
        match e.1.kind.discard with
        | some r => if e.2 &&& lost = 0 then s else s.reportDiscard e.1 4 r
        | none => s) s
      let hit := (s.tile t).threads
      let s := s.mapTile t (fun tl => tl.mapThreads (fun _ _ th => th.lineFilled m.line lost))
      let s := hit.foldl (fun s e => s.lineCame t e.1 e.2.1) s
      let s := s.mapTile t (fun tl => { tl with vc := { tl.vc with misses := tl.vc.misses.map (fun (x : Miss) =>
        { x with out := x.out.map (fun g => { g with
            more := g.more.filter (fun h => h.line != m.line)
            bad := g.bad || g.more.any (fun h => h.line == m.line && h.words &&& lost != 0) }) }) } })
      .next (m.out.foldl (fun s g => s.release t { g with bad := g.bad || g.words &&& lost != 0 }) s)

/-- A transfer of an outstanding fill met detected link errors: up to 4 in a row are retried, and with more its sector is lost (14 R305). -/
def State.transferError (s : State) (t n sector errs : Nat) : State :=
  match (s.tile t).vc.misses[n]? with
  | none => s
  | some m =>
    if m.waitWb || m.fromWb || errs = 0 || !m.sectors.getLsbD sector || !s.powered (Config.nameM t) then s
    else if errs < 5 then s.count t 0x20B
    else s.mapTile t (fun tl => { tl with vc := tl.vc.putMiss { m with lost := m.lost ||| BitVec.ofNat 4 (2 ^ sector) } })

end Sys2Proof.Machine
end

