-- ==== Sys2Proof/Machine/Engines.lean ====
section
/-! DEFINITION. The copy engine and the ENG instructions: copies and their pieces, and the starting and mailboxes of the Bookends
(12 R250 to R261, R268 to R270). -/
namespace Sys2Proof.Machine

/-! ## CPY and CPY2D (12 R255, R260) -/

/-- The arrival word of a copy (12 R251, R255): aligned to 16 bytes, as R251 has every arrival word (DESIGN CHOICE between the two rules, log
83). -/
def awNeed' : Need := { size := 16, align := 16, right := .rdWA, host := false, sramOnly := true, kind13 := true }

/-- The checks of one range, destination then source (12 R255): the cause and the failing start. -/
def State.copyRangeTrap (s : State) (th : Thread) (r : CopyRow) : Option (BitVec 8 × Dword) :=
  let dd := s.myTile.seg (vaSeg r.dst)
  let ds := s.myTile.seg (vaSeg r.src)
  let replica := dd.kind = 2 && th.priv != 0
  match dd.check th.scratch (vaOff r.dst) r.len 1 (if replica then .none else .w) with
  | some c => some (c, r.dst)
  | none =>
    if dd.kind = 2 && !replica then some (Cause.segRights, r.dst)
    else
      match ds.check th.scratch (vaOff r.src) r.len 1 .rd with
      | some c => some (c, r.src)
      | none => if dd.kind = 5 && ds.kind = 5 then some (Cause.hostWindow, r.src) else none

/-- The first failing check of a command's rows and arrival word, in order. -/
def State.copyTrap (s : State) (th : Thread) (rows : List CopyRow) (aw : Dword) : Option (BitVec 8 × Dword) :=
  let awTrap := (awNeed'.check (s.myTile.seg (vaSeg aw)) th.scratch (vaOff aw)).map (fun c => (c, aw))
  match rows with
  | [] => awTrap
  | r :: rest =>
    match s.copyRangeTrap th r with
    | some e => some e
    | none =>
      match awTrap with
      | some e => some e
      | none => rest.findSome? (s.copyRangeTrap th)

/-- A checked command enters the queue of 16, or its turn is forfeited (12 R255). -/
def copyEnqueue (f : Form) (th : Thread) (s : State) (rows : List CopyRow) (aw : Dword) : Out :=
  match s.copyTrap th rows aw with
  | some (c, v) => .next (s.trap c v)
  | none =>
    if 16 ≤ s.myTile.copies.length then .next s.forfeit
    else
      let cmd : CopyCmd := { asid := th.asid.toNat, tid := th.tid, rows := rows, aw := aw, supervisor := th.priv != 0
                             scratch := th.scratch, segs := s.myTile.segs }
      .next ((s.issued { th with pc := th.nextPc f.i, block := none }).mapTile s.here (fun tl =>
        { tl with copies := tl.copies ++ [cmd] }))

/-- 12 R255: a length of 0 passes the checks and then has no effect. -/
def execCpy (m : Bool) (a b c l : BitVec 5) (s : State) : Out :=
  let f : Form := { i := .cpy m a b c l, m := m, waits := true, src := [gd a, gd b, gd c, gd l], mem := true }
  issue f s (fun th s =>
    let rows : List CopyRow := [{ dst := th.rg b, src := th.rg c, len := (th.rg l).toNat }]
    match s.releaseWait true s.myCore th with
    | some s => .next s
    | none =>
      match (if th.rg l = 0 then s.copyTrap th rows (th.rg a) else none) with
      | some (cause, va) => .next (s.trap cause va)
      | none =>
        if th.rg l = 0 then .next (s.issued { th with pc := th.nextPc f.i })
        else copyEnqueue f th s rows (th.rg a))

/-- The rows of a CPY2D's block; none when a field is out of range (12 R260). -/
def blockRows (ws : List Dword) : Option (List CopyRow) :=
  let w := fun i => ws.getD i 0
  let len := field (w 2) 0 32
  let rows := field (w 2) 32 32
  if len = 0 || decide (2 ^ 24 < len) || rows = 0 || decide (65536 < rows) || w 5 != 0 || w 6 != 0 || w 7 != 0 then none
  else some ((List.range rows).map (fun i =>
    { dst := w 0 + BitVec.ofNat 64 i * w 3, src := w 1 + BitVec.ofNat 64 i * w 4, len := len }))

/-- 12 R260. -/
def execCpy2d (m : Bool) (a b : BitVec 5) (s : State) : Out :=
  let f : Form := { i := .cpy2d m a b, m := m, waits := true, src := [gd a, gd b], mem := true }
  issue f s (fun th s =>
    match s.releaseWait true s.myCore th with
    | some s => .next s
    | none =>
      let va := th.rg b
      match th.block with
      | some ws =>
        match blockRows ws with
        | none => .next (s.trap Cause.segBounds va)
        | some rows => copyEnqueue f th s rows (th.rg a)
      | none =>
        match (s.myTile.seg (vaSeg va)).check th.scratch (vaOff va) 64 64 .rd with
        | some c => .next (s.trap c va)
        | none => .next (s.readBlock th va 8))

/-! ## Pieces (12 R256 to R259) -/

/-- Bytes from an offset to the next granule boundary of a segment. -/
def Segment.toGranule (d : Segment) (o : Nat) : Nat := if d.kind = 1 then 2 ^ d.g - o % 2 ^ d.g else 2 ^ 61

/-- Owner and local offset of an address for a copy: a host window gives no tile and the bus address (19 R407). -/
def Segment.place (d : Segment) (t : Nat) (scratch : Option (Nat × Nat)) (o : Nat) : Nat × Nat :=
  if d.kind = 5 then (Config.noTile, field d.host 63 1 * 2 ^ 63 + (field d.host 0 63 + o) % 2 ^ 63) else ((d.owner t o).getD t, d.localOffset scratch o)

/-- Bytes of a row from its start to the end of a piece: at most 64, up to a line of the destination and a granule of either side. -/
def pieceSize (dd ds : Segment) (r : CopyRow) : Nat :=
  min (min r.len (64 - r.dst.toNat % 64)) (min (dd.toGranule (vaOff r.dst)) (ds.toGranule (vaOff r.src)))

/-- The next piece of a row (12 R256). -/
def pieceOf (segs : Tab Segment) (t asid : Nat) (origin : Origin) (scratch : Option (Nat × Nat)) (r : CopyRow)
    (aw : Option Dword) : Piece :=
  let dd := segs.get {} (vaSeg r.dst)
  let ds := segs.get {} (vaSeg r.src)
  let d := dd.place t scratch (vaOff r.dst)
  let c := ds.place t scratch (vaOff r.src)
  { asid := asid, origin := origin, len := pieceSize dd ds r
    dstSeg := vaSeg r.dst, dstVa := r.dst, dstOwner := d.1, dstLo := d.2, dstMap := dd.mapping
    srcSeg := vaSeg r.src, srcVa := r.src, srcOwner := c.1, srcLo := c.2, srcMap := ds.mapping
    awMap := (segs.get {} (vaSeg (aw.getD 0))).mapping
    aw := aw.map (fun a =>
      let da := segs.get {} (vaSeg a)
      let p := da.place t scratch (vaOff a)
      (vaSeg a, a, p.1, p.2)) }

/-- The further source parts of a destination line that a granule boundary of the source cuts: a replica update replaces the line in one
step (12 R259). -/
def sourceParts (ds : Segment) (t : Nat) (scratch : Option (Nat × Nat)) (va : Dword) (n : Nat) :
    Nat → List (Nat × Dword × Nat × Nat × Nat × Mapping)
  | 0 => []
  | fuel + 1 =>
    if n = 0 then []
    else
      let k := min n (ds.toGranule (vaOff va))
      let c := ds.place t scratch (vaOff va)
      (vaSeg va, va, c.1, c.2, k, ds.mapping) :: sourceParts ds t scratch (va + BitVec.ofNat 64 k) (n - k) fuel

/-- A piece of a replica update: a destination line, or what of it the row covers. -/
def Piece.wholeLine (x : Piece) (segs : Tab Segment) (t : Nat) (scratch : Option (Nat × Nat)) (r : CopyRow) : Piece :=
  let n := min r.len (64 - r.dst.toNat % 64)
  { x with
    len := n
    parts := sourceParts (segs.get {} (vaSeg r.src)) t scratch (r.src + BitVec.ofNat 64 x.len) (n - x.len) 8 }

/-- Bytes to read from the source that a piece names now. -/
def Piece.partLen (x : Piece) : Nat := x.len - x.data.length - (x.parts.map (fun p => p.2.2.2.2.1)).sum

/-- A piece is finished at its destination: its count goes to the arrival word, or a Bookend's transfer is told (12 R252, R256,
R266). -/
def State.pieceDone (s : State) (t : Nat) (x : Piece) : State :=
  let x := { x with data := if x.bkPut then [] else x.data }
  match x.aw with
  | some (_, _, owner, _) => if s.reachable owner then s.send clsBULK t owner x.asid 1 (.copyCount x) else s
  | none => s.send clsBULK t x.origin.tile x.asid 1 (.bkDone x)

/-- A piece goes to the next tile of a replica update, or it is finished; a tile that cannot be reached is passed over with a record (12
R259, 18 R382). -/
def State.replicate (s : State) (t : Nat) (x : Piece) : List Nat → State
  | [] => s.pieceDone t x
  | next :: rest =>
    if s.reachable next then s.send clsBULK t next x.asid 2 (.copyData { x with dstOwner := next, replica := rest })
    else
      (s.addFault t { tid := x.origin.tid, asid := x.asid, seg := x.dstSeg, kind := 6, reason := 0x17, lo := x.dstLo, va := x.dstVa
                      src := x.origin.tile, cls := clsBULK }).replicate t { x with faulted := Cause.pageDenied } rest

/-- A piece meets a refused page, or an owner that has no site (12 R258, 18 R382): where it is refused at one tile of a replica update the
others are still written. -/
def State.pieceRefused (s : State) (t : Nat) (x : Piece) (seg lo : Nat) (va : Dword) : State :=
  let s := s.addFault t { tid := x.origin.tid, asid := x.asid, seg := seg, kind := 6, reason := 0x17, lo := lo, va := va
                          src := x.origin.tile, cls := clsBULK }
  if x.data.length = x.len then s.replicate t { x with faulted := Cause.pageDenied } x.replica
  else s.pieceDone t { x with data := [], faulted := Cause.pageDenied }

/-- The data of a piece leave its source for the destination owner, or for the host. -/
def State.sendData (s : State) (t : Nat) (x : Piece) : State :=
  if x.aw.isNone && !x.bkPut then s.send clsBULK t x.origin.tile x.asid 2 (.bkDone x)
  else if x.dstOwner = Config.noTile then
    { s with hostOut := (x.dstLo / 2 ^ 63 % 2, BitVec.ofNat 64 (x.dstLo % 2 ^ 63), x.data) :: s.hostOut }.pieceDone t x
  else if s.reachable x.dstOwner then s.send clsBULK t x.dstOwner x.asid 2 (.copyData x)
  else s.pieceRefused t x x.dstSeg x.dstLo x.dstVa

/-- n bytes read from the host: free values (log 3). -/
def State.hostBytes (s : State) (n : Nat) : List Byte × State :=
  ((List.range n).map (fun i => (Config.hostData (s.fresh + i)).truncate 8), { s with fresh := s.fresh + n })

/-- The read command of a piece goes to its source owner, and then to those of its further parts; one from a host window reads the host (12
R255). -/
def State.sendRead (s : State) (t : Nat) (x : Piece) : Nat → State
  | 0 => s
  | fuel + 1 =>
    if x.srcOwner = Config.noTile then
      let (bs, s) := s.hostBytes x.partLen
      let x := { x with data := x.data ++ bs }
      match x.parts with
      | [] => s.sendData t x
      | (seg, va, owner, lo, _, m) :: rest =>
        s.sendRead t { x with srcSeg := seg, srcVa := va, srcOwner := owner, srcLo := lo, srcMap := m, parts := rest } fuel
    else if s.reachable x.srcOwner then s.send clsBULK t x.srcOwner x.asid 1 (.copyRead x)
    else s.pieceRefused t x x.srcSeg x.srcLo x.srcVa

/-- COPY_PIECE_ISSUE: the engine sends the read of its oldest command's next piece (12 R256). A kind 2 destination is written
by every tile of the partition in turn (12 R259). -/
def execCopyPieceIssue (t : Nat) (s : State) : Out :=
  let tl := s.tile t
  match tl.copies with
  | [] => .next s
  | cmd :: rest =>
    if !s.unitsRun t then .next s
    else
      match cmd.rows with
      | [] => .next (s.mapTile t (fun tl => { tl with copies := rest }))
      | r :: rows =>
        let x := pieceOf cmd.segs t cmd.asid (.thread t cmd.tid 0) cmd.scratch r (some cmd.aw)
        let tiles := (s.tiles.filter (fun e => e.2.resident cmd.asid)).map (·.1)
        let x := if (cmd.segs.get {} (vaSeg r.dst)).kind = 2 then
            { x.wholeLine cmd.segs t cmd.scratch r with dstOwner := tiles.headD t, replica := tiles.tail } else x
        let step := BitVec.ofNat 64 x.len
        let rows := if r.len ≤ x.len then rows
          else { dst := r.dst + step, src := r.src + step, len := r.len - x.len } :: rows
        let s := s.mapTile t (fun tl =>
          { tl with copies := if rows.isEmpty then rest else { cmd with rows := rows } :: rest })
        .next (s.sendRead t x 9)

/-! ### A piece performed at an owner -/

/-- Up to two runs of bytes that a piece takes from an offset on: each lies in one 64-byte line. -/
def lineRuns (lo n : Nat) : List (Nat × Nat) :=
  let first := min n (64 - lo % 64)
  if n ≤ first then [(lo, n)] else [(lo, first), (lo + first, n - first)]

/-- The read of a piece at its source: the device addresses of its runs (12 R256, R257). -/
def State.readPiece (s : State) (t : Nat) (x : Piece) (runs : List (Nat × Nat)) : State :=
  let cells := runs.flatMap (fun r => (List.range r.2).map (fun i => r.1 + i))
  let data := cells.map s.byte
  let bad := (List.range cells.length).filter (fun i => s.isPoisoned (cells.getD i 0) 1)
  let s := if bad.isEmpty then s else
    s.addFault t { tid := x.origin.tid, asid := x.asid, seg := x.srcSeg, kind := 6, reason := 0x12, lo := x.srcLo, va := x.srcVa
                   src := x.origin.tile, cls := clsBULK }
  let x := { x with
    data := x.data ++ data, poison := x.poison ++ bad.map (· + x.data.length)
    faulted := if bad.isEmpty then x.faulted else Cause.poison }
  match x.parts with
  | [] => s.sendData t x
  | (seg, va, owner, lo, _, m) :: rest =>
    s.sendRead t { x with srcSeg := seg, srcVa := va, srcOwner := owner, srcLo := lo, srcMap := m, parts := rest } 9

/-- The write of a piece at its destination (12 R256, R258): poisoned bytes poison their words, words replaced whole lose
their poison, and one replaced in part stays poisoned. -/
def State.writePiece (s : State) (t : Nat) (x : Piece) (a : Nat) : State :=
  let n := x.data.length
  let whole := fun (w : Nat) => decide (a ≤ w) && decide (w + 8 ≤ a + n)
  let words := wordsOf a n
  let kept := words.any (fun w => s.poison.contains w && !whole w)
  let s := s.store a x.data
  let s := words.foldl (fun s w => if whole w then s.setPoison w false else s) s
  let s := x.poison.foldl (fun s i => s.setPoison (a + i) true) s
  let s := if kept then
    s.addFault t { tid := x.origin.tid, asid := x.asid, seg := x.dstSeg, kind := 6, reason := 0x12, lo := x.dstLo, va := x.dstVa
                   src := x.origin.tile, cls := clsBULK } else s
  let x := { x with faulted := if kept then Cause.poison else x.faulted }
  s.replicate t x x.replica

/-- A count applied to its arrival word (12 R252); a poisoned word discards it (14 R299). -/
def State.countPiece (s : State) (t : Nat) (x : Piece) (a : Nat) : State × List (Op × Reply) :=
  if s.isPoisoned a 16 then
    (s.addFault t { tid := x.origin.tid, asid := x.asid, seg := (x.aw.map (·.1)).getD 0, kind := 4, reason := 4
                    lo := (x.aw.map (·.2.2.2)).getD 0, va := (x.aw.map (·.2.1)).getD 0, src := x.origin.tile, cls := clsBULK }, [])
  else s.awArrive t a x.len (x.faulted != 0)

/-! ## Bookends (12 R268 to R270) -/

/-- The reset values of a Bookend with an image loaded (12 R264, R269). -/
def Bookend.started (epoch cycles : Nat) (entry x10 : Word) (code data : List Byte) : Bookend :=
  let tab := fun (bs : List Byte) => ((List.range bs.length).zip bs).filter (fun e => e.2 != 0)
  { mode := 1, pc := entry, x := [(10, x10)], imem := tab code, dmem := tab data, epoch := epoch
    mcycle := 0 - BitVec.ofNat 64 cycles }

/-- Whether n bytes from an address on are owned by the current tile (12 R269). -/
def State.ownsRange (s : State) (th : Thread) (va : Dword) (n : Nat) : Bool :=
  let d := s.myTile.seg (vaSeg va)
  let o := vaOff va
  d.kind != 5 && decide (o + n ≤ d.size th.scratch) &&
  (d.kind != 1 || (List.range ((o + n - 1) / 2 ^ d.g - o / 2 ^ d.g + 1)).all (fun i =>
    d.owner s.here ((o / 2 ^ d.g + i) * 2 ^ d.g) == some s.here))

/-- How reading bytes of the image ends. -/
inductive ImageRead where
  | bytes (bs : List Byte) (s : State)
  | poison (va : Dword)
  | wait (s : State)

/-- The n-th line of an image goes through the pipeline once, and is in hand when its fill has come: the state then, or the state in which the
form waits and is presented again (14 R302, R303). -/
def State.imageLine (s : State) (a n : Nat) : Except State State :=
  if n < s.me.imaged then (if s.missing a then .error s else .ok s)
  else
    match s.touch a 64 false with
    | .stall s => .error (s.coreStalls s.here s.cur.2.1 s.cur.2.2)
    | .ok g s =>
      let s := s.coreGoes s.here s.cur.2.1 s.cur.2.2
      let s := s.setMe { s.me with imaged := n + 1 }
      if g.isSome then .error s else .ok s

/-- Bytes of the image, line by line, at the current tile. A page that the TLB lacks is walked for first. -/
def State.readImage (s : State) (th : Thread) (va : Dword) (bs : List Byte) (n : Nat) : Nat → ImageRead
  | 0 => .bytes bs s
  | lines + 1 =>
    let t := s.here
    let d := s.myTile.seg (vaSeg va)
    let lo := d.localOffset th.scratch (vaOff va)
    match s.translate t th.asid.toNat (vaSeg va) (d.kind == 4) false d.psize lo with
    | .miss =>
      match s.startWalk t th.asid.toNat (vaSeg va) d.mapping lo va false (.own s.cur.2.1 s.cur.2.2) with
      | some s => .wait (s.setMe { s.me with walking := true })
      | none => .wait s
    | .at_ a s =>
      if s.myCore.sb.any (fun e => e.overlaps (.vload 0xFFFF) a) then .wait (s.hold (.overlap s.myCore.sbNext))
      else
        match s.imageLine a n with
        | .error s => .wait s
        | .ok s =>
          if s.isPoisoned a 64 then .poison va
          else s.readImage th (va + 64) (bs ++ s.bytes a 64) (n + 1) lines

/-- SCSTART with its header: the result 1 to 3, or the start (12 R269). -/
def scstartWith (f : Form) (d : BitVec 5) (th : Thread) (s : State) (va : Dword) (n : Nat) (force : Bool) (ws : List Dword) : Out :=
  let w := fun i => ws.getD i 0
  let code := field (w 0) 0 32
  let data := field (w 0) 32 32
  let entry := field (w 1) 0 32
  let finish := fun (s : State) (v : Dword) =>
    s.issued { ({ th with block := none, imaged := 0 }).await { tag := 0, dests := live f.dst, ready := true, writes := [toG d v] } with
      pc := th.nextPc f.i, block := none, imaged := 0 }
  let ok := code % 4 == 0 && decide (code ≤ 32768) && data % 4 == 0 && decide (data ≤ 16384) && entry % 2 == 0 &&
    decide (entry < code) && (List.range 6).all (fun i => w (i + 2) == 0)
  if (s.myTile.bookend n).mode = 1 && !force then .next (finish s 1)
  else if !ok then .next (finish s 2)
  else if !s.ownsRange th va (64 + code + data) then .next (finish s 3)
  else
    match s.readImage th (va + 64) [] 0 ((code + data + 63) / 64) with
    | .wait s => .next s
    | .poison a => .next (s.trap Cause.poison a)
    | .bytes bs s =>
      let old := s.myTile.bookend n
      let b := Bookend.started (old.epoch + 1) (s.residentCycles s.here) (BitVec.ofNat 32 entry) (BitVec.ofNat 32 (field (w 1) 32 32)) (bs.take code)
        ((bs.drop code).take data)
      .next ((finish s 0).mapTile s.here (fun tl => tl.setBookend n b))

/-- 12 R269. -/
def execScstart (m : Bool) (d b c : BitVec 5) (s : State) : Out :=
  let f : Form := { i := .scstart m d b c, m := m, waits := true, dst := [gd d], src := [gd b, gd c], long := true, mem := true }
  privileged f (fun th => (th.rg c).getLsbD 1 && th.priv == 0) s (fun th s =>
    let n := field (th.rg c) 0 1
    let force := (th.rg c).getLsbD 1
    let va := th.rg b
    let finish := fun (v : Dword) =>
      s.issued { th.await { tag := 0, dests := live f.dst, ready := true, writes := [toG d v] } with pc := th.nextPc f.i }
    match s.releaseWait true s.myCore th with
    | some s => .next s
    | none =>
      match th.block with
      | some ws => scstartWith f d th s va n force ws
      | none =>
        match (s.myTile.seg (vaSeg va)).check th.scratch (vaOff va) 64 64 .rd with
        | some cause => .next (s.trap cause va)
        | none =>
          if (s.myTile.bookend n).mode = 1 && !force then .next (finish 1)
          else if !s.ownsRange th va 64 then .next (finish 3)
          else .next (s.readBlock th va 8))

/-- 12 R270. -/
def execScmail (m : Bool) (d b c : BitVec 5) (s : State) : Out :=
  let f : Form := { i := .scmail m d b c, m := m, waits := true, dst := [gd d], src := [gd b, gd c], long := true, mem := true }
  issue f s (fun th s =>
    match s.releaseWait true s.myCore th with
    | some s => .next s
    | none =>
      let n := field (th.rg c) 0 1
      let x := s.myTile.bookend n
      let v : Dword := if x.mode ≠ 1 then 2 else if 8 ≤ x.inbox.length then 1 else 0
      let s := s.issued { th.await { tag := 0, dests := live f.dst, ready := true, writes := [toG d v] } with pc := th.nextPc f.i }
      .next (if v = 0 then s.mapTile s.here (fun tl => tl.setBookend n { x with inbox := x.inbox ++ [th.rg b] }) else s))

/-- 12 R270: an acquire; waits in QWAIT while the outbox is empty. -/
def execScwait (m : Bool) (d c : BitVec 5) (s : State) : Out :=
  let f : Form := { i := .scwait m d c, m := m, dst := [gd d], src := [gd c], long := true, mem := true }
  issue f s (fun th s =>
    let x : Access := { kind := .outbox (field (th.rg c) 0 1), va := 0, need := { size := 1, align := 1, right := .none }
                        route := .remote, dests := [gd d], pin := false, acq := true, size := f.i.size }
    .next (s.route th x s.here 0))

end Sys2Proof.Machine
end

