-- ==== Sys2Proof/Machine/RiscV.lean ====
section
/-! DEFINITION. The Bookends: the base instructions of RV32IMC and Zicsr in machine mode, and the six custom forms (12 R262 to
R271). -/
namespace Sys2Proof.Machine

/-! ## The Bookend at work (12 R262 to R264) -/

def State.bk (s : State) : Bookend := (s.tile s.curBk.1).bookend s.curBk.2
def State.setBk (s : State) (b : Bookend) : State := s.mapTile s.curBk.1 (fun tl => tl.setBookend s.curBk.2 b)

/-- n bytes of a store of the Bookend, as a number. -/
def storeNum (m : Tab Byte) (a n : Nat) : Nat := ofBytes ((List.range n).map (fun i => m.get 0 (a + i)))
def storePut (m : Tab Byte) (a : Nat) : List Byte → Tab Byte
  | [] => m
  | b :: bs => storePut (m.set a b) (a + 1) bs

def imemBytes : Nat := 0x8000
def dmemBase : Nat := 0x10000
def dmemBytes : Nat := 0x4000

/-- The word at the PC. -/
def State.bookendWord (s : State) : Nat := storeNum s.bk.imem s.bk.pc.toNat 4

/-- A Bookend runs while it is started, its tile's partition runs, and no BK.RD awaits its response (12 R266, R271). -/
def State.bookendRuns (s : State) : Bool :=
  s.bk.mode == 1 && s.bk.reading.isNone && s.unitsRun s.curBk.1

namespace Bookend

def rx (b : Bookend) (r : Nat) : Word := if r = 0 then 0 else b.x.get 0 r
def setX (b : Bookend) (r : Nat) (v : Word) : Bookend := if r = 0 then b else { b with x := b.x.set r v }

/-- A halt places the halt word after the words of the outbox, and displaces the oldest of eight (12 R268). -/
def halt (b : Bookend) (mcause : Nat) : Bookend :=
  let words := if 8 ≤ b.outbox.length then b.outbox.tail else b.outbox
  { b with mode := 2, outbox := words ++ [BitVec.ofNat 64 (2 ^ 63 + mcause)] }

/-- A trap: the exception registers are written and the Bookend goes to mtvec, or halts where that is 0 (12 R264). -/
def trap (b : Bookend) (mcause : Nat) (mtval : Word) : Bookend :=
  let mie := b.mstatus.getLsbD 3
  let b := { b with
    mepc := b.pc, mcause := BitVec.ofNat 32 mcause, mtval := mtval
    mstatus := if mie then 0x1880 else 0x1800 }
  if b.mtvec = 0 then b.halt mcause else { b with pc := b.mtvec }

/-- An instruction retires: the PC moves on and minstret counts it. -/
def retire (b : Bookend) (pc : Word) : Bookend := { b with pc := pc, minstret := b.minstret + 1 }

end Bookend

/-- How an instruction of a Bookend ends. -/
inductive BkEnd where
  | to (b : Bookend)
  | stall
  | trap (mcause : Nat) (mtval : Word)

/-- The Bookend's new state; a halt serves the threads that wait on its outbox (12 R268, R270). -/
def State.endBk (s : State) (e : BkEnd) : State :=
  match e with
  | .stall => s
  | .to b => s.setBk b
  | .trap c v =>
    let s := s.setBk (s.bk.trap c v)
    let (s, woken) := s.serveOutbox s.curBk.1 s.curBk.2 [] (s.tile s.curBk.1).scWaiters.length
    s.wakeAll woken

/-! ## Compressed instructions (RISC-V C, RV32) -/

/-- Bits lo to lo + n - 1 of an instruction. -/
def rvBits (w lo n : Nat) : Nat := w / 2 ^ lo % 2 ^ n
/-- A sign-extended number of n bits as 32 bits. -/
def rvSext (n x : Nat) : Nat := ((BitVec.ofNat n x).signExtend 32).toNat

def rvI (op f3 rd rs1 imm : Nat) : Nat := op + rd * 2 ^ 7 + f3 * 2 ^ 12 + rs1 * 2 ^ 15 + imm % 4096 * 2 ^ 20
def rvR (f7 f3 rd rs1 rs2 : Nat) : Nat := 0x33 + rd * 2 ^ 7 + f3 * 2 ^ 12 + rs1 * 2 ^ 15 + rs2 * 2 ^ 20 + f7 * 2 ^ 25
def rvS (rs1 rs2 imm : Nat) : Nat :=
  0x23 + imm % 32 * 2 ^ 7 + 2 * 2 ^ 12 + rs1 * 2 ^ 15 + rs2 * 2 ^ 20 + imm / 32 % 128 * 2 ^ 25
def rvB (f3 rs1 imm : Nat) : Nat :=
  0x63 + rvBits imm 11 1 * 2 ^ 7 + rvBits imm 1 4 * 2 ^ 8 + f3 * 2 ^ 12 + rs1 * 2 ^ 15 + rvBits imm 5 6 * 2 ^ 25 +
  rvBits imm 12 1 * 2 ^ 31
def rvJ (rd imm : Nat) : Nat :=
  0x6F + rd * 2 ^ 7 + rvBits imm 12 8 * 2 ^ 12 + rvBits imm 11 1 * 2 ^ 20 + rvBits imm 1 10 * 2 ^ 21 + rvBits imm 20 1 * 2 ^ 31
def rvU (rd imm : Nat) : Nat := 0x37 + rd * 2 ^ 7 + imm % 2 ^ 20 * 2 ^ 12

/-- C.LW and C.SW: offset bits 5:3, 2, 6. -/
def rvcWord (w : Nat) : Nat := rvBits w 10 3 * 8 + rvBits w 6 1 * 4 + rvBits w 5 1 * 64
def rvcJump (w : Nat) : Nat :=
  rvSext 12 (rvBits w 12 1 * 2048 + rvBits w 11 1 * 16 + rvBits w 9 2 * 256 + rvBits w 8 1 * 1024 + rvBits w 7 1 * 64 +
    rvBits w 6 1 * 128 + rvBits w 3 3 * 2 + rvBits w 2 1 * 32)
def rvcBranch (w : Nat) : Nat :=
  rvSext 9 (rvBits w 12 1 * 256 + rvBits w 10 2 * 8 + rvBits w 5 2 * 64 + rvBits w 3 2 * 2 + rvBits w 2 1 * 32)
def rvcImm (w : Nat) : Nat := rvSext 6 (rvBits w 12 1 * 32 + rvBits w 2 5)

/-- Quadrant 0. -/
def expand0 (w : Nat) : Option Nat :=
  let rd := 8 + rvBits w 2 3
  let rs := 8 + rvBits w 7 3
  let f := rvBits w 13 3
  let spn := rvBits w 11 2 * 16 + rvBits w 7 4 * 64 + rvBits w 6 1 * 4 + rvBits w 5 1 * 8
  if f = 0 then (if spn = 0 then none else some (rvI 0x13 0 rd 2 spn))
  else if f = 2 then some (rvI 0x03 2 rd rs (rvcWord w))
  else if f = 6 then some (rvS rs rd (rvcWord w))
  else none

/-- The arithmetic of quadrant 1 with function 4. -/
def expandArith (w : Nat) : Option Nat :=
  let rd := 8 + rvBits w 7 3
  let rs2 := 8 + rvBits w 2 3
  let f := rvBits w 10 2
  let g := rvBits w 5 2
  let high := rvBits w 12 1 = 1
  if f = 0 then (if high then none else some (rvI 0x13 5 rd rd (rvBits w 2 5)))
  else if f = 1 then (if high then none else some (rvI 0x13 5 rd rd (1024 + rvBits w 2 5)))
  else if f = 2 then some (rvI 0x13 7 rd rd (rvcImm w))
  else if high then none
  else if g = 0 then some (rvR 32 0 rd rd rs2)
  else if g = 1 then some (rvR 0 4 rd rd rs2)
  else if g = 2 then some (rvR 0 6 rd rd rs2)
  else some (rvR 0 7 rd rd rs2)

/-- Quadrant 1. -/
def expand1 (w : Nat) : Option Nat :=
  let rd := rvBits w 7 5
  let f := rvBits w 13 3
  let sp := rvSext 10 (rvBits w 12 1 * 512 + rvBits w 6 1 * 16 + rvBits w 5 1 * 64 + rvBits w 3 2 * 128 + rvBits w 2 1 * 32)
  if f = 0 then some (rvI 0x13 0 rd rd (rvcImm w))
  else if f = 1 then some (rvJ 1 (rvcJump w))
  else if f = 2 then some (rvI 0x13 0 rd 0 (rvcImm w))
  else if f = 3 then
    if rd = 2 then (if sp = 0 then none else some (rvI 0x13 0 2 2 sp))
    else if rvcImm w = 0 then none
    else some (rvU rd (rvcImm w))
  else if f = 4 then expandArith w
  else if f = 5 then some (rvJ 0 (rvcJump w))
  else some (rvB (f - 6) (8 + rvBits w 7 3) (rvcBranch w))

/-- Quadrant 2. -/
def expand2 (w : Nat) : Option Nat :=
  let rd := rvBits w 7 5
  let rs2 := rvBits w 2 5
  let f := rvBits w 13 3
  let high := rvBits w 12 1 = 1
  if f = 0 then (if high then none else some (rvI 0x13 1 rd rd (rvBits w 2 5)))
  else if f = 2 then
    if rd = 0 then none
    else some (rvI 0x03 2 rd 2 (rvBits w 12 1 * 32 + rvBits w 4 3 * 4 + rvBits w 2 2 * 64))
  else if f = 4 then
    if rs2 ≠ 0 then some (rvR 0 0 rd (if high then rd else 0) rs2)
    else if rd ≠ 0 then some (rvI 0x67 0 (if high then 1 else 0) rd 0)
    else if high then some 0x00100073
    else none
  else if f = 6 then some (rvS 2 rs2 (rvBits w 9 4 * 4 + rvBits w 7 2 * 64))
  else none

/-- The base instruction that a compressed one stands for. -/
def expandC (w : Nat) : Option Nat :=
  if w % 4 = 0 then expand0 w else if w % 4 = 1 then expand1 w else if w % 4 = 2 then expand2 w else none

/-! ## Base instructions (RV32I and M) -/

/-- The integer operations by funct3; `alt` is SUB or SRA. -/
def rvAlu (f3 : Nat) (alt : Bool) (a b : Word) : Word :=
  let n := b.toNat % 32
  if f3 = 0 then (if alt then a - b else a + b)
  else if f3 = 1 then a <<< n
  else if f3 = 2 then (if a.slt b then 1 else 0)
  else if f3 = 3 then (if a.ult b then 1 else 0)
  else if f3 = 4 then a ^^^ b
  else if f3 = 5 then (if alt then a.sshiftRight n else a >>> n)
  else if f3 = 6 then a ||| b
  else a &&& b

/-- Multiplication and division by funct3. -/
def rvMul (f3 : Nat) (a b : Word) : Word :=
  let spent := a = 0x80000000 && b = 0xFFFFFFFF
  if f3 = 0 then a * b
  else if f3 = 1 then BitVec.ofInt 32 (a.toInt * b.toInt / 2 ^ 32)
  else if f3 = 2 then BitVec.ofInt 32 (a.toInt * b.toNat / 2 ^ 32)
  else if f3 = 3 then BitVec.ofNat 32 (a.toNat * b.toNat / 2 ^ 32)
  else if f3 = 4 then (if b = 0 then 0xFFFFFFFF else if spent then a else BitVec.ofInt 32 (a.toInt.tdiv b.toInt))
  else if f3 = 5 then (if b = 0 then 0xFFFFFFFF else a / b)
  else if f3 = 6 then (if b = 0 then a else if spent then 0 else BitVec.ofInt 32 (a.toInt.tmod b.toInt))
  else if b = 0 then a else a % b

def rvTaken (f3 : Nat) (a b : Word) : Option Bool :=
  if f3 = 0 then some (a == b) else if f3 = 1 then some (a != b) else if f3 = 4 then some (a.slt b)
  else if f3 = 5 then some (!a.slt b) else if f3 = 6 then some (a.ult b) else if f3 = 7 then some (!a.ult b) else none

/-- Where an access of n bytes goes: the instruction store, the data store, or nowhere (12 R263). -/
inductive BkPlace where
  | code | data | none
  deriving DecidableEq, Repr

def bkPlace (a n : Nat) : BkPlace :=
  if a + n ≤ imemBytes then .code
  else if dmemBase ≤ a && a + n ≤ dmemBase + dmemBytes then .data
  else .none

/-- A load: misalignment is found before an access fault. -/
def Bookend.load (b : Bookend) (f3 rd : Nat) (a next : Word) : Option BkEnd :=
  let n := if f3 % 4 = 0 then 1 else if f3 % 4 = 1 then 2 else 4
  if f3 = 3 || 6 ≤ f3 then none
  else if a.toNat % n ≠ 0 then some (.trap 4 a)
  else
    let put := fun (x : Nat) => BkEnd.to ((b.setX rd (if f3 < 4 then BitVec.ofNat 32 (rvSext (8 * n) x) else BitVec.ofNat 32 x)).retire next)
    match bkPlace a.toNat n with
    | .code => some (put (storeNum b.imem a.toNat n))
    | .data => some (put (storeNum b.dmem (a.toNat - dmemBase) n))
    | .none => some (.trap 5 a)

/-- A store: the instruction store is read-only (12 R263). -/
def Bookend.store (b : Bookend) (f3 : Nat) (v a next : Word) : Option BkEnd :=
  let n := 2 ^ f3
  if 3 ≤ f3 then none
  else if a.toNat % n ≠ 0 then some (.trap 6 a)
  else
    match bkPlace a.toNat n with
    | .data => some (.to ({ b with dmem := storePut b.dmem (a.toNat - dmemBase) (leBytes n v.toNat) }.retire next))
    | _ => some (.trap 7 a)

/-! ## Control and status registers (12 R264) -/

/-- The value of a CSR, or none for a number that is no CSR; `cycles` is what mcycle counts from. -/
def Bookend.csr (b : Bookend) (number : Nat) (cycles : Nat) (n : Nat) : Option Word :=
  let mcycle := b.mcycle + BitVec.ofNat 64 cycles
  match n with
  | 0x300 => some b.mstatus
  | 0x301 => some 0x40001104
  | 0x305 => some b.mtvec
  | 0x340 => some b.mscratch
  | 0x341 => some b.mepc
  | 0x342 => some b.mcause
  | 0x343 => some b.mtval
  | 0xB00 => some (mcycle.truncate 32)
  | 0xB80 => some ((mcycle >>> 32).truncate 32)
  | 0xB02 => some (b.minstret.truncate 32)
  | 0xB82 => some ((b.minstret >>> 32).truncate 32)
  | 0xF11 => some 0
  | 0xF12 => some 0
  | 0xF13 => some 0
  | 0xF14 => some (BitVec.ofNat 32 number)
  | 0x7C0 => some b.bkseg
  | 0x7C2 => some b.bkmailhi
  | 0x7C3 => some b.bkfault
  | _ => none

/-- A CSR written; none for a read-only one. -/
def Bookend.setCsr (b : Bookend) (cycles : Nat) (n : Nat) (v : Word) : Option Bookend :=
  let mcycle := b.mcycle + BitVec.ofNat 64 cycles
  let low := fun (x : Dword) => ((x >>> 32).truncate 32 ++ v : BitVec 64)
  let high := fun (x : Dword) => (v ++ x.truncate 32 : BitVec 64)
  match n with
  | 0x300 => some { b with mstatus := (v &&& 0x88) ||| 0x1800 }
  | 0x305 => some { b with mtvec := v &&& 0xFFFFFFFC }
  | 0x340 => some { b with mscratch := v }
  | 0x341 => some { b with mepc := v &&& 0xFFFFFFFE }
  | 0x342 => some { b with mcause := v }
  | 0x343 => some { b with mtval := v }
  | 0xB00 => some { b with mcycle := low mcycle - BitVec.ofNat 64 cycles }
  | 0xB80 => some { b with mcycle := high mcycle - BitVec.ofNat 64 cycles }
  | 0xB02 => some { b with minstret := low b.minstret }
  | 0xB82 => some { b with minstret := high b.minstret }
  | 0x7C0 => some { b with bkseg := v }
  | 0x7C3 => some { b with bkfault := v }
  | _ => none

/-- CSRRW, CSRRS, CSRRC and their immediate forms: the set and clear forms with field 0 only read. -/
def Bookend.csrOp (b : Bookend) (number cycles w : Nat) (next : Word) : Option BkEnd :=
  let f3 := rvBits w 12 3
  let rd := rvBits w 7 5
  let src := rvBits w 15 5
  let n := rvBits w 20 12
  let v := if f3 < 4 then b.rx src else BitVec.ofNat 32 src
  match b.csr number cycles n with
  | none => none
  | some old =>
    if f3 % 4 ≠ 1 && src = 0 then some (.to ((b.setX rd old).retire next))
    else
      let new := if f3 % 4 = 1 then v else if f3 % 4 = 2 then old ||| v else old &&& ~~~ v
      match b.setCsr cycles n new with
      | none => none
      | some b' =>
        let counted := n = 0xB02 || n = 0xB82
        some (.to { (b'.setX rd old) with pc := next, minstret := if counted then b'.minstret else b'.minstret + 1 })

/-- FENCE may complete: no BK.WR and no BK.PUT is unacknowledged (12 R262). -/
def Bookend.fenced (b : Bookend) : Bool := b.posted == 0 && b.xfers.all (fun x => !x.2.2)

/-- The instructions of opcode SYSTEM. -/
def Bookend.system (b : Bookend) (number cycles w : Nat) (next : Word) : Option BkEnd :=
  let f3 := rvBits w 12 3
  if f3 = 4 then none
  else if f3 ≠ 0 then b.csrOp number cycles w next
  else if w = 0x00000073 then some (.trap 11 0)
  else if w = 0x00100073 then some (.trap 3 b.pc)
  else if w = 0x30200073 then
    let mpie := b.mstatus.getLsbD 7
    some (.to ({ b with mstatus := if mpie then 0x1888 else 0x1880 }.retire b.mepc))
  else if w = 0x10500073 then some (.to (b.retire next))
  else none

/-- A base instruction of 32 bits; none where it is illegal. `next` is the address of the next instruction. -/
def Bookend.base (b : Bookend) (number cycles w : Nat) (next : Word) : Option BkEnd :=
  let rd := rvBits w 7 5
  let f3 := rvBits w 12 3
  let f7 := rvBits w 25 7
  let x := b.rx (rvBits w 15 5)
  let y := b.rx (rvBits w 20 5)
  let immI := BitVec.ofNat 32 (rvSext 12 (rvBits w 20 12))
  let immS := BitVec.ofNat 32 (rvSext 12 (rvBits w 25 7 * 32 + rd))
  let immB := BitVec.ofNat 32 (rvSext 13 (rvBits w 31 1 * 4096 + rvBits w 7 1 * 2048 + rvBits w 25 6 * 32 + rvBits w 8 4 * 2))
  let immU := BitVec.ofNat 32 (rvBits w 12 20 * 4096)
  let immJ := BitVec.ofNat 32
    (rvSext 21 (rvBits w 31 1 * 2 ^ 20 + rvBits w 12 8 * 4096 + rvBits w 20 1 * 2048 + rvBits w 21 10 * 2))
  let put := fun (v : Word) => some (BkEnd.to ((b.setX rd v).retire next))
  match rvBits w 0 7 with
  | 0x37 => put immU
  | 0x17 => put (b.pc + immU)
  | 0x6F => some (.to ((b.setX rd next).retire (b.pc + immJ)))
  | 0x67 => if f3 = 0 then some (.to ((b.setX rd next).retire ((x + immI) &&& 0xFFFFFFFE))) else none
  | 0x63 => (rvTaken f3 x y).map (fun t => .to (b.retire (if t then b.pc + immB else next)))
  | 0x03 => b.load f3 rd (x + immI) next
  | 0x23 => b.store f3 y (x + immS) next
  | 0x13 =>
    if f3 = 1 then (if f7 = 0 then put (rvAlu 1 false x immI) else none)
    else if f3 = 5 then (if f7 = 0 || f7 = 32 then put (rvAlu 5 (f7 == 32) x immI) else none)
    else put (rvAlu f3 false x immI)
  | 0x33 =>
    if f7 = 0 then put (rvAlu f3 false x y)
    else if f7 = 32 then (if f3 = 0 || f3 = 5 then put (rvAlu f3 true x y) else none)
    else if f7 = 1 then put (rvMul f3 x y)
    else none
  | 0x0F => if f3 = 0 then some (if b.fenced then .to (b.retire next) else .stall) else none
  | 0x73 => b.system number cycles w next
  | _ => none

/-- One base or compressed instruction at the PC: fetch checks, expansion, execution, or illegal instruction. -/
def Bookend.execute (b : Bookend) (number cycles w : Nat) : BkEnd :=
  let pc := b.pc.toNat
  if imemBytes < pc + 2 then .trap 1 b.pc
  else if w % 4 ≠ 3 then
    let h := w % 65536
    match (expandC h).bind (fun v => b.base number cycles v (b.pc + 2)) with
    | some e => e
    | none => .trap 2 (BitVec.ofNat 32 h)
  else if imemBytes < pc + 4 then .trap 1 (b.pc + 2)
  else
    match b.base number cycles w (b.pc + 4) with
    | some e => e
    | none => .trap 2 (BitVec.ofNat 32 w)

/-- BOOKEND_BASE_INSTRUCTION (12 R262 to R264): one instruction of RV32IMC or Zicsr, whose bits stand at the PC. -/
def execBookendBaseInstruction (w : BitVec 32) (s : State) : Out :=
  if !s.bookendRuns then .next s
  else .next (s.endBk (s.bk.execute s.curBk.2 (s.residentCycles s.curBk.1) w.toNat))

/-! ## The custom instructions (12 R265 to R268) -/

/-- The virtual address {bkseg, x[rs1]}. -/
def Bookend.va (b : Bookend) (a : BitVec 5) : Dword := b.bkseg ++ b.rx a.toNat

/-- A tag that tells the requests of one start from those of another. -/
def Bookend.stamp (b : Bookend) (n : Nat) : Nat := b.epoch * 2 ^ 40 + n

/-- A BK instruction runs at the Bookend's turn. -/
def bkForm (s : State) (go : Bookend → BkEnd × State) : Out :=
  if !s.bookendRuns then .next s
  else
    let (e, s) := go s.bk
    .next (s.endBk e)

/-- A failing check traps, and bkfault holds the cause (12 R267): `base` is 5 for a read and 7 for a write. -/
def State.bkFail (s : State) (b : Bookend) (base : Nat) (cause : BitVec 8) (va : Dword) : BkEnd × State :=
  (.trap (if cause = Cause.misaligned then base - 1 else base) (va.truncate 32),
   s.setBk { b with bkfault := cause.zeroExtend 32 })

/-- The segment of an address and where it is owned: a kind 4 address lies in the whole pool (12 R266). -/
structure BkPoint where
  seg : Nat
  d : Segment
  owner : Option Nat
  lo : Nat

def State.bkPoint (s : State) (va : Dword) : BkPoint :=
  let t := s.curBk.1
  let tl := s.tile t
  let d := tl.seg (vaSeg va)
  { seg := vaSeg va, d := d, owner := d.owner t (vaOff va), lo := d.localOffset (some (tl.poolBase, tl.poolSize)) (vaOff va) }

/-- The checks of an access of n bytes (01 R32), and that its owner is a tile that answers (06 R142). -/
def State.bkCheck (s : State) (va : Dword) (n align : Nat) (r : Right) : Option (BitVec 8) :=
  let tl := s.tile s.curBk.1
  let x := s.bkPoint va
  match x.d.check (some (tl.poolBase, tl.poolSize)) (vaOff va) n align r with
  | some c => some c
  | none =>
    match x.owner with
    | some o => if s.reachable o then none else some Cause.isolated
    | none => none

/-- A word access leaves: to its owner, or to the host's queue. -/
def State.bkSend (s : State) (va : Dword) (path : Path) (kind : OpKind) (tag : Nat) : State :=
  let t := s.curBk.1
  let x := s.bkPoint va
  let asid := (s.tile t).asid.toNat
  let op : Op := { kind := kind, path := path, origin := .bookend t s.curBk.2 tag, asid := asid, seg := x.seg, va := va
                   lo := x.lo, owner := x.owner.getD Config.noTile, src := t, map := x.d.mapping }
  match x.owner with
  | none => { s with hostWait := s.hostWait ++ [op] }
  | some o =>
    if path = .posted then s.send clsPOST t o asid 1 (.posted op) else s.send clsREQ t o asid 1 (.request op)

/-- BK.RD (12 R265): the Bookend goes on when the response has come. -/
def execBkRd (d a : BitVec 5) (s : State) : Out :=
  bkForm s (fun b =>
    let va := b.va a
    match s.bkCheck va 4 4 .rd with
    | some c => s.bkFail b 5 c va
    | none => (.to { b with reading := some (d.toNat, va) }, s.bkSend va .remote (.load ⟨4, false⟩) (b.stamp (2 ^ 39))))

/-- BK.WR (12 R265): a posted store. -/
def execBkWr (a b : BitVec 5) (s : State) : Out :=
  bkForm s (fun k =>
    let va := k.va a
    match s.bkCheck va 4 4 .w with
    | some c => s.bkFail k 7 c va
    | none => (.to ({ k with posted := k.posted + 1 }.retire (k.pc + 4)),
        s.bkSend va .posted (.store 4 ((k.rx b.toNat).zeroExtend 64)) (k.stamp (2 ^ 39))))

/-- The pieces of a GET or PUT (12 R256, R266): each lies in one granule and one line of its destination. -/
def State.bkPieces (s : State) (put : Bool) (tag : Nat) (va : Dword) (addr len : Nat) : Nat → List Piece
  | 0 => []
  | fuel + 1 =>
    if len = 0 then []
    else
      let t := s.curBk.1
      let tl := s.tile t
      let d := tl.seg (vaSeg va)
      let n := min (min len (64 - (if put then va.toNat else addr) % 64)) (d.toGranule (vaOff va))
      let place := d.place t (some (tl.poolBase, tl.poolSize)) (vaOff va)
      let x : Piece := { asid := tl.asid.toNat, origin := .bookend t s.curBk.2 tag, len := n, bkAddr := addr, bkPut := put }
      let x := if put then
          { x with dstSeg := vaSeg va, dstVa := va, dstOwner := place.1, dstLo := place.2, dstMap := d.mapping
                   data := (List.range n).map (fun i => s.bk.dmem.get 0 (addr - dmemBase + i)) }
        else { x with srcSeg := vaSeg va, srcVa := va, srcOwner := place.1, srcLo := place.2, srcMap := d.mapping }
      x :: s.bkPieces put tag (va + BitVec.ofNat 64 n) (addr + n) (len - n) fuel

/-- A GET or a PUT (12 R265 to R267): it stalls while 32 requests are outstanding. A length or
a local range that cannot be traps as an address outside its segment does (DESIGN CHOICE, log 51). -/
def State.bkTransfer (s : State) (b : Bookend) (put : Bool) (d a r2 r3 : BitVec 5) : BkEnd × State :=
  let base := if put then 7 else 5
  let va := b.va a
  let addr := (b.rx r2.toNat).toNat
  let len := (b.rx r3.toNat).toNat
  if 32 ≤ b.xfers.length then (.stall, s)
  else if len = 0 || decide (16384 < len) || bkPlace addr len ≠ .data then s.bkFail b base Cause.segBounds va
  else
    let tl := s.tile s.curBk.1
    match (tl.seg (vaSeg va)).check (some (tl.poolBase, tl.poolSize)) (vaOff va) len 1 (if put then .w else .rd) with
    | some c => s.bkFail b base c va
    | none =>
      let tag := b.stamp b.tags
      let xs := s.bkPieces put tag va addr len len
      let s := xs.foldl (fun (s : State) x => if put then s.sendData s.curBk.1 x else s.sendRead s.curBk.1 x 9) s
      (.to ({ b.setX d.toNat (BitVec.ofNat 32 b.tags) with
          tags := (b.tags + 1) % 2 ^ 32, xfers := b.xfers ++ [(tag, xs.length, put)] }.retire (b.pc + 4)), s)

/-- BK.GET (12 R265). -/
def execBkGet (d a b c : BitVec 5) (s : State) : Out := bkForm s (fun k => s.bkTransfer k false d a b c)

/-- BK.PUT (12 R265). -/
def execBkPut (d a b c : BitVec 5) (s : State) : Out := bkForm s (fun k => s.bkTransfer k true d a b c)

/-- BK.WAIT (12 R265, R267). -/
def execBkWait (d a b : BitVec 5) (s : State) : Out :=
  bkForm s (fun k =>
    let which := k.rx b.toNat
    if which = 0 then
      match k.xferFault with
      | some (cause, mcause, va) =>
        (.trap mcause (va.truncate 32), s.setBk { k with bkfault := cause.zeroExtend 32, xferFault := none })
      | none =>
        if (k.rx a.toNat).toNat < k.xfers.length then (.stall, s)
        else (.to ((k.setX d.toNat (BitVec.ofNat 32 k.xfers.length)).retire (k.pc + 4)), s)
    else if which = 1 then
      match k.inbox with
      | [] => (.stall, s)
      | w :: rest =>
        (.to ({ k.setX d.toNat (w.truncate 32) with inbox := rest, bkmailhi := (w >>> 32).truncate 32 }.retire (k.pc + 4)), s)
    else (.trap 2 (BitVec.ofNat 32 s.bookendWord), s))

/-- BK.SIG (12 R265): the word goes to the outbox, and a thread that waits on it is served (12 R270). -/
def execBkSig (a b : BitVec 5) (s : State) : Out :=
  bkForm s (fun k =>
    if 8 ≤ k.outbox.length then (.stall, s)
    else
      let w : Dword := (k.rx b.toNat &&& 0x7FFFFFFF) ++ k.rx a.toNat
      let s := s.setBk ({ k with outbox := k.outbox ++ [w] }.retire (k.pc + 4))
      let (s, woken) := s.serveOutbox s.curBk.1 s.curBk.2 [] (s.tile s.curBk.1).scWaiters.length
      (.stall, s.wakeAll woken))

/-! ### What comes back to a Bookend -/

/-- The response of a BK.RD: its register is written, or the trap of R267 is taken. -/
def State.bkResponse (s : State) (t n tag : Nat) (r : Reply) : State :=
  let s := { s with curBk := (t, n) }
  let b := s.bk
  match b.reading with
  | some (d, va) =>
    if tag ≠ b.stamp (2 ^ 39) then s
    else
      let b := { b with reading := none }
      match r with
      | .done vals => s.setBk ((b.setX d ((vals.headD 0).truncate 32)).retire (b.pc + 4))
      | .trap cause _ => (s.setBk { b with bkfault := cause.zeroExtend 32 }).endBk (.trap 5 (va.truncate 32))
      | _ => s.setBk b
  | none => s

/-- An acknowledged BK.WR (07 R146); one of an earlier start is no longer counted. -/
def State.bkAck (s : State) (t n tag : Nat) : State :=
  let b := (s.tile t).bookend n
  if tag ≠ b.stamp (2 ^ 39) then s
  else s.mapTile t (fun tl => tl.setBookend n { b with posted := b.posted - 1 })

/-- A piece of a GET or PUT is done: its data enter the data store, a fault is kept for the next BK.WAIT, and a request whose
last piece it was is no longer outstanding (12 R266, R267). -/
def State.bkPieceDone (s : State) (x : Piece) : State :=
  match x.origin with
  | .bookend t n tag =>
    let b := (s.tile t).bookend n
    if !b.xfers.any (fun e => e.1 == tag) then s
    else
      let b := if x.bkPut || x.faulted != 0 then b
        else { b with dmem := storePut b.dmem (x.bkAddr - dmemBase) x.data }
      let fault := if x.faulted = 0 then none
        else some (x.faulted, if x.bkPut then 7 else 5, if x.bkPut then x.dstVa else x.srcVa)
      let b := { b with
        xfers := (b.xfers.map (fun e => if e.1 == tag then (e.1, e.2.1 - 1, e.2.2) else e)).filter (fun e => e.2.1 != 0)
        xferFault := if b.xferFault.isSome then b.xferFault else fault }
      s.mapTile t (fun tl => tl.setBookend n b)
  | _ => s

end Sys2Proof.Machine
end

