-- ==== Sys2Proof/Machine/Lanes.lean ====
section
/-! DEFINITION. What the vector forms compute, element by element (09 R180 to R192). -/
namespace Sys2Proof.Machine

/-! ## Elements (09 R180) -/

def elem (w : Nat) (v : Line) (j : Nat) : Nat := v.toNat / 2 ^ (w * j) % 2 ^ w

def packElems (w : Nat) : List Nat → Nat
  | [] => 0
  | x :: xs => x % 2 ^ w + 2 ^ w * packElems w xs

/-- A vector of n elements of width w, by element. -/
def vecOf (w n : Nat) (f : Nat → Nat) : Line := BitVec.ofNat 512 (packElems w ((List.range n).map f))

/-- A mask bit governs the 32-bit lane of an element. -/
def active (mask : BitVec 16) (w j : Nat) : Bool := mask.getLsbD (w * j / 32)

/-- The vector types, codes 0 to 10 (02 R58). -/
def vecTy (t : Nat) : NumTy :=
  if t = 0 then .int true 32 else if t = 1 then .int false 32 else if t = 2 then .flt f32 else if t = 3 then .flt bf16
  else if t = 4 then .flt f16 else if t = 5 then .int true 16 else if t = 6 then .int false 16 else if t = 7 then .int true 8
  else if t = 8 then .int false 8 else if t = 9 then .flt e4m3 else .flt e5m2

def NumTy.width : NumTy → Nat
  | .int _ w => w
  | .flt f => f.width

/-- Elements of a vector. -/
def NumTy.count (t : NumTy) : Nat := 512 / t.width

/-- A general register's value from an element (04 R87, R92). -/
def NumTy.extend (t : NumTy) (x : Nat) : Dword :=
  match t with
  | .int g w => BitVec.ofInt 64 (intValue g w x)
  | .flt _ => BitVec.ofNat 64 x

/-- A vector and the flags its active elements raise (04 R96). -/
abbrev VOut := Line × Flags

/-- Each active element computed, the others kept (09 R181). -/
def lanewise (w : Nat) (mask : BitVec 16) (old : Line) (f : Nat → FOut) : VOut :=
  let rs := (List.range (512 / w)).map (fun j => if active mask w j then f j else { bits := elem w old j })
  (BitVec.ofNat 512 (packElems w (rs.map (·.bits))), rs.foldl (fun a r => a ||| r.flags) 0)

/-! ## VALU (09 R185) -/

inductive ValuOp where
  | add | sub | mul | mulh | min | max | and | or | xor | shl | shr | sra | abs | neg
  deriving DecidableEq, Repr

def valuInt (o : ValuOp) (g : Bool) (w x y : Nat) : Nat :=
  let a := intValue g w x
  let b := intValue g w y
  match o with
  | .add => intBits w (a + b)
  | .sub => intBits w (a - b)
  | .mul => intBits w (a * b)
  | .mulh => intBits w (a * b / 2 ^ w)
  | .min => if a ≤ b then x else y
  | .max => if b ≤ a then x else y
  | .and => x &&& y
  | .or => x ||| y
  | .xor => x ^^^ y
  | .shl => x * 2 ^ (y % w) % 2 ^ w
  | .shr => x / 2 ^ (y % w)
  | .sra => intBits w (intValue true w x / 2 ^ (y % w))
  | .abs => intBits w a.natAbs
  | .neg => intBits w (-a)

def valuFloat (o : ValuOp) (f : Fmt) (x y : Nat) : FOut :=
  match o with
  | .add => f.add 0 x y
  | .sub => f.sub 0 x y
  | .mul => f.mul 0 x y
  | .min => f.minMax false x y
  | .max => f.minMax true x y
  | .abs => { bits := x % f.signBit }
  | .neg => { bits := (x + f.signBit) % 2 ^ f.width }
  | _ => { bits := x }

def valu (o : ValuOp) (t : NumTy) (x y : Nat) : FOut :=
  match t with
  | .int g w => { bits := valuInt o g w x y }
  | .flt f => valuFloat o f x y

/-! ## Comparison (09 R187) -/

def cmpInt (c : Nat) (a b : Int) : Bool :=
  if c = 0 then a == b else if c = 1 then a != b else if c = 2 then decide (a < b) else if c = 3 then decide (a ≤ b)
  else if c = 4 then decide (b < a) else decide (b ≤ a)

/-- A condition of two floats and the NV it sets. -/
def cmpFloat (f : Fmt) (c x y : Nat) : Bool × Flags :=
  if c = 0 then f.compare 0 x y
  else if c = 1 then (!(f.compare 0 x y).1, (f.compare 0 x y).2)
  else if c = 2 then f.compare 1 x y
  else if c = 3 then f.compare 2 x y
  else if c = 4 then f.compare 1 y x
  else if c = 5 then f.compare 2 y x
  else f.compare 3 x y

def vcmpElem (t : NumTy) (c x y : Nat) : Bool × Flags :=
  match t with
  | .int g w => (cmpInt c (intValue g w x) (intValue g w y), 0)
  | .flt f => cmpFloat f c x y

/-- The mask a comparison writes, and NV from the active lanes. -/
def vcmp (t : NumTy) (c : Nat) (mask : BitVec 16) (a b : Line) : BitVec 16 × Flags :=
  let w := t.width
  let per := 32 / w
  (List.range 16).foldl (fun (acc : BitVec 16 × Flags) i =>
    if !mask.getLsbD i then acc
    else
      let rs := (List.range per).map (fun e => vcmpElem t c (elem w a (per * i + e)) (elem w b (per * i + e)))
      (if rs.all (·.1) then acc.1 ||| BitVec.ofNat 16 (2 ^ i) else acc.1, rs.foldl (fun f r => f ||| r.2) acc.2)) (0, 0)

/-! ## Reductions (09 R189) -/

inductive RedOp where
  | sum | max | min | maxabs
  deriving DecidableEq, Repr

/-- The active elements in increasing index. -/
def activeElems (t : NumTy) (mask : BitVec 16) (v : Line) : List Nat :=
  ((List.range t.count).filter (active mask t.width)).map (elem t.width v)

/-- FP32 sum, started from the first element. -/
def redSum (f : Fmt) (xs : List Nat) : FOut :=
  match xs.map (fun x => floatToFloat f32 0 false (f.decode x)) with
  | [] => { bits := 0 }
  | r :: rs => rs.foldl (fun a b => let s := f32.add 0 a.bits b.bits; { bits := s.bits, flags := a.flags ||| b.flags ||| s.flags }) r

def redPick (isMax : Bool) (f : Fmt) (empty : Nat) (xs : List Nat) : FOut :=
  match xs with
  | [] => { bits := empty }
  | x :: rest =>
    let best := rest.foldl (fun a b => (f.minMax isMax a b).bits) x
    { bits := if (f.decode best).isNan then f.nan else best
      flags := if xs.any (fun y => (f.decode y).isSNan) then fNV else 0 }

def reduce (o : RedOp) (t : NumTy) (mask : BitVec 16) (v : Line) : Dword × Flags :=
  let xs := activeElems t mask v
  match t with
  | .int g w =>
    let ys := xs.map (intValue g w)
    (BitVec.ofInt 64 (match o with
      | .sum => ys.foldl (· + ·) 0
      | .max => ys.foldl max (intMin g w)
      | .min => ys.foldl min (intMax g w)
      | .maxabs => 0), 0)
  | .flt f =>
    let r := match o with
      | .sum => redSum f xs
      | .max => redPick true f (f.signed true f.infinity) xs
      | .min => redPick false f f.infinity xs
      | .maxabs =>
        { redPick true f 0 (xs.map (fun x => x % f.signBit)) with
          flags := if xs.any (fun y => (f.decode y).isSNan) then fNV else 0 }
    (BitVec.ofNat 64 r.bits, r.flags)

/-! ## Conversion and quantisation (09 R190, R191) -/

def vcvt (src dst : NumTy) (mask : BitVec 16) (a old : Line) : VOut :=
  let m := min src.count dst.count
  let wide := max src.width dst.width
  let rs := (List.range dst.count).map (fun j =>
    if m ≤ j then ({ bits := 0 } : FOut)
    else if active mask wide j then convert src dst 0 false (elem src.width a j)
    else { bits := elem dst.width old j })
  (BitVec.ofNat 512 (packElems dst.width (rs.map (·.bits))), rs.foldl (fun f r => f ||| r.flags) 0)

/-- The exact product of two values; an invalid one is a signalling NaN, so that it sets NV. -/
def FVal.times (a b : FVal) : FVal :=
  match a, b with
  | .nan s, .nan u => .nan (s || u)
  | .nan s, _ => .nan s
  | _, .nan u => .nan u
  | .fin n m e, .fin n' m' e' => .fin (n != n') (m * m') (e + e')
  | .inf n, .fin n' m _ => if m = 0 then .nan true else .inf (n != n')
  | .fin n m _, .inf n' => if m = 0 then .nan true else .inf (n != n')
  | .inf n, .inf n' => .inf (n != n')

/-- A value of a packed type. -/
def NumTy.value (t : NumTy) (x : Nat) : FVal :=
  match t with
  | .int g w => .fin (decide (intValue g w x < 0)) (intValue g w x).natAbs 0
  | .flt f => f.decode x

/-- One exact value rounded to a type. -/
def roundTo (t : NumTy) (rm : Nat) (sat : Bool) (v : FVal) : FOut :=
  match t with
  | .int g w => floatToInt g w rm v
  | .flt f => floatToFloat f rm sat v

def vquant (t : NumTy) (rm : Nat) (sat : Bool) (mask : BitVec 16) (scale : Nat) (v : Line) : VOut :=
  let q := (List.range 16).map (fun j => roundTo t rm sat ((f32.decode (elem 32 v j)).times (f32.decode scale)))
  let out := vecOf 8 64 (fun b => if mask.getLsbD (b / 4) then (q.getD (b % 16) { bits := 0 }).bits else elem 8 v b)
  (out, (List.range 16).foldl (fun f j =>
    if (List.range 4).any (fun i => mask.getLsbD (4 * i + j / 4)) then f ||| (q.getD j { bits := 0 }).flags else f) 0)

def vdeq (t : NumTy) (mask : BitVec 16) (scale : Nat) (v : Line) : VOut :=
  lanewise 32 mask v (fun j => roundTo (.flt f32) 0 false ((t.value (elem 8 v j)).times (f32.decode scale)))

/-! ## Dot products (09 R192) -/

/-- The exact sum of values, rounded once to FP32: special values as for an addition, a zero sum negative only where every term
is a negative zero. -/
def sumF32 (sat : Bool) (vs : List FVal) : FOut :=
  if vs.any FVal.isSNan then f32.invalid
  else
    let pos := vs.any (fun v => v == .inf false)
    let neg := vs.any (fun v => v == .inf true)
    if vs.any FVal.isNan then { bits := f32.nan }
    else if pos && neg then f32.invalid
    else if pos then { bits := f32.infinity }
    else if neg then { bits := f32.signed true f32.infinity }
    else
      let (v, e) := vs.foldl (fun (acc : Int × Int) x => match x with
        | .fin n m e =>
          let lo := min acc.2 e
          (acc.1 * 2 ^ (acc.2 - lo).toNat + mag n m * 2 ^ (e - lo).toNat, lo)
        | _ => acc) (0, 0)
      f32.roundInt 0 sat v e (vs.all (fun x => x.isZero && x.isNeg))

def vdot (t : NumTy) (sat : Bool) (mask : BitVec 16) (acc a b : Line) : VOut :=
  let w := t.width
  let per := 32 / w
  lanewise 32 mask acc (fun i =>
    let pairs := (List.range per).map (fun e => (elem w a (per * i + e), elem w b (per * i + e)))
    match t with
    | .int g w =>
      let s := pairs.foldl (fun (x : Int) p => x + intValue g w p.1 * intValue g w p.2) (intValue true 32 (elem 32 acc i))
      { bits := intBits 32 (if sat then clampInt true 32 s else s) }
    | .flt f => sumF32 sat (f32.decode (elem 32 acc i) :: pairs.map (fun p => (f.decode p.1).times (f.decode p.2))))

/-! ## Selection (09 R188) -/

def vsel (w : Nat) (mask : BitVec 16) (a b : Line) : Line :=
  vecOf w (512 / w) (fun j => if active mask w j then elem w a j else elem w b j)

def vperm (w : Nat) (mask : BitVec 16) (old a b : Line) : Line :=
  (lanewise w mask old (fun j => { bits := elem w a (elem w b j % (512 / w)) })).1

def viota (w : Nat) (mask : BitVec 16) (old : Line) : Line :=
  (lanewise w mask old (fun j => { bits := ((List.range j).filter (active mask w)).length })).1

end Sys2Proof.Machine
end

