-- ==== Sys2Proof/Machine/Vector.lean ====
section
/-! DEFINITION. Vector instructions: the vector queue and its arbiter, the block and element-wise memory forms, and masks (09
R180 to R198, 15 R329). -/
namespace Sys2Proof.Machine

/-- A vector instruction that names a register its thread may not use traps ILLEGAL (11 R228). -/
def vectorIssue (f : Form) (vs : List (BitVec 3)) (s : State) (act : Thread → State → Out) : Out :=
  issue f s (fun th s =>
    if vs.any (fun v => decide (th.vregs ≤ v.toNat)) then .next (s.trap Cause.illegal (Instr.word f.i)) else act th s)

/-- Every vector instruction except KOPS and VFREE traps MACHINE_CHECK at a tile that has no lane group left (20 R419). -/
def groupIssue (f : Form) (vs : List (BitVec 3)) (s : State) (act : Thread → State → Out) : Out :=
  vectorIssue f vs s (fun th s =>
    if s.myTile.laneGroups.isEmpty then .next (s.trap Cause.machineCheck 0x200) else act th s)

/-- The entry of a vector instruction in its core's queue (09 R183). -/
def State.enqueue (s : State) (tag cost : Nat) : State :=
  let (c, k) := s.cur.2
  s.mapTile s.here (fun tl =>
    let co := tl.core c
    tl.setCore c { co with vq := co.vq ++ [{ slot := k, tag := tag, cost := cost, at_ := s.time }] })

/-- A vector instruction that runs in a lane group: it waits in the queue, and its result returns after it is bound; a full
queue makes it forfeit its turn (09 R183). -/
def vectorForm (f : Form) (vs : List (BitVec 3)) (cost : Nat) (s : State) (res : Thread → List RegWrite × Flags) : Out :=
  groupIssue f vs s (fun th s =>
    if 8 ≤ s.myCore.vq.length then .next s.forfeit
    else
      let r := res th
      .next ((s.issued { th.await { tag := 0, dests := live f.dst, ready := false, writes := r.1, flags := r.2 } with
        pc := th.nextPc f.i }).enqueue th.tags cost))

/-- A vector instruction that runs in the core (09 R196, R197). -/
def coreForm (f : Form) (vs : List (BitVec 3)) (s : State) (res : Thread → List RegWrite) : Out :=
  vectorIssue f vs s (fun th s =>
    .next (s.issued { th.await { tag := 0, dests := live f.dst, ready := true, writes := res th } with pc := th.nextPc f.i }))

/-- One form vd, vs1, vs2, k that merges. The mask selector k, to which R68 gives no place among the registers, is reported last (DESIGN
CHOICE, log 17). -/
def vvv (i : Instr) (m : Bool) (d : BitVec 3) (k : BitVec 2) (a b : BitVec 3) (two : Bool) (cost : Nat) (s : State)
    (res : BitVec 16 → Line → Line → Line → VOut) : Out :=
  vectorForm { i := i, m := m, dst := [vd d], src := [vd d, vd a] ++ (if two then [vd b] else []) ++ [kd k], long := true }
    (if two then [d, a, b] else [d, a]) cost s (fun th =>
      let r := res (th.rk k.toNat) (th.rv d.toNat) (th.rv a.toNat) (th.rv b.toNat)
      ([toV d r.1], r.2))

/-- An element-wise operation (09 R185). -/
def valuForm (i : Instr) (m : Bool) (d : BitVec 3) (k : BitVec 2) (a b : BitVec 3) (t : BitVec 4) (two : Bool) (o : ValuOp)
    (s : State) : Out :=
  let ty := vecTy t.toNat
  vvv i m d k a b two 1 s (fun mask old x y =>
    lanewise ty.width mask old (fun j => valu o ty (elem ty.width x j) (elem ty.width y j)))

/-- A fused operation (09 R186). -/
def vfmaForm (i : Instr) (m : Bool) (d : BitVec 3) (k : BitVec 2) (a b : BitVec 3) (t : BitVec 4) (np na : Bool) (s : State) :
    Out :=
  let f := match vecTy t.toNat with
    | .flt f => f
    | .int _ _ => f32
  vvv i m d k a b true 1 s (fun mask old x y =>
    lanewise f.width mask old (fun j => f.fma 0 np na (elem f.width x j) (elem f.width y j) (elem f.width old j)))

/-- A reduction to a general register (09 R189). -/
def vredForm (i : Instr) (m : Bool) (v : BitVec 3) (k : BitVec 2) (g : BitVec 5) (t : BitVec 4) (o : RedOp) (s : State) : Out :=
  vectorForm { i := i, m := m, dst := [gd g], src := [vd v, kd k], long := true } [v] 2 s (fun th =>
    let r := reduce o (vecTy t.toNat) (th.rk k.toNat) (th.rv v.toNat)
    ([toG g r.1], r.2))

/-- 09 R185. -/
def execVadd (m : Bool) (d : BitVec 3) (k : BitVec 2) (a b : BitVec 3) (t : BitVec 4) (s : State) : Out :=
  valuForm (.vadd m d k a b t) m d k a b t true .add s

/-- 09 R185. -/
def execVsub (m : Bool) (d : BitVec 3) (k : BitVec 2) (a b : BitVec 3) (t : BitVec 4) (s : State) : Out :=
  valuForm (.vsub m d k a b t) m d k a b t true .sub s

/-- 09 R185. -/
def execVmul (m : Bool) (d : BitVec 3) (k : BitVec 2) (a b : BitVec 3) (t : BitVec 4) (s : State) : Out :=
  valuForm (.vmul m d k a b t) m d k a b t true .mul s

/-- 09 R185. -/
def execVmulh (m : Bool) (d : BitVec 3) (k : BitVec 2) (a b : BitVec 3) (t : BitVec 4) (s : State) : Out :=
  valuForm (.vmulh m d k a b t) m d k a b t true .mulh s

/-- 09 R185. -/
def execVmin (m : Bool) (d : BitVec 3) (k : BitVec 2) (a b : BitVec 3) (t : BitVec 4) (s : State) : Out :=
  valuForm (.vmin m d k a b t) m d k a b t true .min s

/-- 09 R185. -/
def execVmax (m : Bool) (d : BitVec 3) (k : BitVec 2) (a b : BitVec 3) (t : BitVec 4) (s : State) : Out :=
  valuForm (.vmax m d k a b t) m d k a b t true .max s

/-- 09 R185. -/
def execVand (m : Bool) (d : BitVec 3) (k : BitVec 2) (a b : BitVec 3) (t : BitVec 4) (s : State) : Out :=
  valuForm (.vand m d k a b t) m d k a b t true .and s

/-- 09 R185. -/
def execVor (m : Bool) (d : BitVec 3) (k : BitVec 2) (a b : BitVec 3) (t : BitVec 4) (s : State) : Out :=
  valuForm (.vor m d k a b t) m d k a b t true .or s

/-- 09 R185. -/
def execVxor (m : Bool) (d : BitVec 3) (k : BitVec 2) (a b : BitVec 3) (t : BitVec 4) (s : State) : Out :=
  valuForm (.vxor m d k a b t) m d k a b t true .xor s

/-- 09 R185. -/
def execVshl (m : Bool) (d : BitVec 3) (k : BitVec 2) (a b : BitVec 3) (t : BitVec 4) (s : State) : Out :=
  valuForm (.vshl m d k a b t) m d k a b t true .shl s

/-- 09 R185. -/
def execVshr (m : Bool) (d : BitVec 3) (k : BitVec 2) (a b : BitVec 3) (t : BitVec 4) (s : State) : Out :=
  valuForm (.vshr m d k a b t) m d k a b t true .shr s

/-- 09 R185. -/
def execVsra (m : Bool) (d : BitVec 3) (k : BitVec 2) (a b : BitVec 3) (t : BitVec 4) (s : State) : Out :=
  valuForm (.vsra m d k a b t) m d k a b t true .sra s

/-- 09 R185. -/
def execVabs (m : Bool) (d : BitVec 3) (k : BitVec 2) (a : BitVec 3) (t : BitVec 4) (s : State) : Out :=
  valuForm (.vabs m d k a t) m d k a a t false .abs s

/-- 09 R185. -/
def execVneg (m : Bool) (d : BitVec 3) (k : BitVec 2) (a : BitVec 3) (t : BitVec 4) (s : State) : Out :=
  valuForm (.vneg m d k a t) m d k a a t false .neg s

/-- 09 R186. -/
def execVfma (m : Bool) (d : BitVec 3) (k : BitVec 2) (a b : BitVec 3) (t : BitVec 4) (s : State) : Out :=
  vfmaForm (.vfma m d k a b t) m d k a b t false false s

/-- 09 R186. -/
def execVfms (m : Bool) (d : BitVec 3) (k : BitVec 2) (a b : BitVec 3) (t : BitVec 4) (s : State) : Out :=
  vfmaForm (.vfms m d k a b t) m d k a b t false true s

/-- 09 R186. -/
def execVfnma (m : Bool) (d : BitVec 3) (k : BitVec 2) (a b : BitVec 3) (t : BitVec 4) (s : State) : Out :=
  vfmaForm (.vfnma m d k a b t) m d k a b t true true s

/-- 09 R187: writes a whole mask. -/
def execVcmp (m : Bool) (d : BitVec 3) (k : BitVec 2) (a b : BitVec 3) (t : BitVec 4) (c : BitVec 5) (s : State) : Out :=
  vectorForm { i := .vcmp m d k a b t c, m := m, dst := [.k d.toNat], src := [vd a, vd b, kd k], long := true } [a, b] 1 s
    (fun th =>
      let r := Machine.vcmp (vecTy t.toNat) c.toNat (th.rk k.toNat) (th.rv a.toNat) (th.rv b.toNat)
      ([toK d r.1], r.2))

/-- 09 R188. -/
def execVsel (m : Bool) (d : BitVec 3) (k : BitVec 2) (a b : BitVec 3) (t : BitVec 4) (s : State) : Out :=
  vectorForm { i := .vsel m d k a b t, m := m, dst := [vd d], src := [vd a, vd b, kd k], long := true } [d, a, b] 1 s (fun th =>
    ([toV d (Machine.vsel (vecTy t.toNat).width (th.rk k.toNat) (th.rv a.toNat) (th.rv b.toNat))], 0))

/-- 09 R188. -/
def execVperm (m : Bool) (d : BitVec 3) (k : BitVec 2) (a b : BitVec 3) (t : BitVec 4) (s : State) : Out :=
  vvv (.vperm m d k a b t) m d k a b true 2 s (fun mask old x y => (Machine.vperm (vecTy t.toNat).width mask old x y, 0))

/-- 09 R188. -/
def execVbcast (m : Bool) (v : BitVec 3) (k : BitVec 2) (g : BitVec 5) (t : BitVec 4) (s : State) : Out :=
  let w := (vecTy t.toNat).width
  vectorForm { i := .vbcast m v k g t, m := m, dst := [vd v], src := [vd v, gd g, kd k], long := true } [v] 1 s (fun th =>
    ([toV v (lanewise w (th.rk k.toNat) (th.rv v.toNat) (fun _ => { bits := (th.rg g).toNat % 2 ^ w })).1], 0))

/-- 09 R188. -/
def execVext (m : Bool) (v : BitVec 3) (g h : BitVec 5) (t : BitVec 4) (s : State) : Out :=
  let ty := vecTy t.toNat
  vectorForm { i := .vext m v g h t, m := m, dst := [gd g], src := [vd v, gd h], long := true } [v] 1 s (fun th =>
    ([toG g (ty.extend (elem ty.width (th.rv v.toNat) ((th.rg h).toNat % ty.count)))], 0))

/-- 09 R188. -/
def execVins (m : Bool) (v : BitVec 3) (g h : BitVec 5) (t : BitVec 4) (s : State) : Out :=
  let ty := vecTy t.toNat
  vectorForm { i := .vins m v g h t, m := m, dst := [vd v], src := [vd v, gd g, gd h], long := true } [v] 1 s (fun th =>
    let i := (th.rg h).toNat % ty.count
    ([toV v (vecOf ty.width ty.count (fun j =>
      if j = i then (th.rg g).toNat else elem ty.width (th.rv v.toNat) j))], 0))

/-- 09 R188. -/
def execViota (m : Bool) (d : BitVec 3) (k : BitVec 2) (t : BitVec 4) (s : State) : Out :=
  vectorForm { i := .viota m d k t, m := m, dst := [vd d], src := [vd d, kd k], long := true } [d] 1 s (fun th =>
    ([toV d (Machine.viota (vecTy t.toNat).width (th.rk k.toNat) (th.rv d.toNat))], 0))

/-- 09 R189. -/
def execVrsum (m : Bool) (v : BitVec 3) (k : BitVec 2) (g : BitVec 5) (t : BitVec 4) (s : State) : Out :=
  vredForm (.vrsum m v k g t) m v k g t .sum s

/-- 09 R189. -/
def execVrmax (m : Bool) (v : BitVec 3) (k : BitVec 2) (g : BitVec 5) (t : BitVec 4) (s : State) : Out :=
  vredForm (.vrmax m v k g t) m v k g t .max s

/-- 09 R189. -/
def execVrmin (m : Bool) (v : BitVec 3) (k : BitVec 2) (g : BitVec 5) (t : BitVec 4) (s : State) : Out :=
  vredForm (.vrmin m v k g t) m v k g t .min s

/-- 09 R189. -/
def execVrmaxabs (m : Bool) (v : BitVec 3) (k : BitVec 2) (g : BitVec 5) (t : BitVec 4) (s : State) : Out :=
  vredForm (.vrmaxabs m v k g t) m v k g t .maxabs s

/-- 09 R190: `o` is the to-type and `f` the from-type. -/
def execVcvt (m : Bool) (d : BitVec 3) (k : BitVec 2) (a : BitVec 3) (o f : BitVec 4) (s : State) : Out :=
  vvv (.vcvt m d k a o f) m d k a a false 1 s (fun mask old x _ => Machine.vcvt (vecTy f.toNat) (vecTy o.toNat) mask x old)

/-- 09 R191. -/
def execVquant (m : Bool) (v : BitVec 3) (k : BitVec 2) (g : BitVec 5) (r : BitVec 3) (u : BitVec 1) (t : BitVec 4) (s : State) :
    Out :=
  vectorForm { i := .vquant m v k g r u t, m := m, dst := [vd v], src := [vd v, gd g, kd k], long := true, dyn := r == 7 } [v] 1 s
    (fun th =>
      let q := Machine.vquant (vecTy t.toNat) (roundingMode r th.frm) (u == 1) (th.rk k.toNat) ((th.rg g).toNat % 2 ^ 32)
        (th.rv v.toNat)
      ([toV v q.1], q.2))

/-- 09 R191. -/
def execVdeq (m : Bool) (v : BitVec 3) (k : BitVec 2) (g : BitVec 5) (t : BitVec 4) (s : State) : Out :=
  vectorForm { i := .vdeq m v k g t, m := m, dst := [vd v], src := [vd v, gd g, kd k], long := true } [v] 1 s (fun th =>
    let q := Machine.vdeq (vecTy t.toNat) (th.rk k.toNat) ((th.rg g).toNat % 2 ^ 32) (th.rv v.toNat)
    ([toV v q.1], q.2))

/-- 09 R192. -/
def execVdot (m : Bool) (d : BitVec 3) (k : BitVec 2) (a b : BitVec 3) (t : BitVec 4) (s : State) : Out :=
  vvv (.vdot m d k a b t) m d k a b true 2 s (fun mask old x y => Machine.vdot (vecTy t.toNat) false mask old x y)

/-- 09 R192. -/
def execVdots (m : Bool) (d : BitVec 3) (k : BitVec 2) (a b : BitVec 3) (t : BitVec 4) (s : State) : Out :=
  vvv (.vdots m d k a b t) m d k a b true 2 s (fun mask old x y => Machine.vdot (vecTy t.toNat) true mask old x y)

/-! ## Masks and registers (09 R196, R197) -/

/-- A mask form of one or two masks. -/
def maskForm (i : Instr) (m : Bool) (d a b : BitVec 3) (two : Bool) (f : BitVec 16 → BitVec 16 → BitVec 16) (s : State) : Out :=
  coreForm { i := i, m := m, dst := [.k d.toNat], src := [.k a.toNat] ++ (if two then [.k b.toNat] else []), long := true } [] s
    (fun th => [toK d (f (th.rk a.toNat) (th.rk b.toNat))])

/-- 09 R196. -/
def execKand (m : Bool) (d a b : BitVec 3) (s : State) : Out := maskForm (.kand m d a b) m d a b true (· &&& ·) s

/-- 09 R196. -/
def execKor (m : Bool) (d a b : BitVec 3) (s : State) : Out := maskForm (.kor m d a b) m d a b true (· ||| ·) s

/-- 09 R196. -/
def execKxor (m : Bool) (d a b : BitVec 3) (s : State) : Out := maskForm (.kxor m d a b) m d a b true (· ^^^ ·) s

/-- 09 R196. -/
def execKnot (m : Bool) (d a : BitVec 3) (s : State) : Out := maskForm (.knot m d a) m d a a false (fun x _ => ~~~ x) s

/-- 09 R196. -/
def execKmovGk (m : Bool) (v : BitVec 3) (g : BitVec 5) (s : State) : Out :=
  coreForm { i := .kmovGk m v g, m := m, dst := [.k v.toNat], src := [gd g], long := true } [] s
    (fun th => [toK v ((th.rg g).truncate 16)])

/-- 09 R196. -/
def execKmovKg (m : Bool) (v : BitVec 3) (g : BitVec 5) (s : State) : Out :=
  coreForm { i := .kmovKg m v g, m := m, dst := [gd g], src := [.k v.toNat], long := true } [] s
    (fun th => [toG g ((th.rk v.toNat).zeroExtend 64)])

/-- 09 R196. -/
def execKpop (m : Bool) (v : BitVec 3) (g : BitVec 5) (s : State) : Out :=
  coreForm { i := .kpop m v g, m := m, dst := [gd g], src := [.k v.toNat], long := true } [] s
    (fun th => [toG g (BitVec.ofNat 64 (ones (th.rk v.toNat).toNat 16))])

/-- 09 R196: bit 1 tells that ka lies in kb, bit 0 that they meet. -/
def execKtest (m : Bool) (v : BitVec 3) (k : BitVec 2) (g : BitVec 5) (s : State) : Out :=
  coreForm { i := .ktest m v k g, m := m, dst := [gd g], src := [.k v.toNat, kd k], long := true } [] s (fun th =>
    let a := th.rk v.toNat
    let b := th.rk k.toNat
    [toG g (BitVec.ofNat 64 ((if a &&& b = a then 2 else 0) + (if a &&& b = 0 then 0 else 1)))])

/-- 09 R197. -/
def execVfree (m : Bool) (d : BitVec 3) (s : State) : Out :=
  coreForm { i := .vfree m d, m := m, dst := [vd d], long := true } [d] s (fun _ => [.free d.toNat])

/-- 09 R197. -/
def execVmov (m : Bool) (d : BitVec 3) (k : BitVec 2) (a : BitVec 3) (s : State) : Out :=
  vvv (.vmov m d k a) m d k a a false 1 s (fun mask old x _ => (mergeLanes mask old x, 0))

/-! ## Block memory forms (09 R193) -/

/-- The offset of a block form: imm5 × 64 (02 R51). -/
def blockAddr (th : Thread) (g : BitVec 5) (i : BitVec 5) : Dword := th.rg g + imm 5 i * 64

/-- VLD and VST take the path of LD and ST; one that migrates waits as if marked (02 R66). -/
def blockAccess (f : Form) (v : BitVec 3) (s : State) (mk : Thread → Access) : Out :=
  groupIssue ((mk s.me).form f s) [v] s (fun th s => accessAt th s (mk th))

/-- 09 R193. -/
def execVld (m : Bool) (v : BitVec 3) (k : BitVec 2) (g i : BitVec 5) (s : State) : Out :=
  let f : Form := { i := .vld m v k g i, m := m, dst := [vd v], src := [vd v, gd g, kd k], long := true, mem := true }
  blockAccess f v s (fun th =>
    { kind := .vload (th.rk k.toNat), va := blockAddr th g i
      need := { size := 64, align := 64, right := .rd, block := true }, route := .follow
      dests := [vd v], mask := th.rk k.toNat, old := th.rv v.toNat })

/-- 09 R193. -/
def execVst (m : Bool) (v : BitVec 3) (k : BitVec 2) (g i : BitVec 5) (s : State) : Out :=
  let f : Form := { i := .vst m v k g i, m := m, src := [vd v, gd g, kd k], mem := true }
  blockAccess f v s (fun th =>
    { kind := .vstore (th.rk k.toNat) (th.rv v.toNat), va := blockAddr th g i
      need := { size := 64, align := 64, right := .w, block := true }, route := .followStore, buffered := true })

/-! ## Element-wise memory forms (09 R194) -/

/-- The first active element whose check fails, or whose owner cannot be reached. -/
def State.elementTrap (s : State) (th : Thread) (right : Right) (es : List (Nat × Dword)) : Option (BitVec 8 × Dword) :=
  let bad := es.filterMap (fun e =>
    let d := s.myTile.seg (vaSeg e.2)
    (({ size := 4, align := 4, right := right } : Need).check d th.scratch (vaOff e.2)).map (fun c => (c, e.2)))
  match bad with
  | b :: _ => some b
  | [] =>
    (es.find? (fun e => match (s.myTile.seg (vaSeg e.2)).owner s.here (vaOff e.2) with
      | some n => n != s.here && !s.reachable n
      | none => false)).map (fun e => (Cause.isolated, e.2))

/-- Its owner, none for a host window, and its operation. -/
def State.elementOp (s : State) (th : Thread) (kind : Nat → OpKind) (e : Nat × Dword) : Option Nat × Op :=
  let d := s.myTile.seg (vaSeg e.2)
  let o := vaOff e.2
  let own := d.owner s.here o
  (own, { kind := kind e.1, path := .here, origin := .thread s.here th.tid th.tags, asid := th.asid.toNat, seg := vaSeg e.2
          va := e.2, lo := d.localOffset th.scratch o, owner := own.getD Config.noTile, src := s.here, map := d.mapping
          lane := e.1 })

/-- The elements are checked, remote ones are sent in increasing order, local ones performed, and the form is complete when the
last has returned (09 R194). -/
def elementForm (f : Form) (vs : List (BitVec 3)) (store : Bool) (mask : Thread → BitVec 16) (addr : Thread → Nat → Dword)
    (kind : Thread → Nat → OpKind) (dst : List Dest) (old : Thread → Line) (s : State) : Out :=
  groupIssue f vs s (fun th s =>
    let t := s.here
    let (c, k) := s.cur.2
    let es := ((List.range 16).filter (fun j => (mask th).getLsbD j)).map (fun j => (j, addr th j))
    match s.elementTrap th (if store then .w else .rd) es with
    | some (cause, va) => .next (s.trap cause va)
    | none =>
      let ops := es.map (s.elementOp th (kind th))
      let own := (ops.filter (fun o => o.1 == some t)).map (·.2)
      let away := ops.filter (fun o => o.1 != some t)
      if 8 ≤ s.myCore.vq.length then .next s.forfeit
      else if store && decide (255 < th.posted.length + away.length) then .next (s.hold .posted)
      else
        let base : Op := { kind := kind th 0, path := .here, origin := .thread t th.tid th.tags, asid := th.asid.toNat, seg := 0
                           va := 0, lo := 0, owner := t, src := t }
        let w : WaitRec := { op := base, dests := dst, elems := true, todo := own, size := f.i.size, pin := true
                             lanes := if store then [] else away.map (fun o => o.2.lane), old := old th
                             sbAt := s.myCore.sbNext, bind := if store then none else some th.tags
                             direct := !store && !away.isEmpty }
        let s := (s.issued { th with tags := th.tags + 1 }).enqueue th.tags 2
        let sent := (away.filter (fun o => o.1.isSome)).length
        let s := away.foldl (fun s o =>
          let s := s.countRemote t th
          let o := (o.1, { o.2 with group := some (th.tags, sent) })
          if store then
            (match o.1 with
              | some _ => s.sendPosted t c k (s.thread t c k) o.2 false (some (th.pc, th.pincnt, s.time))
              | none => s.sendHost t c k (s.thread t c k) { w with op := o.2, acq := false } true)
          else
            let op := { o.2 with path := .remote }
            match o.1 with
            | some n => s.send clsREQ t n op.asid 1 (.request op)
            | none => { s with hostWait := s.hostWait ++ [op] }) s
        let s := s.setThread t c k { s.thread t c k with
          wait := some w, st := if w.lanes.isEmpty then .ready else .remoteWait }
        .next (if own.isEmpty then s.elementsDone t c k else s.acceptOwn t c k))

def lane4 : LoadForm := ⟨4, false⟩

/-- Element j of a strided form. -/
def strided (th : Thread) (g h : BitVec 5) (j : Nat) : Dword := th.rg g + BitVec.ofNat 64 j * th.rg h
/-- Element j of an indexed form. -/
def indexed (th : Thread) (g : BitVec 5) (x : BitVec 3) (j : Nat) : Dword :=
  th.rg g + 4 * BitVec.ofInt 64 (intValue true 32 (elem 32 (th.rv x.toNat) j))

/-- 09 R194. -/
def execVlds (m : Bool) (v : BitVec 3) (k : BitVec 2) (g h : BitVec 5) (t : BitVec 4) (s : State) : Out :=
  elementForm { i := .vlds m v k g h t, m := m, dst := [vd v], src := [vd v, gd g, gd h, kd k], long := true, mem := true } [v]
    false (fun th => th.rk k.toNat) (fun th j => strided th g h j) (fun _ _ => .load lane4) [vd v] (fun th => th.rv v.toNat) s

/-- 09 R194. -/
def execVsts (m : Bool) (v : BitVec 3) (k : BitVec 2) (g h : BitVec 5) (t : BitVec 4) (s : State) : Out :=
  elementForm { i := .vsts m v k g h t, m := m, src := [vd v, gd g, gd h, kd k], mem := true } [v] true
    (fun th => th.rk k.toNat) (fun th j => strided th g h j)
    (fun th j => .store 4 (BitVec.ofNat 64 (elem 32 (th.rv v.toNat) j))) [] (fun _ => 0) s

/-- 09 R194. -/
def execVgth (m : Bool) (v : BitVec 3) (k : BitVec 2) (g : BitVec 5) (x : BitVec 3) (t : BitVec 4) (s : State) : Out :=
  elementForm { i := .vgth m v k g x t, m := m, dst := [vd v], src := [vd v, gd g, vd x, kd k], long := true, mem := true } [v, x]
    false (fun th => th.rk k.toNat) (fun th j => indexed th g x j) (fun _ _ => .load lane4) [vd v] (fun th => th.rv v.toNat) s

/-- 09 R194. -/
def execVsct (m : Bool) (v : BitVec 3) (k : BitVec 2) (g : BitVec 5) (x : BitVec 3) (t : BitVec 4) (s : State) : Out :=
  elementForm { i := .vsct m v k g x t, m := m, src := [vd v, gd g, vd x, kd k], mem := true } [v, x] true
    (fun th => th.rk k.toNat) (fun th j => indexed th g x j)
    (fun th j => .store 4 (BitVec.ofNat 64 (elem 32 (th.rv v.toNat) j))) [] (fun _ => 0) s

/-! ## The arbiter (15 R329) -/

/-- The arbiter within one cycle: the tile, the cores that have bound, and the entries bound with their cores. -/
structure Arb where
  tl : Tile
  bound : List Nat := []
  out : List (Nat × VqEntry) := []

/-- A field written as 0 acts as weight 1 (01 R40). -/
def Tile.weight (tl : Tile) (c : Nat) : Nat := max 1 (tl.vweight.toNat / 16 ^ c % 16)

def Tile.freeGroup (tl : Tile) (now : Nat) : Option Nat := tl.laneGroups.find? (fun g => decide (tl.groupBusy.get 0 g ≤ now))

/-- A core's head that issued in an earlier cycle. -/
def Core.head (co : Core) (now : Nat) : Option VqEntry :=
  match co.vq with
  | e :: _ => if e.at_ < now then some e else none
  | [] => none

/-- Core c is offered a free group. -/
def Arb.offer (now : Nat) (a : Arb) (c : Nat) : Arb :=
  let co := a.tl.core c
  match co.head now, a.tl.freeGroup now with
  | some e, some g =>
    if a.bound.contains c || decide (co.credit < e.cost) then a
    else
      let tl := a.tl.setCore c { co with vq := co.vq.tail, credit := co.credit - e.cost }
      { tl := { tl with groupBusy := tl.groupBusy.set g (now + e.cost) }, bound := c :: a.bound, out := a.out ++ [(c, e)] }
  | _, _ => a

/-- One cycle of deficit round-robin. -/
def Tile.arbitrate (tl : Tile) (now : Nat) : Arb :=
  let order := (List.range 4).map (fun i => (tl.arbP + i) % 4)
  let a := order.foldl (Arb.offer now) { tl := tl }
  let left := (List.range 4).filter (fun c => ((a.tl.core c).head now).isSome && !a.bound.contains c)
  let short := fun (c : Nat) => match (a.tl.core c).head now with
    | some e => decide ((a.tl.core c).credit < e.cost)
    | none => false
  let a := if (a.tl.freeGroup now).isSome && !left.isEmpty && left.all short then
      let tl := left.foldl (fun (tl : Tile) c =>
        tl.setCore c { tl.core c with credit := (tl.core c).credit + tl.weight c }) a.tl
      order.foldl (Arb.offer now) { a with tl := tl }
    else a
  let tl := (List.range 4).foldl (fun (tl : Tile) c =>
    if (tl.core c).vq.isEmpty && decide ((tl.core c).credit ≠ 0) then tl.setCore c { tl.core c with credit := 0 } else tl) a.tl
  { a with tl := { tl with arbP := (tl.arbP + 1) % 4 } }

/-- A result whose instruction has been bound is on its way. -/
def Pending.bound (tag : Nat) (p : Pending) : Pending :=
  if p.tag == tag || p.bind == some tag then { p with ready := true, bind := none } else p

/-- The result of a bound instruction is on its way. -/
def Thread.boundTag (th : Thread) (tag : Nat) : Thread :=
  { th with
    pending := th.pending.map (Pending.bound tag), silent := th.silent.map (Pending.bound tag)
    wait := th.wait.map (fun w => if w.bind == some tag then { w with bind := none } else w) }

/-- An entry of core c's queue is bound. -/
def State.bindEntry (s : State) (t c : Nat) (e : VqEntry) : State :=
  let th := s.thread t c e.slot
  let s := s.setThread t c e.slot (th.boundTag e.tag)
  match th.wait with
  | some w => if w.elems && w.bind == some e.tag then s.elementsDone t c e.slot else s
  | none => s

/-- The pointer moves in every cycle: in those in which the arbiter had nothing to bind too. -/
def Tile.arbitrateAt (tl : Tile) (now : Nat) : Arb :=
  let a := { tl with arbP := (tl.arbP + (now - tl.arbAt)) % 4 }.arbitrate now
  { a with tl := { a.tl with arbAt := now + 1 } }

/-- VECTOR_BIND: the arbiter of a tile binds queue heads to free lane groups in one cycle (15 R329), once in each. -/
def execVectorBind (t : Nat) (s : State) : Out :=
  if s.time < (s.tile t).arbAt then .next s else
  let a := (s.tile t).arbitrateAt s.time
  .next (a.out.foldl (fun s e => s.bindEntry t e.1 e.2) (s.setTile t a.tl))

end Sys2Proof.Machine
end

