-- ==== Sys2Proof/Machine/Matrix.lean ====
section
/-! DEFINITION. Matrix instructions, the lease, and the commands of the Trestle (10 R199 to R223). -/
namespace Sys2Proof.Machine

def Tile.acc (tl : Tile) (n : Nat) : Acc := tl.accs.get {} n
def Tile.setAcc (tl : Tile) (n : Nat) (a : Acc) : Tile := { tl with accs := tl.accs.set n a }

/-- A slot's status word (10 R200). -/
def Tile.slotStatus (tl : Tile) (n : Nat) : Dword :=
  let a := tl.acc n
  BitVec.ofNat 64 ((match a.owner with | some o => o.toNat * 2 ^ 32 + 2 ^ 15 | none => 0) +
    (if a.orphaned then 2 ^ 14 else 0) + a.tag * 2 ^ 12 + (if tl.slotBusy n then 2 ^ 9 else 0) +
    (if a.ovf then 2 ^ 8 else 0) + a.fault.toNat)

/-! ## The lease (10 R214, R215) -/

/-- HOLDER or LAPSED (10 R214): the thread holds the lease in the sense of 01 R26. -/
def Tile.lapsed (tl : Tile) (tid : BitVec 32) : Bool := tl.trestle.fifo.any (fun e => e.1 == tid && e.2)
def Tile.holds (tl : Tile) (tid : BitVec 32) : Bool := tl.trestle.holder == some tid || tl.lapsed tid

/-- A thread in LEASEWAIT whose lease has come is READY. -/
def Thread.granted (th : Thread) (tid : BitVec 32) : Thread :=
  if th.tid != tid then th
  else if th.st == .leaseWait then { th with st := .ready }
  else if th.haltedFrom == .leaseWait then { th with haltedFrom := .ready }
  else th

/-- The lease goes to a thread, its counts from zero. -/
def Tile.grant (tl : Tile) (tid : BitVec 32) (now : Nat) : Tile :=
  { tl with trestle := { tl.trestle with holder := some tid, commands := 0, grantAt := now } }.mapThreads
    (fun _ _ th => th.granted tid)

/-- The lease passes to the FIFO head, or is free. -/
def Tile.passLease (tl : Tile) (now : Nat) : Tile :=
  match tl.trestle.fifo with
  | [] => { tl with trestle := { tl.trestle with holder := none } }
  | e :: rest => ({ tl with trestle := { tl.trestle with fifo := rest } }).grant e.1 now

/-- Expiry: with an empty FIFO the holder stays and its counts restart, else it lapses at the tail. -/
def Tile.expireLease (tl : Tile) (now : Nat) : Tile :=
  match tl.trestle.holder with
  | none => tl
  | some h =>
    if tl.trestle.fifo.isEmpty then { tl with trestle := { tl.trestle with commands := 0, grantAt := now } }
    else ({ tl with trestle := { tl.trestle with fifo := tl.trestle.fifo ++ [(h, true)] } }).passLease now

/-- Slots released: at once, or when their commands have completed (10 R215). -/
def Tile.releaseSlots (tl : Tile) (pick : Nat → Acc → Bool) : Tile :=
  (List.range 8).foldl (fun (tl : Tile) n =>
    let a := tl.acc n
    if pick n a then tl.setAcc n (if tl.slotBusy n then { a with releasing := true } else {}) else tl) tl

/-- A thread gives up the lease: its slots are released and the lease passes on. -/
def Tile.giveUp (tl : Tile) (tid : BitVec 32) (now : Nat) : Tile :=
  if tl.trestle.holder = some tid then (tl.releaseSlots (fun _ a => a.owner == some tid)).passLease now
  else if tl.lapsed tid then
    ({ tl with trestle := { tl.trestle with fifo := tl.trestle.fifo.filter (fun e => e.1 != tid) } }).releaseSlots
      (fun _ a => a.owner == some tid)
  else tl

/-! ## The instructions (10 R216 to R220) -/

/-- Every form acts on the Trestle of the current tile, and traps LEASE where there is none. -/
def matrixForm (f : Form) (s : State) (act : Thread → State → Out) : Out :=
  issue f s (fun th s => if !s.myTile.hasTrestle then .next (s.trap Cause.lease 1) else act th s)

/-- 10 R214, R217. -/
def execMlease (m : Bool) (s : State) : Out :=
  let f : Form := { i := .mlease m, m := m }
  matrixForm f s (fun th s =>
    let tl := s.myTile
    let now := s.residentCycles s.here
    let past := { th with pc := th.nextPc f.i }
    if tl.trestle.holder = some th.tid then .next (s.issued past)
    else if tl.lapsed th.tid then .next (s.issued { past with st := .leaseWait })
    else if tl.trestle.holder.isNone then
      .next ((s.issued past).mapTile s.here (fun tl => tl.grant th.tid now))
    else
      .next ((s.issued { past with st := .leaseWait }).mapTile s.here (fun tl =>
        { tl with trestle := { tl.trestle with fifo := tl.trestle.fifo ++ [(th.tid, false)] } })))

/-- 10 R214, R217: never enters the FIFO. -/
def execMtryl (m : Bool) (d : BitVec 5) (s : State) : Out :=
  let f : Form := { i := .mtryl m d, m := m, dst := [gd d], long := true }
  matrixForm f s (fun th s =>
    let tl := s.myTile
    let now := s.residentCycles s.here
    let free := tl.trestle.holder.isNone && !tl.lapsed th.tid
    let got := free || tl.trestle.holder == some th.tid
    let th' := { th.await { tag := 0, dests := live f.dst, ready := true, writes := [toG d (if got then 1 else 0)] } with
      pc := th.nextPc f.i }
    .next ((s.issued th').mapTile s.here (fun tl => if free then tl.grant th.tid now else tl)))

/-- The executing thread waits in SLOTLOCK and issues the form again when none of the slots is BUSY (10 R218, R220). -/
def State.slotLock (s : State) (th : Thread) (slots : List Nat) : State := s.setMe { th with st := .slotLock, locks := slots }

/-- 10 R218. None of its slots is freed before no slot of the mask that the thread owns is BUSY (DESIGN CHOICE, log 47: the rule does not say
whether idle ones go first). -/
def execMrel (m : Bool) (a : BitVec 5) (s : State) : Out :=
  let f : Form := { i := .mrel m a, m := m, src := [gd a] }
  guarded f (fun th => if (th.rg a).getLsbD 9 && th.priv == 0 then some 0 else none) s (fun th s =>
    if !s.myTile.hasTrestle then .next (s.trap Cause.lease 1) else
    let tl := s.myTile
    let x := th.rg a
    let now := s.residentCycles s.here
    let reclaim := x.getLsbD 9
    let named := (List.range 8).filter (fun n => x.getLsbD n)
    let bad := named.find? (fun n =>
      let c := tl.acc n
      let orphan := c.orphaned && !reclaim
      let other := c.owner.isSome && c.owner != some th.tid && !(c.orphaned && reclaim)
      orphan || other)
    let mine := named.filter (fun n =>
      let c := tl.acc n
      c.owner == some th.tid || (c.orphaned && reclaim))
    match bad with
    | some n => .next (s.trap Cause.accSlot (BitVec.ofNat 64 n))
    | none =>
      if mine.any tl.slotBusy then .next (s.slotLock th mine)
      else
        .next ((s.issued { th with pc := th.nextPc f.i }).mapTile s.here (fun tl =>
          let tl := tl.releaseSlots (fun n _ => mine.contains n)
          if x.getLsbD 8 then tl.giveUp th.tid now else tl)))

/-! ### MISSUE (10 R203, R219) -/

/-- An operand's rows as accesses pass their checks (10 R203). -/
def rowsPass (segs : Tab Segment) (scratch : Option (Nat × Nat)) (right : Right) (rows : List (Dword × Nat)) : Bool :=
  rows.all (fun e =>
    let d := segs.get {} (vaSeg e.1)
    d.kind != 5 && (d.check scratch (vaOff e.1) e.2 1 right).isNone)

/-- Why a block is rejected, in the table's order (10 R203): the operand and the code. -/
def Block.rejection (b : Block) (tagNow : Nat) : Option (Nat × Nat) :=
  let zero := fun (is : List Nat) => is.all (fun i => b.word i == 0)
  let reserved := field (b.word 0) 32 32 == 0 && field (b.word 0) 7 1 == 0 && b.word 7 == 0 &&
    (if b.kind = 0 then b.scaled || zero [4, 5, 6]
     else if b.kind = 1 then zero [1, 2, 3, 4, 5, 6]
     else if b.kind ≤ 3 then zero [2, 4, 5, 6] && field (b.word 3) 32 32 == 0
     else true)
  let fmtOk := if b.kind = 0 then decide (b.fmt ≤ 6) else b.fmt == 5 || b.fmt == 2 || b.fmt == 6
  let bitsOk := (!(b.ae5 || b.be5) || b.fmt == 0) && (!b.scaled || b.fmt == 0 || b.fmt == 1) &&
    (b.kind == 0 || !(b.ae5 || b.be5 || b.scaled || b.mcast))
  let kOk := if b.kind = 0 then b.k != 0 && b.k % b.stepK == 0 else b.k == 0
  let tagOk := if b.kind = 0 then tagNow == 0 || tagNow == b.tag else if b.kind = 3 then tagNow == b.tag else true
  let pass := rowsPass b.segs b.scratch
  let by64 := fun (x : Nat) => x % 64 == 0
  let by4 := fun (x : Nat) => x % 4 == 0
  let chunks := b.k / 128
  let aOk := by64 (b.word 1).toNat && by64 (field (b.word 3) 0 32) &&
    pass .rd ((List.range 32).map (fun i => (b.aRow i, b.k * b.elemBytes)))
  let bOk := by64 (b.word 2).toNat && by64 (field (b.word 3) 32 32) &&
    pass .rd ((List.range b.k).map (fun i => (b.bRow i, 64 * b.elemBytes)))
  let saOk := by4 (b.word 4).toNat && by4 (field (b.word 6) 0 32) &&
    pass .rd ((List.range 32).map (fun i => (b.saWord i 0, 4 * chunks)))
  let sbOk := by4 (b.word 5).toNat && by4 (field (b.word 6) 32 32) &&
    pass .rd ((List.range chunks).map (fun c => (b.sbWord c, 4)))
  let cOk := by64 (b.word 1).toNat && by64 (field (b.word 3) 0 32) &&
    pass (if b.kind = 3 then .w else .rd) ((List.range 32).map (fun i => (b.cRow i, b.rowBytes)))
  if !reserved then some (0, 5)
  else if 4 ≤ b.kind then some (0, 1)
  else if !fmtOk || !bitsOk then some (0, 2)
  else if !kOk then some (0, 3)
  else if !tagOk then some (0, 4)
  else if b.kind = 0 then
    if !aOk then some (1, 6) else if !bOk then some (2, 6)
    else if b.scaled && !saOk then some (3, 6) else if b.scaled && !sbOk then some (4, 6) else none
  else if b.kind = 1 then none
  else if !cOk then some (5, 6) else none

def rejectValue (r : Nat × Nat) : Dword := BitVec.ofNat 64 (2 ^ 63 + r.1 * 256 + r.2)

/-- The thread's MISSUE has its block: it is rejected, trapped, held back by a full queue or by the commands that a gang stop found queued
(10 R222), or accepted (10 R219): on a slot of its own that is still BUSY from before a lease that it gave up, too (DESIGN CHOICE, log 81). -/
def missueWith (f : Form) (d : BitVec 5) (th : Thread) (s : State) (ws : List Dword) : Out :=
  let tl := s.myTile
  let t := tl.trestle
  let b : Block := { words := ws, seq := t.accepted + 1, tid := th.tid, asid := th.asid.toNat, scratch := th.scratch
                     segs := tl.segs }
  let past := { th with pc := th.nextPc f.i, block := none, issuing := false }
  let acc := tl.acc b.slot
  match b.rejection acc.tag with
  | some r => .next (s.issued (past.writes [toG d (rejectValue r)]))
  | none =>
    if acc.orphaned || (acc.owner.isSome && acc.owner != some th.tid) then
      .next (s.trap Cause.accSlot (BitVec.ofNat 64 b.slot))
    else if 8 ≤ t.queue.length || decide (t.completed < t.before) then .next s.forfeit
    else
      let now := s.residentCycles s.here
      let s := (s.issued (past.writes [toG d (BitVec.ofNat 64 b.seq)]))
      .next (s.mapTile s.here (fun tl =>
        let tl := tl.setAcc b.slot { acc with owner := some th.tid, tag := if b.kind = 3 then acc.tag else b.tag }
        let tl := { tl with trestle := { tl.trestle with
          queue := tl.trestle.queue ++ [b], accepted := b.seq, commands := tl.trestle.commands + 1 } }
        if tl.trestle.commands = 16 then tl.expireLease now else tl))

/-- 10 R219: a release; the block is read once. -/
def execMissue (m : Bool) (d a : BitVec 5) (s : State) : Out :=
  let f : Form := { i := .missue m d a, m := m, waits := true, dst := [gd d], src := [gd a], long := true, mem := true }
  matrixForm f s (fun th s =>
    let tl := s.myTile
    if !tl.holds th.tid then .next (s.trap Cause.lease 0)
    else if tl.trestle.holder ≠ some th.tid then .next (s.setMe { th with st := .leaseWait })
    else
      let th := { th with issuing := true }
      let s := s.setMe th
      match s.releaseWait true s.myCore th with
      | some s => .next s
      | none =>
        match th.block with
        | some ws => missueWith f d th s ws
        | none =>
          let va := th.rg a
          let dsc := s.myTile.seg (vaSeg va)
          match dsc.check th.scratch (vaOff va) 64 64 .rd with
          | some c => .next (s.trap c va)
          | none =>
            if dsc.owner s.here (vaOff va) ≠ some s.here then
              .next (s.issued ({ th with pc := th.nextPc f.i, issuing := false }.writes [toG d (rejectValue (0, 7))]))
            else .next (s.readBlock th va 8))

/-- 10 R220. With g0 for destination no result pends (02 R65); a later memory access still waits for the command. -/
def execMwait (m : Bool) (d a : BitVec 5) (s : State) : Out :=
  let f : Form := { i := .mwait m d a, m := m, dst := [gd d], src := [gd a], long := true }
  matrixForm f s (fun th s =>
    let t := s.myTile.trestle
    let w := min (th.rg a).toNat t.accepted
    let done := decide (w ≤ t.completed)
    let p : Pending := { tag := th.tags, dests := live f.dst, ready := done, acq := true
                         writes := [toG d (BitVec.ofNat 64 t.completed)], mseq := if done then none else some w }
    let kept := !p.dests.isEmpty
    .next (s.issued { th with
      pc := th.nextPc f.i, tags := th.tags + 1
      pending := if kept then th.pending ++ [p] else th.pending
      silent := if kept || done then th.silent else th.silent ++ [p] }))

/-- 10 R220. -/
def execMseq (m : Bool) (d a : BitVec 5) (s : State) : Out :=
  let f : Form := { i := .mseq m d a, m := m, dst := [gd d], src := [gd a], long := true }
  matrixForm f s (fun th s =>
    let x := (th.rg a).toNat
    let t := s.myTile.trestle
    let sel := x % 16
    let v : Dword := if 16 ≤ x then 0
      else if sel = 0 then BitVec.ofNat 64 t.completed
      else if sel = 1 then BitVec.ofNat 64 t.accepted
      else if 8 ≤ sel then s.myTile.slotStatus (sel - 8) else 0
    .next (s.issued { th.await { tag := 0, dests := live f.dst, ready := true, writes := [toG d v] } with pc := th.nextPc f.i }))

/-- MACCV and MACCW before they act: the vector register (11 R228, 15 R316), the lease, the slot's owner, its lock (10 R220). -/
def accumulatorForm (f : Form) (v : BitVec 3) (a : BitVec 5) (s : State) (act : Thread → State → Nat → Acc → Out) : Out :=
  issue f s (fun th s =>
    if th.vregs ≤ v.toNat then .next (s.trap Cause.illegal (Instr.word f.i)) else
    let tl := s.myTile
    let n := field (th.rg a) 0 3
    let acc := tl.acc n
    if !tl.hasTrestle then .next (s.trap Cause.lease 1)
    else if !tl.holds th.tid then .next (s.trap Cause.lease 0)
    else if acc.orphaned || (acc.owner.isSome && acc.owner != some th.tid) then
      .next (s.trap Cause.accSlot (BitVec.ofNat 64 n))
    else if tl.slotBusy n then .next (s.slotLock th [n])
    else act th s n { acc with owner := some th.tid })

def accChunk (x : Dword) : Nat := 8 * field x 3 5 + field x 8 3
/-- Chunks 4 to 7 of a slot tagged FP32 or INT32 are not there (10 R220). -/
def Acc.hidden (acc : Acc) (x : Dword) : Bool := (acc.tag == 1 || acc.tag == 2) && decide (4 ≤ field x 8 3)

/-- 10 R220. -/
def execMaccv (m : Bool) (v : BitVec 3) (a : BitVec 5) (s : State) : Out :=
  let f : Form := { i := .maccv m v a, m := m, dst := [vd v], src := [gd a], long := true }
  accumulatorForm f v a s (fun th s n acc =>
    if acc.fault ≠ 0 then .next (s.trap acc.fault (BitVec.ofNat 64 n))
    else
      let x := if acc.hidden (th.rg a) then 0 else acc.data.get 0 (accChunk (th.rg a))
      .next ((s.issued { th.await { tag := 0, dests := live f.dst, ready := true, writes := [toV v x] } with
        pc := th.nextPc f.i }).mapTile s.here (fun tl => tl.setAcc n acc)))

/-- 10 R220. -/
def execMaccw (m : Bool) (v : BitVec 3) (a : BitVec 5) (s : State) : Out :=
  let f : Form := { i := .maccw m v a, m := m, src := [vd v, gd a] }
  accumulatorForm f v a s (fun th s n acc =>
    let acc := if acc.hidden (th.rg a) then acc
      else { acc with data := acc.data.set (accChunk (th.rg a)) (th.rv v.toNat) }
    .next ((s.issued { th with pc := th.nextPc f.i }).mapTile s.here (fun tl => tl.setAcc n acc)))

/-! ## Commands (10 R210 to R213) -/

def State.mapRunning (s : State) (t : Nat) (f : Running → Running) : State :=
  s.mapTile t (fun tl => { tl with trestle := { tl.trestle with running := tl.trestle.running.map f } })

/-- One piece of an operand line or STORE row as a request to its owner; a multicast one names an owner of the requester's
field. -/
def Block.lineReq (b : Block) (t : Nat) (va : Dword) (len : Nat) (data : Option Line) : LineReq :=
  let d := b.segs.get {} (vaSeg va)
  let o := vaOff va
  let own := (d.owner t o).getD t
  { asid := b.asid, tile := t, seq := b.seq, seg := vaSeg va, va := va, owner := own, lo := d.localOffset b.scratch o, len := len
    mcast := b.mcast && Config.fieldOf own == Config.fieldOf t, data := data, tid := b.tid, map := d.mapping }

/-- The pieces of a 64-byte line: a granule below 64 bytes cuts it. -/
def Block.pieces (b : Block) (va : Dword) : List (Dword × Nat) :=
  let d := b.segs.get {} (vaSeg va)
  let n := if d.kind = 1 && decide (d.g < 6) then 2 ^ d.g else 64
  (List.range (64 / n)).map (fun i => (va + BitVec.ofNat 64 (n * i), n))

/-- A command meets a refused page or poisoned data (10 R212): the slot takes the cause, a record of kind 7 is written, and an
MMA or LOAD stops: at once, though the line was asked for ahead of its step; the last of several refused writes of a STORE gives the cause
(DESIGN CHOICE, log 48: the rule settles neither). -/
def State.commandFault (s : State) (t : Nat) (r : Running) (x : LineReq) (cause : BitVec 8) : State :=
  let s := s.mapTile t (fun tl => tl.setAcc r.blk.slot { tl.acc r.blk.slot with fault := cause })
  let s := s.addFault t { tid := r.blk.tid, asid := r.blk.asid, seg := x.seg, kind := 7, reason := cause.toNat, lo := x.lo, va := x.va
                          src := t, cls := clsOPND }
  if r.blk.kind = 3 then s else s.mapRunning t (fun r => { r with stopped := true, toSend := [], awaited := [] })

/-- Requests go out in step order while fewer than 128 are outstanding (10 R210, R213); a line is asked for once in a command.
An absent name is a refused page (18 R382). -/
def State.askLines (s : State) (t : Nat) : Nat → State
  | 0 => s
  | fuel + 1 =>
    match (s.tile t).trestle.running with
    | none => s
    | some r =>
      if r.stopped || decide (128 ≤ r.awaited.length + r.unacked) then s
      else
        match r.toSend with
        | (va, n) :: rest =>
          let known := r.awaited.contains va || r.got.any (fun e => e.1 == va)
          let s := s.mapRunning t (fun r => { r with toSend := rest, awaited := if known then r.awaited else r.awaited ++ [va] })
          let q := r.blk.lineReq t va n none
          if known then s.askLines t fuel
          else if s.reachable q.owner then (s.send clsOPND t q.owner q.asid 1 (.lineRead q)).askLines t fuel
          else s.commandFault t r q Cause.pageDenied
        | [] =>
          if r.blk.steps ≤ r.ahead then s
          else (s.mapRunning t (fun r => { r with
            ahead := r.ahead + 1, toSend := (r.blk.stepLines r.ahead).flatMap r.blk.pieces })).askLines t fuel

/-- A bound on the requests that one event can make ready. -/
def askFuel : Nat := 2048

/-- TRESTLE_COMMAND_START: the next accepted command runs (10 R211); in a debug halt, that of a slot left ORPHANED (10 R221). A ZERO or
LOAD clears OVF and FAULT (10 R200); a STORE of a slot with a FAULT writes nothing. -/
def execTrestleCommandStart (t : Nat) (s : State) : Out :=
  let tl := s.tile t
  match tl.trestle.running, tl.trestle.queue with
  | none, b :: rest =>
    if !s.unitsRun t && !(tl.gang == .halted && (tl.acc b.slot).orphaned) then .next s
    else
      let stopped := b.kind = 3 && (tl.acc b.slot).fault != 0
      let s := s.mapTile t (fun tl =>
        let tl := { tl with trestle := { tl.trestle with queue := rest, running := some { blk := b, stopped := stopped } } }
        if b.kind = 1 || b.kind = 2 then tl.setAcc b.slot { tl.acc b.slot with ovf := false, fault := 0 } else tl)
      .next (s.askLines t askFuel)
  | _, _ => .next s

/-- Row i of C as it has arrived, in 64-byte chunks; the rest of the row is zero (10 R211). -/
def Block.loadRow (b : Block) (got : List (Dword × Nat × Line)) (i : Nat) (acc : Acc) : Acc :=
  { acc with data := (List.range 8).foldl (fun (d : Tab Line) c =>
      d.set (8 * i + c) (if c < b.rowBytes / 64 then
        BitVec.ofNat 512 (valueOf got (b.cRow i + BitVec.ofNat 64 (64 * c)) 64) else 0)) acc.data }

/-- The posted writes of a STORE row. -/
def Block.storeRow (b : Block) (acc : Acc) (i : Nat) : List (Dword × Nat × Line) :=
  (List.range (b.rowBytes / 64)).flatMap (fun c =>
    (b.pieces (b.cRow i + BitVec.ofNat 64 (64 * c))).map (fun p =>
      let off := (p.1 - (b.cRow i + BitVec.ofNat 64 (64 * c))).toNat
      (p.1, p.2, (acc.data.get 0 (8 * i + c)) >>> (8 * off))))

/-- TRESTLE_STEP: the next step of the running command, once its lines have arrived (10 R213). -/
def execTrestleStep (t : Nat) (s : State) : Out :=
  let tl := s.tile t
  match tl.trestle.running with
  | none => .next s
  | some r =>
    let b := r.blk
    let due := (b.stepLines r.step).flatMap b.pieces
    let here := due.all (fun p => r.got.any (fun e => e.1 == p.1))
    if r.stopped || decide (b.steps ≤ r.step) || !here then .next s
    else
      let acc := tl.acc b.slot
      let s := s.mapRunning t (fun r => { r with step := r.step + 1 })
      let put := fun (s : State) (a : Acc) => s.mapTile t (fun tl => tl.setAcc b.slot a)
      if b.kind = 0 then .next ((put s (mmaStep b r.step r.got acc)).askLines t askFuel)
      else if b.kind = 1 then .next (put s { acc with data := [] })
      else if b.kind = 2 then
        .next ((put s (b.loadRow r.got r.step acc)).askLines t askFuel)
      else
        let qs := (b.storeRow acc r.step).map (fun w => b.lineReq t w.1 w.2.1 (some w.2.2))
        .next (qs.foldl (fun (s : State) q =>
          if s.reachable q.owner then
            (s.mapRunning t (fun r => { r with unacked := r.unacked + 1 })).send clsOPND t q.owner q.asid 2 (.lineRead q)
          else s.commandFault t r q Cause.pageDenied) s)

/-- A pending MWAIT whose command has completed gets its value, and a thread in SLOTLOCK none of whose slots is BUSY goes on (10 R218,
R220). -/
def Thread.commandDone (th : Thread) (n : Nat) (busy : Nat → Bool) : Thread :=
  let locked := th.locks.any busy
  { th with
    st := if th.st == .slotLock && !locked then .ready else th.st
    haltedFrom := if th.haltedFrom == .slotLock && !locked then .ready else th.haltedFrom
    locks := if locked then th.locks else []
    silent := th.silent.filter (fun p => match p.mseq with
      | some w => decide (n < w)
      | none => true)
    pending := th.pending.map (fun p => match p.mseq with
      | some w => if w ≤ n then { p with
          ready := true, mseq := none, writes := p.dests.map (fun d => .to d (BitVec.ofNat 512 n)) } else p
      | none => p) }

/-- TRESTLE_COMMAND_COMPLETE: the command's last step has ended and its writes are acknowledged: BUSY clears, D rises, and
what waited for it goes on (10 R211, R218, R220). -/
def execTrestleCommandComplete (t : Nat) (s : State) : Out :=
  match (s.tile t).trestle.running with
  | none => .next s
  | some r =>
    if (!r.stopped && decide (r.step < r.blk.steps)) || r.unacked ≠ 0 then .next s
    else
      let n := r.blk.slot
      .next ((s.mapTile t (fun tl =>
        let tl := { tl with trestle := { tl.trestle with running := none, completed := r.blk.seq } }
        let tl := if (tl.acc n).releasing && !tl.slotBusy n then tl.setAcc n {} else tl
        tl.mapThreads (fun _ _ th => th.commandDone r.blk.seq tl.slotBusy))).refreshTile t)

/-- OPERAND_LINE_ARRIVE: a line, or the acknowledgement of a STORE's line, reaches the Trestle (10 R212, R213). -/
def execOperandLineArrive (n : Nat) (s : State) : Out :=
  match s.takes n with
  | none => .next s
  | some p =>
    let t := p.dst
    match p.body with
    | .line x data cause =>
      let s := s.dropPacket n
      match (s.tile t).trestle.running with
      | none => .next s
      | some r =>
        if r.blk.seq ≠ x.seq || r.stopped then .next s
        else if cause ≠ 0 then .next (s.commandFault t r x cause)
        else
          .next ((s.mapRunning t (fun r => { r with
            awaited := r.awaited.erase x.va, got := r.got ++ [(x.va, x.len, data)] })).askLines t askFuel)
    | .lineAck x cause =>
      let s := s.dropPacket n
      match (s.tile t).trestle.running with
      | none => .next s
      | some r =>
        if r.blk.seq ≠ x.seq then .next s
        else
          let s := if cause ≠ 0 then s.commandFault t r x cause else s
          .next (s.mapRunning t (fun r => { r with unacked := r.unacked - 1 }))
    | _ => .next s

/-- LEASE_EXPIRE_TIME: 65,536 resident cycles have passed since the grant (10 R214); a MISSUE under way is settled first. -/
def execLeaseExpireTime (t : Nat) (s : State) : Out :=
  let r := (s.tile t).trestle
  let now := s.residentCycles t
  let issuing := (s.tile t).threads.any (fun e => some e.2.2.tid == r.holder && e.2.2.issuing)
  if r.holder.isNone || issuing || !s.unitsRun t || decide (now < r.grantAt + 65536) then .next s
  else .next (s.mapTile t (fun tl => tl.expireLease now))

end Sys2Proof.Machine
end

