-- ==== Sys2Proof/Machine/Threads.lean ====
section
/-! DEFINITION. Threads: the SPAWN forms with the quota and sequence numbers, TID, PRIO, EXIT, and the messages that count
threads (11 R227 to R232, 01 R41, R42, 05 R125). -/
namespace Sys2Proof.Machine

/-! ## Task types (11 R231) -/

structure TaskType where
  entry : CodeAddr
  prio : BitVec 2
  vregs : Nat
  valid : Bool
  qbound : Bool
  scratch : Nat
  handle : Dword
  deriving DecidableEq, Repr

/-- An entry from its low and high doubleword. Reserved bits or VREGS above 8 leave it invalid. -/
def TaskType.of (lo hi : Dword) : TaskType :=
  { entry := lo.truncate 48, prio := BitVec.ofNat 2 (field lo 48 2), vregs := field lo 50 4
    valid := field lo 63 1 == 1 && field lo 54 8 == 0 && decide (field lo 50 4 ≤ 8)
    qbound := field lo 62 1 == 1, scratch := field hi 0 32, handle := BitVec.ofNat 64 (field hi 32 32) }

/-- Where the entry of a type stands at a tile, in its own copy of the table (01 R36), and what it says. -/
def State.taskTypeAt (s : State) (t n : Nat) : Nat := sramAt t (field (s.tile t).tasktab 0 31 + 16 * n)
def State.taskType (s : State) (t n : Nat) : TaskType := TaskType.of (s.dword (s.taskTypeAt t n)) (s.dword (s.taskTypeAt t n + 8))

/-- The entry that a SPAWN's operand names is read (14 R298). -/
def State.readType (s : State) (t : Nat) (x : Dword) : State :=
  if x.getLsbD 0 then s.decodeRange (s.taskTypeAt t (field x 1 5)) 16 else s

/-! ## Sequence numbers (01 R42) -/

/-- The lowest free number above the last drawn, wrapping; none while all are live. -/
def Tile.nextSeq (tl : Tile) : Option Nat :=
  ((List.range 4096).map (fun i => (tl.lastSeq + 1 + i) % 4096)).find? (fun n => !tl.live.contains n)

def Tile.draw (tl : Tile) (n : Nat) : Tile := { tl with live := addTo n tl.live, lastSeq := n }

/-! ## The live-thread count (11 R229) -/

/-- Local offset of the count at the origin tile (14 R447). -/
def countOffset : Nat := 0x1730200

/-- The origin tile of the partition: the first of its tiles in name order. -/
def State.originTile (s : State) (asid : Nat) : Option Nat := (s.tiles.find? (fun e => e.2.resident asid)).map (·.1)

/-- The fetching increment at the origin tile; one beyond a nonzero QUOTA is undone (11 R229). -/
def State.quotaTake (s : State) (t : Nat) : State × Reply :=
  let a := sramAt t countOffset
  let s := s.decodeRange a 8
  let n := (s.dword a).toNat + 1
  let q := (s.tile t).quota
  if q ≠ 0 && decide (q.toNat < n) then
    (s, .trap Cause.spawnResource (BitVec.ofNat 64 (2 ^ 56 + q.toNat)))
  else (s.putWords a [BitVec.ofNat 64 n], .done [])

def State.quotaDrop (s : State) (t : Nat) : State :=
  let a := sramAt t countOffset
  let s := s.decodeRange a 8
  s.putWords a [s.dword a - 1]

/-- A thread of an address space ends: its decrement goes to the origin tile as a posted operation. -/
def State.sendQuotaDrop (s : State) (t asid : Nat) : State :=
  match s.originTile asid with
  | some o => if o = t then s.quotaDrop t else s.send clsPOST t o asid 1 .quotaSub
  | none => s

/-- The retire note goes to the tile named in the TID (01 R42). -/
def State.sendRetire (s : State) (t asid : Nat) (tid : BitVec 32) : State :=
  let n := tid.toNat / 4096
  let seq := tid.toNat % 4096
  if n = t then s.mapTile t (fun tl => { tl with live := dropFrom seq tl.live })
  else s.send clsSYS t n asid 1 (.retire seq)

/-! ## SPAWN (11 R227, R228) -/

/-- Which of the three forms. -/
inductive SpawnForm where
  | here | at_ | any
  deriving DecidableEq, Repr

/-- A new thread (11 R228, 01 R13 to R23). -/
def Thread.child (parent : Thread) (entry : CodeAddr) (prio : BitVec 2) (vregs : Nat) (arg : Dword) (tid : BitVec 32) : Thread :=
  { st := .ready, pc := entry, prio := prio, asid := parent.asid, frm := parent.frm, few := parent.few, hz := parent.hz
    tid := tid, g := [(1, arg), (2, parent.tid.zeroExtend 64)], vregs := vregs }

def spawnValue (reason detail : Nat) : Dword := BitVec.ofNat 64 (reason * 2 ^ 56 + detail % 2 ^ 32)

/-- Entry, priority, vector registers and scratch of what is spawned, or the trap. -/
def State.spawnTarget (s : State) (th : Thread) (x : Dword) : Except (BitVec 8 × Dword) (CodeAddr × BitVec 2 × Nat × Nat) :=
  if !x.getLsbD 0 then
    match codeAddr x with
    | .error c => .error (c, x)
    | .ok pc => .ok (pc, th.prio, 8, 0)
  else
    let ty := s.taskType s.here (field x 1 5)
    if field x 6 58 ≠ 0 || !ty.valid then .error (Cause.spawnResource, spawnValue 2 x.toNat)
    else if s.myTile.poolSize < ty.scratch then .error (Cause.spawnResource, spawnValue 3 ty.scratch)
    else .ok (ty.entry, ty.prio, ty.vregs, ty.scratch)

/-- Where the child goes, or the trap. -/
def State.spawnDest (s : State) (form : SpawnForm) (th : Thread) (va : Dword) : Except (BitVec 8 × Dword) Nat :=
  match form with
  | .at_ =>
    let d := s.myTile.seg (vaSeg va)
    match ({ size := 1, align := 1, right := .rd, host := false } : Need).check d th.scratch (vaOff va) with
    | some c => .error (c, va)
    | none =>
      match d.owner s.here (vaOff va) with
      | some o => if o = s.here || s.reachable o then .ok o else .error (Cause.isolated, va)
      | none => .error (Cause.hostWindow, va)
  | _ => .ok s.here

/-- One more thread that the launch of an address space has created (15 R311). -/
def State.created (s : State) (asid : Nat) : State :=
  match s.launchOf asid with
  | some (md, _) => s.mapLaunch md (fun l => l.placed && l.asid == asid) (fun l => { l with threads := l.threads + 1 })
  | none => s

/-- The draw of the number and the child's departure; with no free number the turn is forfeited. -/
def spawnDraw (f : Form) (form : SpawnForm) (d c : BitVec 5) (th : Thread) (s : State) (x : Draw) : Out :=
  match s.myTile.nextSeq with
  | none => .next (s.setMe { th with quotaTaken := true, draw := some x }).forfeit
  | some n =>
    let tid := BitVec.ofNat 32 (s.myTile.name.toNat * 4096 + n)
    let child := th.child x.entry x.prio x.vregs (th.rg c) tid
    let s := s.issued { th.await { tag := 0, dests := live f.dst, ready := true, writes := [toG d (tid.zeroExtend 64)] } with
      pc := th.nextPc f.i, quotaTaken := false, draw := none }
    let s := ((s.mapTile s.here (fun tl => tl.draw n)).count s.here 0x250).created th.asid.toNat
    .next (s.send clsMIG s.here x.dest th.asid.toNat 4
      (.context { th := child, scratchNeed := x.scratch, donatable := form == .any } (if x.typed then .task else .spawned)))

/-- A SPAWN form (11 R227): a release; its checks, the quota, then the draw. A presentation that has its quota goes on with the draw, of
what the first one settled. -/
def spawnForm (f : Form) (form : SpawnForm) (d b c : BitVec 5) (s : State) : Out :=
  issue f s (fun th s =>
    match (if th.quotaTaken then th.draw else none) with
    | some x => spawnDraw f form d c th s x
    | none =>
      match s.releaseWait true s.myCore th with
      | some s => .next s
      | none =>
        let s := s.readType s.here (th.rg b)
        match s.spawnTarget th (th.rg b) with
        | .error e => .next (s.trap e.1 e.2)
        | .ok (entry, prio, vregs, scratch) =>
          match s.spawnDest form th (th.rg c) with
          | .error e => .next (s.trap e.1 e.2)
          | .ok dest =>
            let x : Draw := { entry := entry, prio := prio, vregs := vregs, scratch := scratch, typed := (th.rg b).getLsbD 0, dest := dest }
            let t := s.here
            match s.originTile th.asid.toNat with
            | none => spawnDraw f form d c th s x
            | some o =>
              if o = t then
                match s.quotaTake t with
                | (s, .trap cause v) => .next (s.trap cause v)
                | (s, _) => spawnDraw f form d c th s x
              else if !s.reachable o then .next (s.trap Cause.isolated (BitVec.ofNat 64 o))
              else
                let op : Op := { kind := .quota, path := .remote, origin := .thread t th.tid th.tags, asid := th.asid.toNat
                                 seg := 0, va := 0, lo := 0, owner := o, src := t }
                let s := s.setMe { th with
                  st := .remoteWait, wait := some { op := op, dests := [], size := 0, direct := true }, tags := th.tags + 1
                  draw := some x }
                .next (s.send clsREQ t o op.asid 1 (.quotaAdd op)))

/-- 11 R227. -/
def execSpawn (m : Bool) (d b c : BitVec 5) (s : State) : Out :=
  spawnForm { i := .spawn m d b c, m := m, waits := true, dst := [gd d], src := [gd b, gd c], long := true
              mem := true } .here d b c s

/-- 11 R227. -/
def execSpawnat (m : Bool) (d b c : BitVec 5) (s : State) : Out :=
  spawnForm { i := .spawnat m d b c, m := m, waits := true, dst := [gd d], src := [gd b, gd c], long := true
              mem := true } .at_ d b c s

/-- 11 R227. -/
def execSpawnany (m : Bool) (d b c : BitVec 5) (s : State) : Out :=
  spawnForm { i := .spawnany m d b c, m := m, waits := true, dst := [gd d], src := [gd b, gd c], long := true
              mem := true } .any d b c s

/-- 11 R230. -/
def execTid (m : Bool) (d : BitVec 5) (s : State) : Out :=
  short { i := .tid m d, m := m, dst := [gd d] } s (fun th => [toG d (th.tid.zeroExtend 64)])

/-- 11 R230: at user privilege a higher priority traps PRIVILEGE. -/
def execPrio (m : Bool) (a : BitVec 5) (s : State) : Out :=
  let f : Form := { i := .prio m a, m := m, src := [gd a] }
  guarded f (fun th => if th.priv = 0 && decide (th.prio.toNat < field (th.rg a) 0 2) then some (th.rg a) else none) s
    (fun th s => .next (s.issued { th with pc := th.nextPc f.i, prio := BitVec.ofNat 2 (field (th.rg a) 0 2) }))

/-! ## EXIT (05 R125) -/

/-- A scratch allotment is given back (11 R232). -/
def Tile.freeScratch (tl : Tile) (tid : BitVec 32) : Tile := { tl with allots := tl.allots.filter (fun e => e.2.2 != tid) }

/-- A denial that no instruction took (16 R345). -/
def State.denialLeft (s : State) (t : Nat) (tid : BitVec 32) (asid : Nat) (va : Dword) : State :=
  s.addFault t { tid := tid, asid := asid, seg := vaSeg va, kind := 8, reason := 0x17
                 lo := ((s.tile t).seg (vaSeg va)).localOffset none (vaOff va), va := va, src := t, cls := clsPOST }

/-- 05 R125: waits as if marked, and for what an access with destination g0 still reads (02 R65), then in one step gives up everything
the thread holds. -/
def execExit (m : Bool) (s : State) : Out :=
  issue { i := .exit m, m := m, waits := true } s (fun th s =>
    if !th.loadsBack then .next (s.hold (.fence 1 0)) else
    let t := s.here
    let now := s.residentCycles t
    let s := s.issued {}
    let s := s.mapTile t (fun tl => (tl.giveUp th.tid now).freeScratch th.tid)
    let s := match th.denial with
      | some va => s.denialLeft t th.tid th.asid.toNat va
      | none => s
    .next ((s.sendRetire t th.asid.toNat th.tid).sendQuotaDrop t th.asid.toNat))

/-! ## The messages -/

/-- RETIRE_NOTE: the number is free again (01 R42). -/
def execRetireNote (n : Nat) (s : State) : Out :=
  match s.takes n with
  | none => .next s
  | some p =>
    match p.body with
    | .retire seq =>
      .next ((s.dropPacket n).mapTile p.dst (fun tl => { tl with live := dropFrom seq tl.live }))
    | _ => .next s

/-- QUOTA_INCREMENT: the fetching increment at the origin tile (11 R229). -/
def execQuotaIncrement (n : Nat) (s : State) : Out :=
  match s.takes n with
  | none => .next s
  | some p =>
    match p.body with
    | .quotaAdd op =>
      let (s, r) := (s.dropPacket n).quotaTake p.dst
      .next (s.reply op r none)
    | _ => .next s

/-- QUOTA_DECREMENT: the posted decrement at the origin tile (11 R229). -/
def execQuotaDecrement (n : Nat) (s : State) : Out :=
  match s.takes n with
  | none => .next s
  | some p =>
    match p.body with
    | .quotaSub => .next ((s.dropPacket n).quotaDrop p.dst)
    | _ => .next s

end Sys2Proof.Machine
end

