-- ==== Sys2Proof/Machine/Serve.lean ====
section
/-! DEFINITION. What packets do at the tile they reach: operations, pieces and operand lines at their owner, responses and
acknowledgements at their sender, page walks, and the fault buffer (06 R129, 07 R146, 10 R210, 11 R233 to R242, 12 R256 to R258,
13 R285, 16 R336 to R345). -/
namespace Sys2Proof.Machine

/-! ## Streams and the fault buffer (13 R285, 16 R340) -/

def Packet.sameStream (p q : Packet) : Bool := p.src == q.src && p.dst == q.dst && p.cls == q.cls

/-- A packet comes after the earlier packets of its stream; adaptive routing and the drain leave classes other than POST and SYS
without that order (18 R380, R389). -/
def State.comesAfter (s : State) (p : Packet) : Bool :=
  (p.cls == clsPOST || p.cls == clsSYS || (p.mode != 2 && !p.drainVc)) && s.net.any (fun q => q.sameStream p && decide (q.born < p.born))

/-- TID of the issuer of what a packet carries (16 R339). -/
def Payload.tid : Payload → BitVec 32
  | .request op => op.origin.tid
  | .posted op => op.origin.tid
  | .withdraw op _ => op.origin.tid
  | .copyRead x => x.origin.tid
  | .copyData x => x.origin.tid
  | .copyCount x => x.origin.tid
  | .lineRead x => x.tid
  | .lineReads (x :: _) => x.tid
  | _ => 0xFFFFFFFF

/-- A packet whose page is being walked for. -/
def Use.stream (u : Use) (p : Packet) : Bool :=
  match u with
  | .packet q => q.sameStream p
  | _ => false

def Tile.streamWalks (tl : Tile) (p : Packet) : Bool := tl.walks.any (fun w => w.uses.any (fun u => u.stream p))
def Tile.streamHeld (tl : Tile) (p : Packet) : Bool := tl.faultBuf.any (fun e => e.p.sameStream p)

/-- A full fault buffer stalls an input channel of a tile (16 R340). -/
def State.fbStalls (s : State) (t : Nat) : State :=
  s.mapTile t (fun tl => { tl with fbFull := some (tl.fbFull.getD (s.residentCycles t)) })

/-- A fault buffer with room again: the cycles for which it stalled a channel are counted (16 R354). -/
def State.fbRoom (s : State) (t : Nat) : State :=
  match (s.tile t).fbFull with
  | some at_ =>
    if 64 ≤ (s.tile t).faultBuf.length then s
    else (s.mapTile t (fun tl => { tl with fbFull := none })).count t 0x273 (s.residentCycles t - at_)
  | none => s

/-- The requester that a packet's request is at its tile (14 R296): what the fabric brings is NET's; what the tile sent itself is its engines',
and a Bookend's is BK's; records and notes for the Dresser, and contexts for the Hutch, are HUT's. -/
def Packet.requester (p : Packet) : Nat :=
  let own := fun (o : Origin) (r : Nat) => if p.src ≠ p.dst then 4 else match o with
    | .bookend _ _ _ => 6
    | _ => r
  match p.body with
  | .request op => own op.origin 4
  | .posted op => (match op.kind with
    | .queue (.dsend _) => 7
    | .queue (.dseal _ _) => 7
    | _ => own op.origin 4)
  | .context _ _ => 7
  | .copyRead x => own x.origin 5
  | .copyData x => own x.origin 5
  | .copyCount x => own x.origin 5
  | .lineRead _ => if p.src ≠ p.dst then 4 else 5
  | .lineReads _ => 4
  | _ => 4

/-! ### Stalls at the pipeline (14 R303) -/

/-- Another request of a packet's requester stalls, and the packet waits behind it. -/
def State.netBehind (s : State) (t : Nat) (p : Packet) : Bool := s.behind t p.requester (.packet p.born)
/-- A packet's request stalls, and is accepted. -/
def State.netStalls (s : State) (t : Nat) (p : Packet) : State := s.stalls t p.requester (.packet p.born)
def State.netGoes (s : State) (t : Nat) (p : Packet) : State := s.goes t p.requester

/-- A packet that waits for a page joins or starts a walk; with 32 walks active it stalls as at a full miss table (16 R338). -/
def State.walkFor (s : State) (p : Packet) (seg : Nat) (m : Mapping) (lo : Nat) (va : Dword) (write : Bool) : State × Bool :=
  match s.startWalk p.dst p.asid seg m lo va write (.packet p) with
  | some s => (s.netGoes p.dst p, true)
  | none => (s.netStalls p.dst p, false)

/-! ## Performing what a packet asks -/

/-- An operation at its owner: it is performed, walks for a page, or stays with its port (06 R129, 14 R303). -/
def State.serveOp (s : State) (p : Packet) (op : Op) : State × Bool :=
  match s.locate op with
  | .miss => s.walkFor p op.seg op.map op.lo op.va op.kind.writes
  | .at_ a s =>
    match s.touchOp op a with
    | .stall s => (s.netStalls p.dst p, false)
    | .ok gate s =>
      let e := ((s.netGoes p.dst p).noteNarrow op gate).effect op a
      let s := e.s.wakeAll e.woken
      match e.ans with
      | .reply r => (s.reply op r gate, true)
      | .waits => (s, true)
      | .page seg lo va write => s.walkFor p seg ((s.tile p.dst).seg seg).mapping lo va write
      | .refused => (s.takeBack op, true)

/-- The withdrawal of a wait: the record goes and the sender is told; a form that found no record only marks its object (06
R134, 07 R161). -/
def State.serveWithdraw (s : State) (op : Op) (untaken : Bool) : State :=
  let tell := fun (s : State) =>
    match op.origin with
    | .thread t tid tag => s.send clsRSP op.owner t op.asid 1 (.withdrawAck tid tag)
    | _ => s
  if untaken then
    match s.resolve op with
    | some (a, s) => tell (s.setTout op a)
    | none => tell s
  else
    match s.withdraw op with
    | some s => tell s
    | none => s

/-- How the runs of a piece or line are found at their owner. -/
inductive Runs where
  | cells (rs : List (Nat × Nat)) (gates : List Gate) (s : State)
  | page (lo : Nat) (va : Dword)
  | stall

/-- The device addresses of n bytes from a local offset, line by line, and the fills that they wait for. What the cache has taken before a
line that must wait is taken anew with it. -/
def State.runs (s : State) (t asid seg : Nat) (m : Mapping) (va : Dword) (lo0 : Nat) (write rmw : Bool) (rs : List (Nat × Nat)) :
    List (Nat × Nat) → List Gate → Runs
  | [], gates => .cells rs gates s
  | (lo, n) :: rest, gates =>
    match s.translate t asid seg m.scratch write m.psize lo with
    | .miss => .page lo (va + BitVec.ofNat 64 (lo - lo0))
    | .at_ a s =>
      match s.touch a n write none rmw with
      | .stall _ => .stall
      | .ok g s => s.runs t asid seg m va lo0 write rmw (rs ++ [(a, n)]) rest (gates ++ g.toList)

/-- What an action sends waits for the fills of its lines, if there are any (14 R303). -/
def State.gated (s : State) (t : Nat) (gates : List Gate) (va : Dword) (f : State → State) : State :=
  if gates.isEmpty then f s
  else
    let s' := f s
    { s' with net := s'.net.take s.net.length }.gateOut t gates va (s'.net.drop s.net.length)

/-- An operand line is read, or a STORE's line written, at its address (10 R210, R211). -/
def State.performLine (s : State) (t : Nat) (x : LineReq) (a : Nat) : State :=
  match x.data with
  | none =>
    let cause := if s.isPoisoned a x.len then Cause.poison else 0
    s.send clsOPND t x.tile x.asid 2 (.line x (BitVec.ofNat 512 (s.num a x.len)) cause)
  | some v =>
    let op : Op := { kind := .arrive, path := .posted, origin := .thread x.tile x.tid 0, asid := x.asid, seg := x.seg, va := x.va
                     lo := x.lo, owner := t, src := x.tile }
    (s.poke op a (leBytes x.len v.toNat)).send clsOPND t x.tile x.asid 1 (.lineAck x 0)

/-- A line is read once for the joiners of a combine window, and leaves as one multicast on the memory plane (10 R210, 18 R385). -/
def State.performLines (s : State) (t : Nat) (xs : List LineReq) (a : Nat) : State :=
  match xs with
  | [] => s
  | [x] => s.performLine t x a
  | x :: _ =>
    let cause := if s.isPoisoned a x.len then Cause.poison else 0
    let p := s.packet clsOPND t x.tile x.asid 2 (.mline xs (BitVec.ofNat 512 (s.num a x.len)) cause)
    { s with net := s.net ++ [s.stamp { p with mcast := true }], sent := s.sent + 1 }

/-- What a packet asks of its tile. The answer tells whether it has been taken. -/
def State.serve (s : State) (p : Packet) : State × Bool :=
  let t := p.dst
  let access := fun (asid seg : Nat) (m : Mapping) (lo n : Nat) (va : Dword) (write rmw : Bool) (f : List (Nat × Nat) → State → State) =>
    match s.runs t asid seg m va lo write rmw [] (lineRuns lo n) [] with
    | .page lo va => s.walkFor p seg m lo va write
    | .stall => (s.netStalls t p, false)
    | .cells rs gates s => ((s.netGoes t p).gated t gates va (f rs), true)
  let go := fun (asid seg : Nat) (m : Mapping) (lo n : Nat) (va : Dword) (write : Bool) => access asid seg m lo n va write false
  match p.body with
  | .request op => s.serveOp p op
  | .posted op => s.serveOp p op
  | .withdraw op untaken => (s.serveWithdraw op untaken, true)
  | .copyRead x => go x.asid x.srcSeg x.srcMap x.srcLo x.partLen x.srcVa false (fun rs s => s.readPiece t x rs)
  | .copyData x => go x.asid x.dstSeg x.dstMap x.dstLo x.len x.dstVa true (fun rs s => s.writePiece t x ((rs.headD (0, 0)).1))
  | .copyCount x =>
    match x.aw with
    | some (seg, va, _, lo) =>
      access x.asid seg x.awMap lo 16 va true true (fun rs s =>
        let (s, woken) := s.countPiece t x ((rs.headD (0, 0)).1)
        s.wakeAll woken)
    | none => (s, true)
  | .lineRead x => go x.asid x.seg x.map x.lo x.len x.va x.data.isSome (fun rs s => s.performLine t x ((rs.headD (0, 0)).1))
  | .lineReads xs =>
    match xs with
    | x :: _ => go x.asid x.seg x.map x.lo x.len x.va false (fun rs s => s.performLines t xs ((rs.headD (0, 0)).1))
    | [] => (s, true)
  | _ => (s, true)

/-! ## Delivery -/

/-- A packet of the host's aperture names a device address and no address space (19 R402). -/
def Payload.ofHost : Payload → Bool
  | .request op => op.device
  | .posted op => op.device
  | .hostResponse _ _ _ _ _ => true
  | _ => false

/-- A packet at its tile: it waits behind its stream, or behind a packet that stalls at the pipeline, enters the fault buffer behind its
stream, or is served (14 R303, 16 R340). A host access is never held for paging or residency (19 R402). -/
def State.offer (s : State) (n : Nat) (p : Packet) : State :=
  let t := p.dst
  let tl := s.tile t
  let host := p.body.ofHost
  if !host && (!tl.resident p.asid || !s.unitsServe p) then s
  else if s.comesAfter p || s.netBehind t p then s
  else if !host && tl.streamHeld p then
    if 64 ≤ tl.faultBuf.length then s.fbStalls t
    else (s.dropPacket n).mapTile t (fun tl => { tl with faultBuf := tl.faultBuf ++ [{ p := p, fault := none }] })
  else if !host && tl.streamWalks p then s
  else
    match (s.dropPacket n).serve p with
    | (s', true) => s'
    | (s', false) => { s' with net := s.net }

/-- A packet of a wanted kind is delivered. -/
def deliver (n : Nat) (want : Payload → Bool) (s : State) : Out :=
  match s.arrived n with
  | none => .next s
  | some p => .next (if want p.body then s.offer n p else s)

/-! ## Host-window operations (19 R407) -/

/-- The port of an operation through a host window and its bus address, by the descriptor under which it was checked (12 R278). -/
def Op.busAddr (op : Op) : Nat × Dword := (field op.map.host 63 1, BitVec.ofNat 64 ((field op.map.host 0 63 + op.lo) % 2 ^ 63))

/-- An unacknowledged posted operation of a thread is acknowledged, with the address of a denial or none (07 R146, 16 R345). -/
def Thread.acked (th : Thread) (tag : Nat) (denied : Option Dword) : Thread :=
  { th with
    posted := th.posted.filter (fun p => p.tag != tag)
    denial := if th.denial.isSome then th.denial else denied }

/-- The threads a tile holds. -/
def Tile.allThreads (tl : Tile) : List Thread :=
  tl.threads.map (·.2.2) ++ tl.parkedArea.map (·.2) ++ tl.hutch.map (·.ctx.th) ++
  tl.cores.filterMap (fun e => e.2.loading.map (fun l => l.2.ctx.th))


/-- An acknowledgement reaches who sent the operation (07 R146): a second denial is only counted (16 R345). -/
def State.acked (s : State) (origin : Origin) (denied : Option Dword) : State :=
  match origin with
  | .thread t tid tag =>
    match (s.tile t).allThreads.find? (fun th => th.tid == tid && th.posted.any (fun p => p.tag == tag)) with
    | some th =>
      let s := if denied.isSome && th.denial.isSome then s.count t 0x274 else s
      (s.mapTile t (fun tl => tl.mapTid tid (fun th => th.acked tag denied))).refreshTile t
    | none =>
      match denied with
      | some va => s.denialLeft t tid (s.tile t).asid.toNat va
      | none => s
  | .bookend t b tag => s.bkAck t b tag
  | .host _ _ _ => s

/-- A response without a packet: to the thread or Bookend that waits for a host window. -/
def State.hostReply (s : State) (op : Op) (r : Reply) : State :=
  match op.origin with
  | .thread t tid tag => s.response t tid tag op.lane r
  | .bookend t b tag => s.bkResponse t b tag r
  | .host _ _ _ => s

/-- What a completion from host memory carries: free values (log 3). -/
def State.hostValue (s : State) (k : OpKind) : List Line × State :=
  let x := Config.hostData s.fresh
  let s1 := { s with fresh := s.fresh + 1 }
  match k with
  | .load f => ([(f.extend (x.toNat % 2 ^ (8 * f.size))).zeroExtend 512], s1)
  | .vload _ => ([(List.range 8).foldl (fun (v : Line) i => v ||| ((Config.hostData (s.fresh + i)).zeroExtend 512 <<< (64 * i))) 0],
      { s with fresh := s.fresh + 8 })
  | .amo o n _ true => ([(amoResult o n (x.toNat % 2 ^ (8 * n))).zeroExtend 512], s1)
  | .cas n _ _ => ([(sextTo64 (8 * n) (x.toNat % 2 ^ (8 * n))).zeroExtend 512], s1)
  | _ => ([], s)

/-- The bytes that an operation stores through a host window: address steps and bytes. -/
def OpKind.hostBytes (k : OpKind) : List (Nat × List Byte) :=
  match k with
  | .store n v => [(0, leBytes n v.toNat)]
  | .vstore m v => ((List.range 16).filter (fun i => m.getLsbD i)).map (fun i =>
      (4 * i, leBytes 4 (v.toNat / 2 ^ (32 * i))))
  | _ => []

/-- The n-th waiting host operation completes; a read waits for the posted writes before it at its port (19 R407). -/
def State.hostComplete (s : State) (n : Nat) : State :=
  match s.hostWait[n]? with
  | none => s
  | some op =>
    let bus := op.busAddr
    let before := (s.hostWait.take n).any (fun x =>
      x.busAddr.1 == bus.1 && Config.nameM x.src == Config.nameM op.src && (x.path == .posted))
    if before || !s.unitsRun op.src || !((s.tile op.src).resident op.asid) || !((s.module (Config.nameM op.src)).ports.get {} bus.1).up then s
    else
      let s := { s with hostWait := s.hostWait.eraseIdx n }
      if op.path = .posted then
        let out := (op.kind.hostBytes.map (fun e => (bus.1, bus.2 + BitVec.ofNat 64 e.1, e.2))).reverse
        ({ s with hostOut := out ++ s.hostOut }).acked op.origin none
      else
        let (vals, s) := s.hostValue op.kind
        s.hostReply op (.done vals)

/-! ## The events -/

/-- REMOTE_REQUEST: a request or a withdrawal is performed at its owner (06 R129, R134); beyond the net's packets the host
completes one of its operations. -/
def execRemoteRequest (n : Nat) (s : State) : Out :=
  if s.net.length ≤ n then
    match s.hostWait[n - s.net.length]? with
    | some op => .next (if op.path = .posted then s else s.hostComplete (n - s.net.length))
    | none => .next s
  else
    deliver n (fun b => match b with
      | .request _ => true
      | .withdraw _ _ => true
      | _ => false) s

/-- REMOTE_RESPONSE: a response reaches its thread, its Bookend, or the host (06 R129). -/
def execRemoteResponse (n : Nat) (s : State) : Out :=
  match s.arrived n with
  | none => .next s
  | some p =>
    match p.body with
    | .response tid tag lane r =>
      if (s.takes n).isSome then .next ((s.dropPacket n).response p.dst tid tag lane r)
      else .next s
    | .bkResponse b tag r =>
      if (s.tile p.dst).resident p.asid && s.unitsTake p.dst then .next ((s.dropPacket n).bkResponse p.dst b tag r) else .next s
    | .hostResponse md port tag n' r =>
      let s := s.dropPacket n
      let m := s.module md
      let x := m.ports.get {} port
      let (v, bad) := match r with
        | .done (v :: _) => (v, false)
        | .doneTrap (v :: _) _ _ => (v, true)
        | _ => ((0 : Line), true)
      .next (s.setModule md { m with ports := m.ports.set port { x with
        reads := (tag, leBytes n' v.toNat, bad) :: x.reads } })
    | _ => .next s


/-- POSTED_OP: a posted operation is performed and acknowledged (07 R146); beyond the net's packets the host takes one. -/
def execPostedOp (n : Nat) (s : State) : Out :=
  if s.net.length ≤ n then
    match s.hostWait[n - s.net.length]? with
    | some op => .next (if op.path = .posted then s.hostComplete (n - s.net.length) else s)
    | none => .next s
  else
    deliver n (fun b => match b with
      | .posted op => !op.kind.isQueue
      | _ => false) s

/-- POSTED_ACK: an acknowledgement comes back (07 R146, 16 R345). -/
def execPostedAck (n : Nat) (s : State) : Out :=
  match s.arrived n with
  | none => .next s
  | some p =>
    match p.body with
    | .ack origin denied =>
      if (s.tile p.dst).resident p.asid && s.unitsTake p.dst then .next ((s.dropPacket n).acked origin denied) else .next s
    | _ => .next s

/-- QUEUE_RECORD_APPEND: a record or token reaches a plain queue (11 R233, R234, R236). -/
def execQueueRecordAppend (n : Nat) (s : State) : Out :=
  deliver n (fun b => match b with
    | .posted op => (match op.kind with
      | .queue (.send _) => true
      | .queue .eos => true
      | _ => false)
    | _ => false) s

/-- DRESSER_RECORD_APPLY: a record reaches a Dresser (17 R359). -/
def execDresserRecordApply (n : Nat) (s : State) : Out :=
  deliver n (fun b => match b with
    | .posted op => (match op.kind with
      | .queue (.dsend _) => true
      | _ => false)
    | _ => false) s

/-- DRESSER_NOTE: a round-close note reaches a Dresser (17 R360). -/
def execDresserNote (n : Nat) (s : State) : Out :=
  deliver n (fun b => match b with
    | .posted op => (match op.kind with
      | .queue (.dseal _ _) => true
      | _ => false)
    | _ => false) s

/-- The first entry of a resend buffer that is due, with none before it that it follows. -/
def Tile.resendDue (tl : Tile) (now : Nat) : Option (Nat × Op) :=
  tl.resend.find? (fun x => decide (x.1 ≤ now) && tl.resend.find? (fun y => y == x || x.2.follows y.2) == some x)

/-- RESEND_RETRY: a record of the resend buffer is sent again after 256 cycles (11 R234); one of the tile's own queue is offered there,
and keeps its place while it is refused (11 R233) or the vault cache has no room for the place it would take (14 R303). -/
def execResendRetry (t : Nat) (s₀ : State) : Out :=
  if !s₀.unitsRun t then .next s₀
  else
    match (s₀.tile t).resendDue (s₀.residentCycles t) with
    | none => .next s₀
    | some x =>
      let s := if x.2.kind.isQueue then s₀.count t 0x257 else s₀
      let out := fun (s : State) => s.mapTile t (fun tl => { tl with resend := tl.resend.erase x })
      if x.2.owner ≠ t then .next ((out s).send clsPOST t x.2.owner x.2.asid 1 (.posted x.2))
      else
        match s.touchOp x.2 0 with
        | .stall _ => .next s₀
        | .ok _ s =>
          match s.effect x.2 0 with
          | { s := s, ans := .reply r, woken := woken } =>
            .next (((out s).wakeAll woken).acked x.2.origin (match r with
              | .trap _ v => some v
              | _ => none))
          | _ =>
            .next (s.mapTile t (fun tl => { tl with
              resend := tl.resend.map (fun y => if y == x then (s.residentCycles t + 256, x.2) else y) }))

/-- COPY_READ: the source owner reads a piece (12 R256). -/
def execCopyRead (n : Nat) (s : State) : Out :=
  deliver n (fun b => match b with
    | .copyRead _ => true
    | _ => false) s

/-- What a Bookend's transfer brings back, when its tile's partition runs. -/
def backToBookend (n : Nat) (s : State) (put : Bool) : Out :=
  match s.arrived n with
  | none => .next s
  | some p =>
    match p.body with
    | .bkDone x =>
      if x.bkPut == put && (s.tile p.dst).resident p.asid && s.unitsTake p.dst then .next ((s.dropPacket n).bkPieceDone x) else .next s
    | _ => .next s

/-- COPY_WRITE: the destination owner writes a piece (12 R256, R258), or a Bookend's data store takes it (R266). -/
def execCopyWrite (n : Nat) (s : State) : Out :=
  match s.net[n]? with
  | some { body := .bkDone _, .. } => backToBookend n s false
  | _ =>
    deliver n (fun b => match b with
      | .copyData _ => true
      | _ => false) s

/-- ARRIVAL_COUNT: a piece's bytes are counted into its arrival word (12 R252), or a Bookend's PUT is told (R266). -/
def execArrivalCount (n : Nat) (s : State) : Out :=
  match s.net[n]? with
  | some { body := .bkDone _, .. } => backToBookend n s true
  | _ =>
    deliver n (fun b => match b with
      | .copyCount _ => true
      | _ => false) s

/-! ## Operand lines (10 R210) -/

/-- A combinable request joins the open window of its line, or opens one. -/
def Tile.joinWindow (tl : Tile) (x : LineReq) (now : Nat) : Tile :=
  let same := fun (w : Window) => w.lo == x.lo && w.seg == x.seg && w.asid == x.asid
  if tl.windows.any same then
    { tl with windows := tl.windows.map (fun w => if same w then { w with joiners := w.joiners ++ [x] } else w) }
  else { tl with windows := tl.windows ++ [{ lo := x.lo, seg := x.seg, asid := x.asid, opened := now, joiners := [x] }] }

/-- OPERAND_LINE_REQUEST: served alone, or combined with others of its line (10 R210). -/
def execOperandLineRequest (n : Nat) (s : State) : Out :=
  match s.arrived n with
  | none => .next s
  | some p =>
    match p.body with
    | .lineRead x =>
      let tl := s.tile p.dst
      let behind := s.comesAfter p || tl.streamHeld p || tl.streamWalks p
      if x.mcast && x.data.isNone && tl.resident p.asid && s.unitsTake p.dst && !behind then
        .next ((s.dropPacket n).mapTile p.dst (fun tl => tl.joinWindow x s.time))
      else .next (s.offer n p)
    | .lineReads _ => .next (s.offer n p)
    | _ => .next s

/-- MCAST_WINDOW_EXPIRE: 256 cycles after the first request the line is read once and sent to every joiner; where its page must be walked
for, the one read waits for it (10 R210). -/
def execMcastWindowExpire (t n : Nat) (s : State) : Out :=
  match (s.tile t).windows[n]? with
  | none => .next s
  | some w =>
    if decide (s.time < w.opened + 256) || !s.unitsRun t then .next s
    else
      let at_ := (s.site t).getD (0, 0)
      let p := s.packet clsOPND ((w.joiners.map (·.tile)).headD t) t w.asid 1 (.lineReads w.joiners)
      let p := { p with md := Config.nameM t, col := at_.1, row := at_.2, hops := 1 }
      if s.netBehind t p then .next s
      else
        match (s.mapTile t (fun tl => { tl with windows := tl.windows.eraseIdx n })).serve p with
        | (s', true) => .next { s' with sent := s'.sent + 1 }
        | (s', false) => .next { s' with net := s'.net ++ [p], sent := s'.sent + 1 }

/-! ## Page walks (16 R336 to R340) -/

/-- A reissued head that walks for its page keeps its place in the buffer. -/
def State.holdHead (s : State) (p : Packet) : State :=
  let at_ := fun (x : FbEntry) => x.p.sameStream p
  s.mapTile p.dst (fun tl => { tl with
    faultBuf := tl.faultBuf.takeWhile (fun x => !at_ x) ++ [{ p := p, fault := none, walking := true }] ++
      tl.faultBuf.dropWhile (fun x => !at_ x) })

/-- A stream that is reissued: its entries are served in order while none has a fault of its own or walks for its page; one that the pipeline
does not take keeps its place, and is presented again (16 R340, R343). -/
def State.pump (s : State) (p : Packet) : Nat → State
  | 0 => s
  | fuel + 1 =>
    let t := p.dst
    let tl := s.tile t
    match tl.faultBuf.find? (fun e => e.p.sameStream p) with
    | none => s
    | some e =>
      if e.fault.isSome || e.walking || tl.streamWalks p then s
      else
        match (s.mapTile t (fun tl => { tl with faultBuf := tl.faultBuf.erase e })).serve e.p with
        | (s, true) => if (s.tile t).streamWalks p then s.holdHead e.p else s.pump p fuel
        | (s, false) => s.mapTile t (fun now => { now with faultBuf := tl.faultBuf })

def State.pumpAll (s : State) (p : Packet) : State := (s.pump p ((s.tile p.dst).faultBuf.length + 1)).fbRoom p.dst

/-- A malformed table's record goes to the Bureau too (16 R336). -/
def State.malformed (s : State) (t : Nat) (r : FaultRec) : State :=
  if r.reason ≠ 4 then s else s.toBureau t r

/-- A packet becomes the head of its stream with a fault of its own, and a record of kind 2 is due; a reissued head has its place in the
buffer, and another goes back to the head of its channel when the buffer is full (16 R340). -/
def State.packetFaults (s : State) (p : Packet) (reason seg lo : Nat) (va : Dword) : State :=
  let t := p.dst
  let buf := (s.tile t).faultBuf
  let rec' : FaultRec := { tid := p.body.tid, asid := p.asid, seg := seg, kind := 2, reason := reason, lo := lo, va := va, src := p.src
                           cls := p.cls }
  let e : FbEntry := { p := p, fault := some (reason, seg, lo, va) }
  let mine := fun (x : FbEntry) => x.walking && x.p.sameStream p
  if buf.any mine then
    ((s.mapTile t (fun tl => { tl with faultBuf := tl.faultBuf.map (fun x => if mine x then e else x) })).addFault t rec').malformed t rec'
  else if 64 ≤ buf.length then { s.fbStalls t with net := p :: s.net }
  else
    let at_ := fun (x : FbEntry) => x.p.sameStream p
    let s := s.mapTile t (fun tl => { tl with
      faultBuf := tl.faultBuf.takeWhile (fun x => !at_ x) ++ [e] ++ tl.faultBuf.dropWhile (fun x => !at_ x) })
    (s.addFault t rec').malformed t rec'

/-- A thread whose own access or fetch faults is parked, and a record of kind 1 is due (16 R339). A HALTED thread stays so (16 R332). -/
def State.threadFaults (s : State) (t c k reason seg lo : Nat) (va : Dword) : State :=
  let th := s.thread t c k
  let rec' : FaultRec := { tid := th.tid, asid := th.asid.toNat, seg := seg, kind := 1, reason := reason, lo := lo, va := va, src := t
                           cls := 0 }
  ((s.setThread t c k { th.setDoing .parkedFault with walking := false, faultAt := s.residentCycles t, faultVa := va }).addFault t
    rec').malformed t rec'

/-- Where a use of a walk's page faults: its own local offset and address when they lie in that page of that segment, else the walk's. -/
def Walk.spot (w : Walk) (seg lo : Nat) (va : Dword) : Nat × Dword :=
  if seg = w.seg ∧ lo / 2 ^ pageBits w.psize = w.lo / 2 ^ pageBits w.psize then (lo, va) else (w.lo, w.va)

/-- A use goes on when its walk found the page. -/
def State.useGoes (s : State) (t : Nat) (u : Use) : State :=
  match u with
  | .own c k => (s.setThread t c k { s.thread t c k with walking := false }).acceptOwn t c k
  | .fetch c k => s.setThread t c k { s.thread t c k with walking := false }
  | .packet p =>
    let mine := fun (x : FbEntry) => x.walking && x.p.sameStream p
    if (s.tile t).faultBuf.any mine then
      (s.mapTile t (fun tl => { tl with
        faultBuf := tl.faultBuf.map (fun x => if mine x then { x with walking := false } else x) })).pumpAll p
    else
      match s.serve p with
      | (s, true) => s.pumpAll p
      | (s, false) => { s with net := p :: s.net }

/-- The segment, local offset and address that a packet asks for first. -/
def Payload.spot : Payload → Option (Nat × Nat × Dword)
  | .request op => some (op.seg, op.lo, op.va)
  | .posted op => some (op.seg, op.lo, op.va)
  | .copyRead x => some (x.srcSeg, x.srcLo, x.srcVa)
  | .copyData x => some (x.dstSeg, x.dstLo, x.dstVa)
  | .copyCount x => x.aw.map (fun a => (a.1, a.2.2.2, a.2.1))
  | .lineRead x => some (x.seg, x.lo, x.va)
  | .lineReads (x :: _) => some (x.seg, x.lo, x.va)
  | _ => none

/-- A use meets its walk's fault. -/
def State.useFaults (s : State) (t reason : Nat) (w : Walk) (u : Use) : State :=
  match u with
  | .own c k =>
    let at_ := match (s.thread t c k).wait with
      | some x => w.spot x.next.seg x.next.lo x.next.va
      | none => (w.lo, w.va)
    s.threadFaults t c k reason w.seg at_.1 at_.2
  | .fetch c k =>
    let pc := (s.thread t c k).pc
    let at_ := w.spot w.seg (vaOff (codeVA pc)) (codeVA pc)
    let at_ := if at_.2 = codeVA pc then at_ else (vaOff (codeVA (pc + 2)), codeVA (pc + 2))
    s.threadFaults t c k reason w.seg at_.1 at_.2
  | .packet p =>
    let at_ := match p.body.spot with
      | some x => w.spot x.1 x.2.1 x.2.2
      | none => (w.lo, w.va)
    s.packetFaults p reason w.seg at_.1 at_.2

/-- The walker's reads of a walk's levels from the n-th on, as far as they go now: one that lies in the vault goes through the vault cache, and
the next level waits for its fill (14 R302, 16 R337). The leaf of a page that is present is written (16 R335). The answer is the levels read, and
whether the last is in hand. -/
def State.walkReads (s : State) (t : Nat) (w : Walk) (n : Nat) : Nat → State × Nat × Bool
  | 0 => (s, n, true)
  | fuel + 1 =>
    let nodes := s.walkNodes t w.seg w.psize w.lo
    if n != 0 && ((nodes[n - 1]?).map s.missing).getD false then (s, n, false)
    else
      match nodes[n]? with
      | none => (s, n, true)
      | some a =>
        let leaf := match s.walk t w.seg w.vault w.psize w.lo w.write with
          | .present b _ => a == b
          | .fault _ => false
        match s.hutTouch t a 8 leaf with
        | .stall s => (s, n, false)
        | .ok _ s => s.walkReads t w (n + 1) fuel

/-- PAGE_WALK_COMPLETE: a walk ends present, absent, protected or malformed (16 R336), once the tables that it reads have come. -/
def execPageWalkComplete (t n : Nat) (s : State) : Out :=
  match (s.tile t).walks[n]? with
  | none => .next s
  | some w =>
    if !s.unitsTake t then .next s
    else
      let (s, steps, ready) := s.walkReads t w w.steps 4
      if !ready then .next (s.mapTile t (fun tl => { tl with walks := tl.walks.set n { w with steps := steps } }))
      else
        let s := s.mapTile t (fun tl => { tl with walks := tl.walks.eraseIdx n })
        match s.walk t w.seg w.vault w.psize w.lo w.write with
        | .present a leaf =>
          .next (w.uses.foldl (fun s u => s.useGoes t u) (s.fill t w.asid w.seg w.psize w.lo a leaf w.write))
        | .fault r => .next (w.uses.foldl (fun s u => s.useFaults t r w u) s)

/-! ## WAKE at the owner (16 R343, R344) -/

/-- The refusal of an operation that holds a fault at `va` (16 R344). -/
def State.refuse (s : State) (p : Packet) (va : Dword) : State :=
  let t := p.dst
  match p.body with
  | .request op => s.reply op (.trap Cause.pageDenied va) none
  | .posted op => (s.reportDiscard op 3 0x17).reply op (.trap Cause.pageDenied va) none
  | .withdraw op untaken => s.serveWithdraw op untaken
  | .copyRead x => s.pieceRefused t x x.srcSeg x.srcLo x.srcVa
  | .copyData x => s.pieceRefused t x x.dstSeg x.dstLo x.dstVa
  | .copyCount x =>
    match x.aw with
    | some (seg, va, _, lo) =>
      s.addFault t { tid := x.origin.tid, asid := x.asid, seg := seg, kind := 6, reason := 0x17, lo := lo, va := va
                     src := x.origin.tile, cls := clsBULK }
    | none => s
  | .lineRead x =>
    if x.data.isNone then s.send clsOPND t x.tile x.asid 1 (.line x 0 Cause.pageDenied)
    else s.send clsOPND t x.tile x.asid 1 (.lineAck x Cause.pageDenied)
  | .lineReads xs => xs.foldl (fun s x => s.send clsOPND t x.tile x.asid 1 (.line x 0 Cause.pageDenied)) s
  | _ => s

/-- A fetch fails: the thread traps with EPC at the fetch address (01 R15); at the vector of its own privilege the thread is HALTED and the
Bureau receives MACHINE_CHECK with its TID (12 R273). -/
def State.fetchTrap (s : State) (t c k : Nat) (cause : BitVec 8) (va : Dword) : State :=
  let th := s.thread t c k
  if (th.priv = 1 ∧ th.pc = s.vectorOf t) ∨ (th.priv = 3 ∧ th.pc = s.firmwareOf t) then
    ((s.setThread t c k { th with st := .halted, haltedFrom := .ready, walking := false }).report (Config.nameM t) 0x13 th.tid.toNat).bb
      t 2 0x13 th.tid c k
  else (s.trapAt t c k cause va th.pc).stayHalted t c k th.st

/-- The element in turn of an element-wise form is refused: a load traps once the others have returned, and a store goes on without it (09
R195). -/
def WaitRec.denied (w : WaitRec) (va : Dword) : WaitRec :=
  { w with
    todo := w.todo.tail
    bad := if w.dests.isEmpty || w.bad.isSome then w.bad else some (Cause.pageDenied, va) }

/-- A refused element of a store is handled as a posted operation: discarded, with a record of kind 3, and its denial kept (09 R195, 16
R344, R345). -/
def State.elementDenied (s : State) (t c k : Nat) (w : WaitRec) (va : Dword) : State :=
  let th := s.thread t c k
  let s := if w.dests.isEmpty then s.reportDiscard w.next 3 0x17 else s
  let s := if w.dests.isEmpty && th.denial.isSome then s.count t 0x274 else s
  let w' := w.denied va
  let th := { th with
    wait := some w', walking := false
    denial := if w.dests.isEmpty && th.denial.isNone then some va else th.denial }
  (s.setThread t c k (th.setDoing (if w'.lanes.isEmpty then .ready else .remoteWait))).elementsDone t c k
    |>.acceptOwn t c k

/-- The state in which a thread presents its access: REMOTEWAIT while some of its elements are outstanding elsewhere (09 R194). -/
def Thread.presenting (th : Thread) : TState :=
  match th.wait with
  | some w => if w.elems && !w.lanes.isEmpty then .remoteWait else .ready
  | none => .ready

/-- A parked thread presents its access again, or is refused: it traps PAGE_DENIED. -/
def State.wakeThread (s : State) (t c k : Nat) (refuse : Bool) : State :=
  let th := s.thread t c k
  if !refuse then (s.setThread t c k { th.setDoing th.presenting with walking := false }).acceptOwn t c k
  else
    match th.wait with
    | some w =>
      if w.elems && !w.block then s.elementDenied t c k w th.faultVa
      else (s.trapAt t c k Cause.pageDenied th.faultVa th.pc).stayHalted t c k th.st
    | none => s.fetchTrap t c k Cause.pageDenied th.faultVa

/-- A stream's head is reissued or refused, and the entries behind it follow. -/
def State.wakeStream (s : State) (e : FbEntry) (refuse : Bool) : State :=
  let t := e.p.dst
  if refuse then
    ((s.mapTile t (fun tl => { tl with faultBuf := tl.faultBuf.erase e })).refuse e.p
      ((e.fault.map (·.2.2.2)).getD 0)).pumpAll e.p
  else
    (s.mapTile t (fun tl => { tl with
      faultBuf := tl.faultBuf.map (fun x => if x == e then { x with fault := none } else x) })).pumpAll e.p

/-- What a WAKE does to the operations of its TID that hold a fault of their own. -/
def State.wakeFaults (s : State) (t : Nat) (tid : BitVec 32) (refuse : Bool) : State :=
  let threads := (s.tile t).threads.filter (fun e => e.2.2.tid == tid && e.2.2.doing == .parkedFault)
  let heads := (s.tile t).faultBuf.filter (fun e => e.fault.isSome && e.p.body.tid == tid)
  let s := threads.foldl (fun s e => s.wakeThread t e.1 e.2.1 refuse) s
  heads.foldl (fun s e => s.wakeStream e refuse) s

end Sys2Proof.Machine
end

