-- ==== Sys2Proof/Machine/System.lean ====
section
/-! DEFINITION. System instructions, the system registers, broadcasts, invalidation, wake messages, the fault queue, and the traps
of decode and fetch (01 R36 to R44, 12 R272 to R278, 15 R328, 16 R341 to R347, 18 R377 to R379, R396, 02 R61, R62). -/
namespace Sys2Proof.Machine

/-! ## Decode and fetch -/

/-- The executing thread fetches some bits, and they are no instruction. -/
def State.fetchesIllegal (s : State) (w : Nat) : Bool :=
  s.fetch s.here s.me.asid.toNat s.me.scratch s.me.pc == .bits w &&
  (match decodeWord w with
    | .ok _ => false
    | .error _ => true)

/-- ILLEGAL_ENCODING: the bits that are no instruction trap ILLEGAL (02 R61, R62): 16 bits of a compact form, 32 of a full
one. -/
def execIllegalEncoding (w : BitVec 32) (s : State) : Out :=
  if !s.me.runs || !s.fetchesIllegal w.toNat then .next s
  else .next (s.trap Cause.illegal (if isFull w.toNat then w.zeroExtend 64 else (w.truncate 16).zeroExtend 64))

/-- The address at which fetching the executing thread's instruction fails (16 R331). -/
def State.failingFetch (s : State) : Dword :=
  match s.fetch s.here s.me.asid.toNat s.me.scratch s.me.pc with
  | .fault _ va => va
  | _ => codeVA s.me.pc

/-- FETCH_FAULT: the fetch checks fail and the thread traps with EPC at the fetch address (01 R15); at the vector of its own privilege the
thread is HALTED and the Bureau receives MACHINE_CHECK with its TID (12 R273). -/
def execFetchFault (cause : BitVec 8) (s : State) : Out :=
  let th := s.me
  if !th.runs || s.fetch s.here th.asid.toNat th.scratch th.pc != .fault cause s.failingFetch then .next s
  else .next (s.fetchTrap s.here s.cur.2.1 s.cur.2.2 cause s.failingFetch)

/-! ## System registers (01 R36, R37, 18 R396) -/

/-- The fields of TH_IDW that a thread may write (01 R17). -/
def idwMask : Dword := 0x4FFF000000000000

def countersRW : List Nat :=
  (List.range 13).map (0x200 + ·) ++ (List.range 7).map (0x240 + ·) ++ (List.range 9).map (0x250 + ·) ++
  (List.range 9).map (0x260 + ·) ++ (List.range 7).map (0x270 + ·) ++ (List.range 6).map (0x280 + ·)

/-- Core-cycles in which a core in service took no turn (15 R330), from the turns taken. -/
def State.idleCycles (s : State) (t : Nat) : Dword :=
  let tl := s.tile t
  let cores := ((List.range 4).filter (fun c => tl.coreSlots c != 0)).length
  BitVec.ofNat 64 (cores * s.residentCycles t) - BitVec.ofNat 64 tl.turns

/-- Cycles so far of what a counter of cycles counts and what has not ended: a full miss table, an idle core, a refused packet, a head that
waits for scratch, a channel stalled on a full fault buffer (14 R306, 15 R330, 16 R354). -/
def State.running (s : State) (t n : Nat) : Dword :=
  let tl := s.tile t
  let since := fun (x : Option Nat) => BitVec.ofNat 64 (match x with
    | some at_ => s.residentCycles t - at_
    | none => 0)
  if n = 0x203 then BitVec.ofNat 64 (tl.stallCycles s.time)
  else if n = 0x262 then s.idleCycles t
  else if n = 0x273 then since tl.fbFull
  else if n = 0x264 then since tl.refusing
  else if n = 0x268 then since tl.taskSince
  else 0

def State.counter (s : State) (t n : Nat) : Dword :=
  if n = 0x20D then BitVec.ofNat 64 (s.tile t).failedBank else (s.tile t).ct.get 0 n + s.running t n

def State.setCounter (s : State) (t n : Nat) (v : Dword) : State :=
  s.mapTile t (fun tl => { tl with ct := tl.ct.set n (v - s.running t n) })

/-- What a read or write of a register number does, before its value. -/
inductive Reach where
  | ok
  | privilege
  | illegal
  deriving DecidableEq, Repr

/-- Access of SYSR by number and privilege. -/
def readReach (n : Nat) (priv : BitVec 2) : Reach :=
  let user := priv = 0
  if n < 0x200 then
    if [0x000, 0x004, 0x005, 0x100, 0x101, 0x102, 0x106, 0x109].contains n then .ok
    else if [0x001, 0x002, 0x003, 0x103, 0x104, 0x105, 0x107, 0x108, 0x10A].contains n then (if user then .privilege else .ok)
    else .illegal
  else if n < 0x300 then (if countersRW.contains n || n = 0x20D then .ok else .illegal)
  else if n < 0x400 then .illegal
  else if n ≤ 0x408 then .ok
  else if n = 0x40A then (if user then .privilege else .ok)
  else if priv = 3 then .ok else .privilege

/-- Access of SYSW by number and privilege. -/
def writeReach (n : Nat) (priv : BitVec 2) : Reach :=
  let user := priv = 0
  if n < 0x200 then
    if n = 0 then .ok
    else if [0x001, 0x002, 0x003, 0x005, 0x102, 0x103, 0x105, 0x107, 0x108].contains n then (if user then .privilege else .ok)
    else if [0x100, 0x10A].contains n then (if priv = 3 then .ok else .privilege)
    else if [0x004, 0x101, 0x104, 0x106, 0x109].contains n then .privilege
    else .illegal
  else if n < 0x300 then
    (if countersRW.contains n then (if user then .privilege else .ok) else if n = 0x20D then .privilege else .illegal)
  else if n < 0x400 then .illegal
  else if n ≤ 0x405 then .ok
  else if n = 0x406 then (if user then .privilege else .ok)
  else if priv = 3 then .ok else .privilege

/-- RT_DRAINMAP of a tile's compute-plane router (18 R390). -/
def State.drainMapAt (s : State) (t : Nat) : Dword :=
  match s.site t with
  | some x => (s.module (Config.nameM t)).drainMap (routerNo x.1 x.2 0)
  | none => 0

/-- RT_FWD of a tile's routers: the name forwarded (18 R396). -/
def State.forwardAt (s : State) (t : Nat) : Dword :=
  match s.site t with
  | some x =>
    match (s.module (Config.nameM t)).forward.find? (fun e => e.1 == siteNo x.1 x.2) with
    | some e => BitVec.ofNat 64 (2 ^ 20 + e.2)
    | none => 0
  | none => 0

/-! ### The tables behind the machine numbers (18 R396); their layout is a DESIGN CHOICE (log 19) -/

/-- An exception entry as its 16 bits (18 R391). -/
def ExcEntry.word (e : ExcEntry) : Nat :=
  (if e.v then 2 ^ 15 else 0) + e.lx % 8 * 2 ^ 12 + e.ly % 8 * 2 ^ 9 + e.col % 8 * 2 ^ 6 + e.site % 16 * 2 ^ 2

def ExcEntry.ofWord (v : Dword) : ExcEntry :=
  { v := v.getLsbD 15, lx := field v 12 3, ly := field v 9 3, col := field v 6 3, site := field v 2 4 }

/-- Port d of plane p's router at a tile, as it numbers the detour entries: 5 r + d. -/
def State.detourKey (s : State) (t i : Nat) : Option Nat :=
  (s.site t).map (fun x => 5 * routerNo x.1 x.2 (i / 5) + i % 5)

/-- A table's value: exception entry i of the tile's field at 0x410 + i; the detour entry of port d of plane p at 0x420 + 5 p + d, bit 3 set
when there is one; the parent in the tree of tag g at 0x430 + g, bit 20 set when there is one. -/
def State.tableValue (s : State) (t n : Nat) : Dword :=
  let m := s.module (Config.nameM t)
  if 0x410 ≤ n ∧ n < 0x418 then
    BitVec.ofNat 64 (match (m.exc.get [] (Config.nameY t / 8 * 12 + Config.nameX t / 8))[n - 0x410]? with
      | some e => e.word
      | none => 0)
  else if 0x420 ≤ n ∧ n < 0x42A then
    BitVec.ofNat 64 (match s.detourKey t (n - 0x420) with
      | some k => if m.detours.has k then 8 + m.detours.get 0 k else 0
      | none => 0)
  else if 0x431 ≤ n ∧ n < 0x435 then
    BitVec.ofNat 64 (match s.treeParent (n - 0x430) t with
      | some p => 2 ^ 20 + p
      | none => 0)
  else 0

/-- RT_FWD of a tile's routers written: its site forwards the name, or no longer any. -/
def Module.setForward (m : Module) (k : Nat) (v : Dword) : Module :=
  let rest := m.forward.filter (fun e => e.1 != k)
  { m with forward := if v.getLsbD 20 then (k, field v 0 20) :: rest else rest }

/-- A router register or table written at machine privilege: RT_TREEDEPTH, RT_DRAINMAP and RT_FWD of the tile's routers; an exception entry in
every router of the module; a detour entry; or the tile's parent in a tree (log 19). Firmware's next repair forms them anew. -/
def State.tableWrite (s : State) (t n : Nat) (v : Dword) : State :=
  let md := Config.nameM t
  let m := s.module md
  if 0x410 ≤ n ∧ n < 0x418 then
    let f := Config.nameY t / 8 * 12 + Config.nameX t / 8
    let none' : ExcEntry := ExcEntry.ofWord 0
    let es := (List.range 8).map (fun i => if i = n - 0x410 then ExcEntry.ofWord v else (m.exc.get [] f).getD i none')
    s.setModule md { m with exc := m.exc.set f es }
  else if 0x420 ≤ n ∧ n < 0x42A then
    match s.detourKey t (n - 0x420) with
    | some k => s.setModule md { m with
        detours := if v.getLsbD 3 && decide (field v 0 3 < 5) then m.detours.set k (field v 0 3) else m.detours.filter (fun e => e.1 != k) }
    | none => s
  else if 0x431 ≤ n ∧ n < 0x435 then
    s.setModule md { m with
      treeSet := m.treeSet.set (treeKey (n - 0x430) t) (if v.getLsbD 20 then some (field v 0 20) else none) }
  else if n = 0x408 then s.setModule md { m with depthSet := m.depthSet.set t (v &&& 0xFFFFFF) }
  else
    match s.site t with
    | some x =>
      if n = 0x409 then s.setModule md { m with drainSet := m.drainSet.set (routerNo x.1 x.2 0) (v &&& 0x7FFF) }
      else if n = 0x40A then s.setModule md (m.setForward (siteNo x.1 x.2) v) else s
    | none => s

/-- The value of a register that may be read; a machine number without a table reads zero. -/
def State.sysValue (s : State) (th : Thread) (n : Nat) : Dword :=
  let tl := s.myTile
  match n with
  | 0x000 => BitVec.ofNat 64 th.idw
  | 0x001 => th.epc.zeroExtend 64
  | 0x002 => BitVec.ofNat 64 (th.ppriv.toNat * 256 + th.cause.toNat)
  | 0x003 => th.ava
  | 0x004 => th.pincnt.zeroExtend 64
  | 0x005 => th.linkcnt.zeroExtend 64
  | 0x100 => tl.name.zeroExtend 64
  | 0x101 => tl.slotsReg
  | 0x102 => tl.vweight.zeroExtend 64
  | 0x103 => tl.tasktab
  | 0x104 => tl.scratchReg
  | 0x105 => tl.hbarcnt.zeroExtend 64
  | 0x106 => BitVec.ofNat 64 ((if tl.segValid then 256 else 0) + tl.asid.toNat)
  | 0x107 => tl.ptroot
  | 0x108 => tl.faultq
  | 0x109 => BitVec.ofNat 64 (s.timebase (Config.nameM s.here))
  | 0x10A => tl.gangstop
  | 0x408 => s.treeDepths s.here
  | 0x409 => s.drainMapAt s.here
  | 0x40A => s.forwardAt s.here
  | _ => if n < 0x300 then s.counter s.here n else if 0x400 ≤ n && n < 0x408 then tl.classEntry (n - 0x400) else s.tableValue s.here n

/-- A TH_ register written: its RW fields (01 R17, R19, R36). -/
def Thread.sysWrite (th : Thread) (n : Nat) (v : Dword) : Thread :=
  match n with
  | 0x000 => { th with
      hz := v.getLsbD 62, few := BitVec.ofNat 4 (field v 56 4), frm := BitVec.ofNat 3 (field v 53 3)
      flags := BitVec.ofNat 5 (field v 48 5) }
  | 0x001 => { th with epc := v.truncate 48 }
  | 0x002 => { th with ppriv := BitVec.ofNat 2 (field v 8 2), cause := v.truncate 8 }
  | 0x003 => { th with ava := v }
  | 0x005 => { th with linkcnt := v.truncate 8 }
  | _ => th

/-- A TL_ register written; writing TL_PTROOT makes the walker read the root again (16 R334). -/
def State.tileWrite (s : State) (t n : Nat) (v : Dword) : State :=
  match n with
  | 0x100 => s.mapTile t (fun tl => { tl with name := (v &&& 0xFFFF8).truncate 20 })
  | 0x10A => s.mapTile t (fun tl => { tl with gangstop := v })
  | 0x102 => s.mapTile t (fun tl => { tl with vweight := v.truncate 16 })
  | 0x103 => s.mapTile t (fun tl => { tl with tasktab := v })
  | 0x105 => s.mapTile t (fun tl => { tl with hbarcnt := v.truncate 16 })
  | 0x107 => (s.mapTile t (fun tl => { tl with ptroot := v })).readRoots t
  | 0x108 => s.mapTile t (fun tl => { tl with faultq := v })
  | _ => s

/-- SYSR (01 R36, R37): a TH_ register waits as if marked. -/
def execSysr (m : Bool) (d : BitVec 5) (i : BitVec 11) (s : State) : Out :=
  let n := i.toNat
  let f : Form := { i := .sysr m d i, m := m, waits := decide (n < 0x100), dst := [gd d] }
  privileged f (fun th => readReach n th.priv == .privilege) s (fun th s =>
    if readReach n th.priv = .illegal then .next (s.trap Cause.illegal (Instr.word f.i))
    else .next (s.issued { th.writes [toG d (s.sysValue th n)] with pc := th.nextPc f.i }))

/-! ### Broadcasts (12 R278, 18 R378) -/

/-- The tiles of the partition of an address space. -/
def State.partition (s : State) (asid : Nat) : List Nat := (s.tiles.filter (fun e => e.2.resident asid)).map (·.1)

/-- The executing thread waits in MARKWAIT for the acknowledgements of some tiles to what it sends next, which has a number of its own. -/
def State.awaitAcks (s : State) (th : Thread) (tiles : List Nat) (sw : Bool := false) : State :=
  s.setMe { th with
    acks := tiles, sent := true, switching := sw, ackNo := th.tags, tags := th.tags + 1, st := .markWait, hold := .acks }

/-- A broadcast along the tree of tag 4 (18 R384): one packet from here for this module, and one to the root of each other that holds tiles of
the partition. -/
def State.sendTree (s : State) (asid len : Nat) (body : Payload) : State :=
  let mods := ((s.partition asid).map Config.nameM).eraseDups
  let mine := Config.nameM s.here
  let dsts := mods.map (fun m => if m = mine then s.here else s.treeRoot 4 (Config.tileName m 48 28))
  dsts.foldl (fun s n =>
    { s with net := s.net ++ [{ s.packet clsSYS s.here n asid len body with tag := 4 }], sent := s.sent + 1 }) s

/-- The executing thread broadcasts to the tiles of its partition (12 R278, 18 R378). -/
def State.broadcast (s : State) (th : Thread) (len : Nat) (sw : Bool) (body : Payload) : State :=
  (s.awaitAcks th (s.partition th.asid.toNat) sw).sendTree th.asid.toNat len body

/-- The executing thread sends a SYS packet to each of some tiles (12 R277). -/
def State.sendEach (s : State) (th : Thread) (tiles : List Nat) (body : Nat → Payload) : State :=
  tiles.foldl (fun s n => s.send clsSYS s.here n th.asid.toNat 1 (body n)) (s.awaitAcks th tiles)

/-- The rules for a class-table value (18 R378). -/
def classLawful (n : Nat) (v : Dword) : Bool :=
  let mode := field v 12 2
  let use := field v 10 2
  let plane := field v 8 2
  v &&& 0xFFFFFFFFFFF0C0F0 == 0 && plane != 3 && field v 0 4 != 0 && (mode == 2) == (use == 3) &&
  (if n = 6 then mode == 3 else mode != 3) && !((n == 3 || n == 7) && (mode == 2 || use == 3 || plane == 2))

/-- The fields whose change at entry 3 is a class switch. -/
def classRoute (v : Dword) : Dword := v &&& 0x3F0F

/-- A write to RT_CLASSn (18 R378): a broadcast; for a class switch, after the last acknowledgement, a second broadcast of the timebase value at
which it is taken, and the thread waits until its own tile takes it. -/
def State.classForm (s : State) (f : Form) (th : Thread) (n : Nat) (v : Dword) : State :=
  if !th.sent then
    if !classLawful n v then s.trap Cause.illegal (Instr.word f.i)
    else
      let switch := n = 3 && classRoute v != classRoute (s.myTile.classEntry 3)
      s.broadcast th 1 switch (.classWrite n v th.tid th.tags switch)
  else if th.switching then
    (s.awaitAcks th [Config.noTile]).sendTree th.asid.toNat 1 (.classTime v (s.time + 256) th.tid)
  else s.issued { th with sent := false, pc := th.nextPc f.i }

/-- SYSW (01 R36, R37, 06 R144, 18 R378). -/
def execSysw (m : Bool) (a : BitVec 5) (i : BitVec 11) (s : State) : Out :=
  let n := i.toNat
  let f : Form := { i := .sysw m a i, m := m, waits := decide (n < 0x100), src := [gd a] }
  privileged f (fun th => writeReach n th.priv == .privilege) s (fun th s =>
    let v := th.rg a
    if writeReach n th.priv = .illegal then .next (s.trap Cause.illegal (Instr.word f.i))
    else if n < 0x100 then .next (s.issued { th.sysWrite n v with pc := th.nextPc f.i })
    else if 0x400 ≤ n && n < 0x408 then .next (s.classForm f th (n - 0x400) v)
    else
      let s := s.issued { th with pc := th.nextPc f.i }
      .next (if n < 0x200 then s.tileWrite s.here n v else if n < 0x300 then s.setCounter s.here n v
        else s.tableWrite s.here n v))

/-! ## Traps and return (12 R274, R275) -/

/-- TRAP: EPC is the address of the next instruction. -/
def execTrap (m : Bool) (i : BitVec 11) (s : State) : Out :=
  let f : Form := { i := .trap m i, m := m }
  issue f s (fun th s =>
    .next ((s.trapAt s.cur.1 s.cur.2.1 s.cur.2.2 Cause.trap (i.zeroExtend 64) (th.nextPc f.i)).count s.here 0x260))

/-- SYSCALL: EPC is the address of the next instruction. -/
def execSyscall (m : Bool) (s : State) : Out :=
  let f : Form := { i := .syscall m, m := m }
  issue f s (fun th s => .next ((s.trapAt s.cur.1 s.cur.2.1 s.cur.2.2 Cause.syscall 0 (th.nextPc f.i)).count s.here 0x260))

/-- ERET: waits for nothing. -/
def execEret (m : Bool) (s : State) : Out :=
  let f : Form := { i := .eret m, m := m }
  privileged f (fun th => th.priv = 0 || th.ppriv = 2 || (th.ppriv = 3 && th.priv != 3)) s (fun th s => .next (s.issued th.leave))

/-- BRK (12 R274): a trap, or with BRKHALT set a stop of the core with EPC at the BRK (19 R410). -/
def execBrk (m : Bool) (s : State) : Out :=
  let f : Form := { i := .brk m, m := m }
  issue f s (fun th s =>
    let md := Config.nameM s.here
    if (s.module md).brkhalt then
      let (t, c) := (s.cur.1, s.cur.2.1)
      let s := (s.issued { th with epc := th.pc }).haltCore t c
      .next ((s.mapTile t (fun tl => tl.setCore c { tl.core c with brkStopped := true })).signal md 3)
    else .next ((s.trap Cause.break_ 0).count s.here 0x260))

/-! ## WAKE (12 R276) -/

/-- A supervisor form below its privilege traps with its bits (12 R272). -/
def supervisorForm (f : Form) (s : State) (act : Thread → State → Out) : Out :=
  privileged f (fun th => th.priv = 0) s act

/-- Parked-area place of a woken context, above the Hutch's own places. -/
def wokenPlace (k : Nat) : Nat := 8192 + k

/-- How a thread outside a slot goes on after a WAKE that names it: an access that faulted is presented again or refused. -/
def Thread.unparked (th : Thread) (refuse : Bool) : Thread :=
  if th.haltedFrom != .parkedFault then th
  else if !refuse then { th with haltedFrom := .ready }
  else
    match th.wait with
    | some w =>
      if w.elems && !w.block then
        { th with
          wait := some (w.denied th.faultVa), haltedFrom := .ready
          denial := if w.dests.isEmpty && th.denial.isNone then some th.faultVa else th.denial }
      else { th with wait := some { w with answer := some (.trap Cause.pageDenied th.faultVa) } }
    | none => { th with haltedFrom := .markWait, hold := .trap Cause.pageDenied th.faultVa th.pc }

/-- What the refusal of a store's element leaves at the tile for such a thread (09 R195, 16 R345). -/
def State.unparkNotes (s : State) (t : Nat) (th : Thread) (refuse : Bool) : State :=
  match th.wait with
  | some w =>
    if th.haltedFrom == .parkedFault && refuse && w.elems && !w.block && w.dests.isEmpty then
      let s := s.reportDiscard w.next 3 0x17
      if th.denial.isSome then s.count t 0x274 else s
    else s
  | none => s

/-- A PARKED thread joins the woken class; one on its way to a slot stays there. -/
def State.unparkAt (s : State) (t : Nat) (tid : BitVec 32) (refuse : Bool) : State :=
  match (s.tile t).allThreads.find? (fun th => th.tid == tid && th.st == .parked) with
  | none => s
  | some th =>
    let go := fun (h : Held) =>
      if h.ctx.th.tid == tid && h.ctx.th.st == .parked then { h with ctx := { h.ctx with th := h.ctx.th.unparked refuse } } else h
    (s.unparkNotes t th refuse).mapTile t (fun tl =>
      let tl := tl.mapCores (fun _ co => { co with loading := co.loading.map (fun l => (l.1, go l.2)) })
      { tl with
        parkedArea := tl.parkedArea.filter (fun x => x.2.tid != tid)
        hutch := tl.hutch.map go ++ (tl.parkedArea.filter (fun x => x.2.tid == tid)).map (fun e =>
          ({ how := .woken, ctx := { th := e.2.unparked refuse }, place := wokenPlace e.1 } : Held)) })

/-- A wake message at its tile: SLEEPING ends, a PARKED thread joins the woken class, and faulting operations are reissued or
refused (12 R276, 15 R328, 16 R343, R344). -/
def State.wake (s : State) (t : Nat) (tid : BitVec 32) (refuse : Bool) : State :=
  let s := s.mapTile t (fun tl => tl.mapThreads (fun _ _ th =>
    if th.tid == tid && th.doing == .sleeping && !th.waitt then th.setDoing .ready else th))
  (s.unparkAt t tid refuse).wakeFaults t tid refuse

/-- WAKE: a posted message in class SYS; one that names no thread ever is discarded (01 R43). One to the current tile acts there, and is
acknowledged, at once (13 R285). Whether a tile that cannot be reached makes even the one that names no thread trap the spec leaves open: the
model tests that first (DESIGN CHOICE, log 70). -/
def execWake (m : Bool) (a b : BitVec 5) (s : State) : Out :=
  let f : Form := { i := .wake m a b, m := m, src := [gd a, gd b], mem := true }
  supervisorForm f s (fun th s =>
    let t := s.here
    let dest := if a = 0 then t else field (th.rg a) 0 20
    let tid := (th.rg b).truncate 32
    let past := { th with pc := th.nextPc f.i }
    if dest ≠ t && !s.reachable dest then .next (s.trap Cause.isolated (BitVec.ofNat 64 dest))
    else if tid = 0xFFFFFFFF then .next (s.issued past)
    else if dest = t then .next ((s.issued past).wake t tid ((th.rg b).getLsbD 32))
    else if 255 ≤ th.posted.length then .next (s.hold .posted)
    else
      let s := s.issued { past with
        posted := past.posted ++ [{ tag := th.tags, owner := dest, acq := false }], tags := th.tags + 1 }
      .next (s.send clsSYS t dest th.asid.toNat 1 (.wake tid ((th.rg b).getLsbD 32) (some (.thread t th.tid th.tags)))))

/-- WAKE_MESSAGE (15 R328): acknowledged to its sender when an instruction sent it (07 R146). -/
def execWakeMessage (n : Nat) (s : State) : Out :=
  match s.takes n with
  | none => .next s
  | some p =>
    match p.body with
    | .wake tid refuse origin =>
      if s.comesAfter p then .next s else
      let s := (s.dropPacket n).wake p.dst tid refuse
      .next (match origin with
        | some o => s.send clsPOST p.dst o.tile p.asid 1 (.ack o none)
        | none => s)
    | _ => .next s

/-! ## INVAL (12 R277, 16 R346, R347) -/

/-- The owners that a range reaches and each one's local range (16 R346). -/
def invalTargets (d : Segment) (t o len : Nat) : List (Nat × Nat × Nat) :=
  if len = 0 then []
  else if d.kind = 1 then
    let size := 2 ^ d.g
    let count := 2 ^ (d.lw + d.lh + d.lm)
    let b0 := o / size
    let b1 := (o + len - 1) / size
    (List.range (min count (b1 - b0 + 1))).map (fun i =>
      let b := b0 + i
      let last := b1 - (b1 - b) % count
      let lo := d.localOffset none (max o (b * size))
      let hi := d.localOffset none (min (o + len - 1) (last * size + size - 1)) + 1
      ((d.owner t (b * size)).getD t, lo, hi))
  else if d.kind = 2 || d.kind = 3 then [(t, o, o + len)]
  else []

/-- INVAL with its command (12 R277). -/
def invalWith (f : Form) (th : Thread) (s : State) (va : Dword) (ws : List Dword) : Out :=
  let w := fun i => ws.getD i 0
  if th.sent then .next (s.issued { th with sent := false, block := none, pc := th.nextPc f.i })
  else if w 0 &&& 0xFFFFFFFFFFFFE000 ≠ 0 || w 3 ≠ 0 then .next (s.trap Cause.segBounds va)
  else
    let seg := field (w 0) 8 3
    let hint := field (w 0) 11 2
    let targets := invalTargets (s.myTile.seg seg) s.here (w 1).toNat (w 2).toNat
    match targets.find? (fun x => x.1 != s.here && !s.reachable x.1) with
    | some x => .next (s.trap Cause.isolated (BitVec.ofNat 64 x.1))
    | none =>
      let at_ := fun (n : Nat) => ((targets.find? (fun x => x.1 == n)).map (·.2)).getD (0, 0)
      if targets.isEmpty then .next (s.issued { th with block := none, pc := th.nextPc f.i })
      else .next (s.sendEach th (targets.map (·.1)) (fun n =>
        .inval (field (w 0) 0 8) seg hint (at_ n).1 (at_ n).2 th.tid th.tags))

/-- INVAL: the command is read at the current tile, which must own it. -/
def execInval (m : Bool) (b : BitVec 5) (s : State) : Out :=
  let f : Form := { i := .inval m b, m := m, src := [gd b], mem := true }
  supervisorForm f s (fun th s =>
    let va := th.rg b
    match th.block with
    | some ws => invalWith f th s va ws
    | none =>
      let d := s.myTile.seg (vaSeg va)
      match d.check th.scratch (vaOff va) 32 32 .rd with
      | some c => .next (s.trap c va)
      | none =>
        if !s.ownsRange th va 32 then .next (s.trap Cause.segBounds va) else .next (s.readBlock th va 4))

/-- Page sizes that a level hint names. -/
def hintTakes (hint psize : Nat) : Bool := hint == 3 || hint == psize

/-- An entry of the address space and segment whose page overlaps the local range. -/
def TlbEntry.dropped (e : TlbEntry) (asid seg hint lo hi : Nat) : Bool :=
  let b := pageBits e.psize
  e.asid == asid && e.seg == seg && hintTakes hint e.psize && decide (e.page * 2 ^ b < hi) && decide (lo < (e.page + 1) * 2 ^ b)

/-- Whether no access is in progress in some frames: no vault fill is awaited and no buffered store waits there (16 R347). -/
def State.drainedFrames (s : State) (t : Nat) (frames : List (Nat × Nat)) : Bool :=
  let tl := s.tile t
  let inside := fun (a : Nat) => frames.any (fun f => decide (f.1 ≤ a) && decide (a < f.1 + f.2))
  tl.vc.misses.all (fun m => m.prefetch || !inside (vaultAt t (64 * m.line))) &&
  tl.cores.all (fun c => c.2.sb.all (fun e => !inside e.addr))

/-- INVAL_COMMAND: an owner drops its entries, then drains what used them, then acknowledges (16 R347). A walk that is under way
reads its tables when it ends, after the drop. -/
def execInvalCommand (n : Nat) (s : State) : Out :=
  match s.takes n with
  | none => .next s
  | some p =>
    let t := p.dst
    let ack := fun (s : State) (tid : BitVec 32) (no : Nat) => (s.dropPacket n).send clsSYS t p.src p.asid 1 (.sysAck tid no)
    match p.body with
    | .inval asid seg hint lo hi tid no =>
      let gone := (s.tile t).tlb.filter (fun e => e.dropped asid seg hint lo hi)
      let frames := gone.map (fun e => (devAddr t (if e.vault then 1 else 0) e.frame, 2 ^ pageBits e.psize))
      let again := ((s.tile t).walks.filter (fun w =>
        let b := 2 ^ pageBits w.psize
        w.asid == asid && w.seg == seg && hintTakes hint w.psize && decide (w.lo / b * b < hi) &&
          decide (lo < (w.lo / b + 1) * b))).length
      let s := (s.mapTile t (fun tl => { tl with tlb := tl.tlb.filter (fun e => !e.dropped asid seg hint lo hi) })).count t 0x271
        again
      if s.drainedFrames t frames then .next (ack s tid no)
      else .next { s with net := s.net.set n { p with body := .invalDrain frames tid no } }
    | .invalDrain frames tid no => .next (if s.drainedFrames t frames then ack s tid no else s)
    | _ => .next s

/-! ## SEGLD (12 R278) -/

/-- SEGLD: the table's ASID must be the resident one; then the table is broadcast. -/
def execSegld (m : Bool) (b : BitVec 5) (s : State) : Out :=
  let f : Form := { i := .segld m b, m := m, src := [gd b], mem := true }
  supervisorForm f s (fun th s =>
    let va := th.rg b
    match th.block with
    | some ws =>
      if th.sent then .next (s.issued { th with sent := false, block := none, pc := th.nextPc f.i })
      else if field (ws.getD 1 0) 32 8 ≠ s.myTile.asid.toNat then .next (s.trap Cause.segInvalid va)
      else .next (s.broadcast th 6 false (.segTable ws th.tid th.tags))
    | none =>
      match (s.myTile.seg (vaSeg va)).check th.scratch (vaOff va) 288 32 .rd with
      | some c => .next (s.trap c va)
      | none => .next (s.readBlock th va 36))

/-- SEGLD_TABLE: a tile takes the table and holds a descriptor that fails as kind 0 (01 R31). -/
def execSegldTable (n : Nat) (s : State) : Out :=
  match s.takes n with
  | none => .next s
  | some p =>
    match p.body with
    | .segTable ws tid no =>
      let inPart := fun x => s.inPartition p.asid x
      let s := (s.dropPacket n).mapTile p.dst (fun tl => tl.loadTable ws inPart)
      .next (s.send clsSYS p.dst p.src p.asid 1 (.sysAck tid no))
    | _ => .next s

/-- SYS_BROADCAST_ACK: an acknowledgement reaches the issuing tile (12 R277, R278, 18 R378); that of an earlier sending counts for nothing. -/
def execSysBroadcastAck (n : Nat) (s : State) : Out :=
  match s.takes n with
  | none => .next s
  | some p =>
    match p.body with
    | .sysAck tid no =>
      let s := (s.dropPacket n).mapTile p.dst (fun tl => tl.mapTid tid (fun th =>
        if th.ackNo = no then { th with acks := th.acks.erase p.src } else th))
      .next (s.refreshTile p.dst)
    | _ => .next s

/-! ## Class-table writes at the routers (18 R378) -/

/-- POST packets of a partition that the routers of a tile hold. -/
def State.holdsPost (s : State) (t asid : Nat) : Bool :=
  s.net.any (fun p => p.cls == clsPOST && p.asid == asid && !p.uninjected && p.md == Config.nameM t && s.site t == some (p.col, p.row))

/-- RT_CLASS_UPDATE: a router takes the entry and acknowledges; for a class switch it stops injecting POST packets, and
acknowledges when it holds none. The value at which a class switch is taken comes to it in the same way. -/
def execRtClassUpdate (n : Nat) (s : State) : Out :=
  match s.takes n with
  | none => .next s
  | some p =>
    let t := p.dst
    match p.body with
    | .classWrite k v tid no switch =>
      let ack := fun (s : State) => (s.dropPacket n).send clsSYS t p.src p.asid 1 (.sysAck tid no)
      if !switch then .next (ack (s.mapTile t (fun tl => { tl with classes := tl.classes.set k v })))
      else
        let s := s.mapTile t (fun tl => { tl with
          postStopped := if tl.postStopped.contains tid then tl.postStopped else tl.postStopped ++ [tid] })
        .next (if s.holdsPost t p.asid then s else ack s)
    | .classTime v at_ tid =>
      .next ((s.dropPacket n).mapTile t (fun tl => { tl with classSwitch := tl.classSwitch ++ [(v, at_, tid)] }))
    | _ => .next s

/-- CLASS_SWITCH_TAKE: at the agreed value a router takes the new entry and resumes injection; the writing thread goes on. -/
def execClassSwitchTake (t : Nat) (s : State) : Out :=
  match (s.tile t).classSwitch.find? (fun e => decide (e.2.1 ≤ s.time) && s.powered (Config.nameM t)) with
  | none => .next s
  | some e =>
    let s := s.mapTile t (fun tl =>
      { tl with
        classes := tl.classes.set 3 e.1, classSwitch := tl.classSwitch.erase e, postStopped := tl.postStopped.erase e.2.2
        }.mapTid e.2.2 (fun th => { th with acks := th.acks.erase Config.noTile }))
    .next (s.refreshTile t)

/-! ## The fault queue (16 R341, R342) -/

def FaultRec.words (r : FaultRec) (serial : Nat) : List Dword :=
  [BitVec.ofNat 64 (r.reason * 2 ^ 56 + r.kind * 2 ^ 48 + r.seg * 2 ^ 40 + r.asid * 2 ^ 32 + r.tid.toNat),
   BitVec.ofNat 64 r.lo, r.va, BitVec.ofNat 64 (serial % 2 ^ 32 * 2 ^ 32 + r.cls * 2 ^ 20 + r.src)]

/-- The header of a usable fault queue: its size; none where it counts as full. -/
def State.faultQueue (s : State) (t : Nat) : Option Nat :=
  let base := (s.tile t).faultq.toNat
  let w := fun i => s.dword (sramAt t (base + 8 * i))
  let n := field (w 0) 0 11
  let size := [16, 32, 64, 128, 256, 512, 1024].contains n
  let zero := (w 0 &&& 0xFFFFFFFEFFFFF800) == 0 && [4, 5, 6, 7].all (fun i => w i == 0)
  if size && zero && decide (Config.supervisorBase ≤ base) && decide (base + 64 + 32 * n ≤ Config.sramBytes) then some n else none

/-- A word of the fault queue written by the hardware: its poison goes, as with a store (14 R299). -/
def State.putDword (s : State) (a : Nat) (v : Dword) : State := s.putWords a [v]

/-- FAULT_RECORD_WRITE: the oldest record that waits is written if the queue has room, and the doorbell is filled as by STFF (16 R341); with
FWD set the record goes to the Bureau for the host too. -/
def execFaultRecordWrite (t : Nat) (s : State) : Out :=
  let s := s.decodeRange (sramAt t (s.tile t).faultq.toNat) 64
  match (s.tile t).faultRecs, s.faultQueue t with
  | r :: rest, some n =>
    let base := (s.tile t).faultq.toNat
    let at_ := fun (i : Nat) => sramAt t (base + 8 * i)
    let put := (s.dword (at_ 1)).toNat
    if n ≤ (s.dword (at_ 1) - s.dword (at_ 2)).toNat || !s.unitsRun t then .next s
    else
      let slot := sramAt t (base + 64 + 32 * (put % n))
      let s := ((r.words put).zip [0, 8, 16, 24]).foldl (fun s e => s.putDword (slot + e.2) e.1) s
      let next := BitVec.ofNat 64 (put + 1)
      let s := ((s.putDword (at_ 1) next).putDword (at_ 3) next).setEmpty (at_ 3) false
      let s := (s.mapTile t (fun tl => { tl with faultRecs := rest })).count t 0x272
      let s := s.bb t 4 r.kind r.tid
      let (s, woken) := s.serveFe t (at_ 3) [] (s.tile t).waiters.length
      let s := s.wakeAll woken
      .next (if (s.dword (at_ 0)).getLsbD 32 then (s.toBureau t r).signal (Config.nameM t) 1 else s)
  | _, _ => .next s

end Sys2Proof.Machine
end

