-- ==== Sys2Proof/Machine/Router.lean ====
section
/-! DEFINITION. What routers do with the packets they hold: hops, fall-out, age, the periodic drain, and messages for address spaces
that are not resident (06 R140, 16 R349, R351, 18 R373 to R389, R394, R395). -/
namespace Sys2Proof.Machine

/-! ## Fall-out buffers (16 R349, 19 R409) -/

/-- The routers of a tile eject a packet: its partition is stopped there, or the module is halted. -/
def State.ejects (s : State) (t : Nat) (p : Packet) : Bool :=
  !p.body.ofHost && !(p.ownLine && s.servesOrphan t) && (((s.module (Config.nameM t)).halted && !(s.module (Config.nameM t)).stepping) || ((s.tile t).gang != .running && (s.tile t).gang != .resuming && (s.tile t).resident p.asid))

def flitsOf (ps : List Packet) : Nat := (ps.map (·.len)).sum

/-- A fall-out buffer of 3,640 flits has room for a packet. -/
def Tile.fallsIn (tl : Tile) (p : Packet) : Bool := decide (flitsOf tl.fallout + p.len ≤ 3640)

/-- A packet is ejected into the fall-out buffer of a tile, whose counter counts its flits. -/
def State.fallOut (s : State) (t : Nat) (p : Packet) : State :=
  (s.mapTile t (fun tl => { tl with fallout := tl.fallout ++ [p] })).count t 0x275 p.len

/-- The tile whose routers hold a packet. -/
def State.holder (s : State) (p : Packet) : Option Nat := s.nameAt p.md p.col p.row

/-- The packet at a position of the net falls out where its router ejects it and the buffer has room. -/
def State.fallAt (s : State) (n : Nat) : State :=
  match s.net[n]? with
  | some p =>
    match s.holder p with
    | some t => if s.ejects t p && (s.tile t).fallsIn p then (s.dropPacket n).fallOut t p else s
    | none => s
  | none => s

/-! ## A hop (18 R373, R380, R381, R383, R386, R395) -/

/-- Set bits of a channel set from bit 0. -/
def channels (e : Dword) : List Nat := (List.range 4).filter (fun i => e.getLsbD i)

/-- The entry of a class in the class table of the router that holds a packet; a router of a tile in no partition uses the placement
values (18 R378). -/
def State.classAt (s : State) (p : Packet) (c : Nat) : Dword :=
  match s.holder p with
  | some t => (s.tile t).classOf c
  | none => classReset c

/-- Channels that a router's own class table lets a packet use (18 R378). -/
def State.channelSet (s : State) (p : Packet) : List Nat := channels (s.classAt p p.cls)

/-- The channel of a packet's stream (18 R380). -/
def streamChannel (chans : List Nat) (p : Packet) : Nat :=
  let h := (p.src / 8) ^^^ (p.dst / 8)
  (chans[h / 2 % chans.length]?).getD 0

/-- Free slots of a virtual channel of 16 flits at the end of a link. -/
def State.freeSlots (s : State) (md r port chan cls vc : Nat) : Nat :=
  16 - flitsOf (s.net.filter (fun q => q.md == md && routerNo q.col q.row q.plane == r && q.port == port && !q.drainVc &&
    q.chan == chan && q.cls == cls && q.vc == vc))

/-- One way on: direction, virtual channel, channel. -/
structure Way where
  dir : Nat
  vc : Nat
  chan : Nat
  deriving DecidableEq, Repr

/-- Free slots that a way finds at its end; none where the link does not work. -/
def State.wayRoom (s : State) (p : Packet) (w : Way) : Option Nat :=
  (s.linkTo p.md (routerNo p.col p.row p.plane) w.dir).map (fun x => s.freeSlots x.1 x.2 (farPort w.dir) w.chan p.cls w.vc)

/-- Directions that reduce the distance to a packet's goal. -/
def productive (c y tx ty : Nat) : List Nat := [stepY y ty, stepX c tx].filterMap id

/-- Of several ways, the one with the most free slots that hold the whole packet; ties go to the lower direction, then channel. -/
def State.bestWay (s : State) (p : Packet) (ws : List Way) : Option Way :=
  ws.foldl (fun (best : Option Way) w =>
    let room := (s.wayRoom p w).getD 0
    if room < p.len || (s.wayRoom p w).isNone then best
    else
      match best with
      | none => some w
      | some b =>
        let old := (s.wayRoom p b).getD 0
        if old < room || (old == room && decide (w.dir < b.dir)) then some w else best) none

/-- The direction in which a router sends a packet that its route sends in direction d, and whether a detour entry turns it (18 R383);
none where the link is dead and no entry leads past it. -/
def State.detoured (s : State) (md r d : Nat) : Option (Nat × Bool) :=
  if (s.linkTo md r d).isSome then some (d, false)
  else if (s.module md).detours.has (5 * r + d) then some ((s.module md).detours.get 0 (5 * r + d), true)
  else none

/-- The mode by which a packet moves in the module that holds it: its own in its source's and its destination's module, and XY across those
between (18 R395). -/
def Packet.modeHere (p : Packet) : Nat := if p.md = Config.nameM p.src ∨ p.md = Config.nameM p.dst then p.mode else 0

/-- The way a packet takes at its router, and whether a detour entry turned it. A router holds it where no way has room. -/
def State.way (s : State) (p : Packet) : Option (Way × Bool) :=
  let mode := p.modeHere
  let r := routerNo p.col p.row p.plane
  let chans := s.channelSet p
  let fixed := fun (d vc : Nat) =>
    match s.detoured p.md r d with
    | none => none
    | some (d', turned) =>
      let w : Way := { dir := d', vc := vc, chan := streamChannel chans p }
      if p.len ≤ (s.wayRoom p w).getD 0 then some (w, turned) else none
  match s.goal p with
  | none => none
  | some (tx, ty, out) =>
    let xy := xyHop (mode == 1) p.col p.row tx ty out
    if mode = 2 && p.vc = 1 then
      let ds := match out, productive p.col p.row tx ty with
        | some d, [] => [d]
        | _, ds => ds
      let ds := if p.crossed || ds.isEmpty then ds else ds ++ [dirV]
      match s.bestWay p (ds.flatMap (fun d => chans.map (fun c => ({ dir := d, vc := 1, chan := c } : Way)))) with
      | some w => some (w, false)
      | none =>
        match xy with
        | some d => fixed d 0
        | none => none
    else
      match xy with
      | some d => fixed d p.vc
      | none => none

/-- A packet that has come to the former site of its name is forwarded from there (06 R140). -/
def Packet.comes (p : Packet) : Packet :=
  if p.aim == some (p.col, p.row) then { p with aim := none, steered := true } else { p with steered := false }

/-- The packet stands at the far end of a way. A wrap link moves it from VC0 to VC1 (18 R395). -/
def State.moved (s : State) (p : Packet) (w : Way) : Option Packet :=
  match s.linkTo p.md (routerNo p.col p.row p.plane) w.dir with
  | none => none
  | some (md, r) =>
    let q := { p with
      md := md, col := routerCol r, row := routerRow r, plane := routerPlane r, port := farPort w.dir
      vc := if md ≠ p.md && (torusNext p.md w.dir).2 then 1 else w.vc
      chan := w.chan, drainVc := false, hops := p.hops + 1
      crossed := p.crossed || w.dir == dirV
      heading := if p.mcast || md ≠ p.md then some w.dir else p.heading }
    let ahead := s.net.filter (fun x => q.sharesVc x)
    some { q.comes with order := (ahead.map (fun x => x.order + 1)).foldl max 0 }

/-- Counts an event at the tile whose routers hold a packet. -/
def State.countAt (s : State) (p : Packet) (n : Nat) (by_ : Nat := 1) : State :=
  match s.holder p with
  | some t => s.count t n by_
  | none => s

/-- A packet that goes back into the fabric from a fall-out buffer has its place in the ejection order, from 1 on (16 R352). -/
def Packet.refalls (p : Packet) : Bool := p.port == 5 && p.order != 0

/-- A tile's re-injected packets leave in ejection order, before what it injects anew (16 R352). A packet of class POST waits at its source
while a class switch has stopped injection there (18 R378), and a packet of a stream is injected after those before it. -/
def State.mayInject (s : State) (p : Packet) : Bool :=
  (!(p.refalls || p.uninjected) || !s.net.any (fun q => q.refalls && q.md == p.md && q.col == p.col && q.row == p.row && !s.atDest q &&
    (p.uninjected || decide (q.order < p.order)))) &&
  (!p.uninjected || (!(p.cls == clsPOST && !(s.tile p.src).postStopped.isEmpty) &&
    !s.net.any (fun q => q.sameStream p && q.uninjected && decide (q.born < p.born))))

/-! ## Arbitration (18 R386, R387) -/

/-- The input of a router that holds a packet: by port, drain channel, channel and virtual channel. -/
def Packet.input (p : Packet) : Nat := 16 * p.port + (if p.drainVc then 8 else 0) + 2 * p.chan + p.vc

/-- The joiners of a multicast line that lie on each branch at its router (18 R385): north, east, south and west. It moves along the
owner's row both ways, and at each joiner's column north or south. -/
def State.branches (s : State) (p : Packet) (xs : List LineReq) : List (Nat × List LineReq) :=
  let side := fun (f : Nat × Nat → Bool) => xs.filter (fun x => ((s.site x.tile).map f).getD false)
  let along := fun (d : Nat) => p.heading.isNone || p.heading == some d
  let all := [(dirN, side (fun a => a.1 == p.col && decide (a.2 < p.row))),
    (dirE, if along dirE then side (fun a => decide (p.col < a.1)) else []),
    (dirS, side (fun a => a.1 == p.col && decide (p.row < a.2))),
    (dirW, if along dirW then side (fun a => decide (a.1 < p.col)) else [])]
  all.filter (fun e => !e.2.isEmpty)

/-- The branches of a multicast line whose links work. Joiners beyond a dead one are sent their own packets (log 27). -/
def State.liveBranches (s : State) (p : Packet) (xs : List LineReq) : List (Nat × List LineReq) :=
  (s.branches p xs).filter (fun e => (s.linkTo p.md (routerNo p.col p.row p.plane) e.1).isSome)

def State.branchWay (s : State) (p : Packet) (d : Nat) : Way := { dir := d, vc := p.vc, chan := streamChannel (s.channelSet p) p }

/-- The ways a packet leaves its router by: one, or every branch of a multicast line, which all have room for it (18 R385). -/
def State.ways (s : State) (p : Packet) : List Way :=
  match p.body with
  | .mline xs _ _ =>
    let ws := (s.liveBranches p xs).map (fun e => s.branchWay p e.1)
    if ws.all (fun w => decide (p.len ≤ (s.wayRoom p w).getD 0)) then ws else []
  | _ => if s.atDest p then [] else ((s.way p).map (·.1)).toList

/-- The output channels that a packet is eligible on (18 R386): it heads its channel and goes on, and its way there has room. -/
def State.eligible (s : State) (p : Packet) : List Way :=
  if !s.heads p || !s.mayInject p then []
  else
    match s.holder p with
    | some t => if s.ejects t p && (s.tile t).fallsIn p then [] else s.ways (s.stamp p)
    | none => s.ways (s.stamp p)

/-- The eligible packets of the output channel of a way at the router of a packet, with their positions in the net. -/
def State.rivals (s : State) (p : Packet) (w : Way) : List (Packet × Nat) :=
  s.net.zipIdx.filter (fun e =>
    let q := s.stamp e.1
    q.md == p.md && routerNo q.col q.row q.plane == routerNo p.col p.row p.plane &&
    (s.eligible e.1).any (fun v => v.dir == w.dir && v.chan == w.chan))

/-- The first of the inputs in round-robin order. -/
def Arbiter.robin (a : Arbiter) (es : List (Packet × Nat)) : Option (Packet × Nat) :=
  let key := fun (e : Packet × Nat) => (e.1.input + (96 - a.turn)) % 96
  es.foldl (fun best e =>
    match best with
    | some b => if key e < key b then some e else some b
    | none => some e) none

/-- The packet has been sent, and the round robin goes on after its input. -/
def Arbiter.after (a : Arbiter) (p : Packet) : Arbiter := { a with turn := (p.input + 1) % 96 }

def Arbiter.pass (a : Arbiter) : Arbiter := { a with ptr := (a.ptr + 1) % 8 }
def Arbiter.setCredit (a : Arbiter) (x : Int) : Arbiter := { a with credit := a.credit.set a.ptr x }

/-- The repetitions of R387 over the classes. -/
def Arbiter.serve (weight : Nat → Nat) (es : List (Packet × Nat)) : Nat → Arbiter → Arbiter × Option Nat
  | 0, a => (a, none)
  | n + 1, a =>
    let x := a.credit.get 0 a.ptr
    match a.robin (es.filter (fun e => e.1.cls == a.ptr)) with
    | none => Arbiter.serve weight es n (a.setCredit 0).pass
    | some e =>
      if x ≤ 0 then
        let y := x + weight a.ptr
        let a1 := a.setCredit y
        Arbiter.serve weight es n (if y ≤ 0 then a1.pass else a1)
      else
        let y := x - e.1.len
        let a1 := (a.setCredit y).after e.1
        (if y ≤ 0 then a1.pass else a1, some e.2)

/-- The cycles before a time that periodic drains have taken, 32 from each multiple of 65,536 on (18 R389). -/
def drainCycles (now : Nat) : Nat := now / 65536 * 32 + min (now % 65536) 32

/-- The cycles in which the channel was free and had nothing to send, those of drains aside, in which it does not choose: each clears every
CREDIT and moves PTR on by nine (log 28). -/
def Arbiter.idle (a : Arbiter) (now : Nat) : Arbiter :=
  let n := (now - a.next) - (drainCycles now - drainCycles a.next)
  if now ≤ a.next then a
  else if n = 0 then { a with next := now }
  else { a with credit := [], ptr := (a.ptr + 9 * n) % 8, next := now }

/-- The choice of an output channel: promoted packets first, lowest class before higher, then the classes by their weights (18
R387). -/
def Arbiter.choose (a : Arbiter) (weight : Nat → Nat) (es : List (Packet × Nat)) : Arbiter × Option Nat :=
  let aged := es.filter (fun e => decide (16 ≤ e.1.age))
  match (List.range 8).findSome? (fun c => a.robin (aged.filter (fun e => e.1.cls == c))) with
  | some e => (a.after e.1, some e.2)
  | none => Arbiter.serve weight es 9 a

/-- The arbiter of an output channel of the router that holds a packet. -/
def State.arbiterKey (p : Packet) (w : Way) : Nat := 20 * routerNo p.col p.row p.plane + 4 * w.dir + w.chan
def State.arbiter (s : State) (p : Packet) (w : Way) : Arbiter := (s.module p.md).arbiters.get {} (State.arbiterKey p w)
def State.setArbiter (s : State) (p : Packet) (w : Way) (a : Arbiter) : State :=
  s.setModule p.md { s.module p.md with arbiters := (s.module p.md).arbiters.set (State.arbiterKey p w) a }

/-- WEIGHT of a class at the router that holds a packet; 0 acts as 1 (18 R377). -/
def State.weightAt (s : State) (p : Packet) (c : Nat) : Nat := max 1 (field (s.classAt p c) 16 4)

/-- The packets that a tree broadcast becomes at a node: one for the tile, if it is of the partition, and one for each node beyond
which there are tiles of the partition, but not back to where it came from (18 R384). -/
def State.forked (s : State) (p : Packet) : List Packet :=
  let tiles := (s.partition p.asid).filter (fun n => Config.nameM n == p.md)
  (if tiles.contains p.dst then [{ p with tag := 0 }] else []) ++
  ((s.treeToward 4 p.dst tiles).filter (· != p.via)).map (fun m =>
    { p with dst := m, via := p.dst, port := 5, order := 0, drainVc := false })

/-- The single lines that leave a multicast line at its router: for a joiner that stands there, and for those beyond a dead link. -/
def State.singles (s : State) (p : Packet) (xs : List LineReq) (data : Line) (cause : BitVec 8) : List Packet :=
  let on := ((s.liveBranches p xs).map (·.2)).flatten
  (xs.filter (fun x => !on.contains x)).map (fun x => { p with body := .line x data cause, dst := x.tile, mcast := false, heading := none })

/-- A packet leaves its router by a way: what its arbiter and counters note, and the packet beyond the link. -/
def State.leaves (s : State) (p : Packet) (w : Way) : State :=
  let a := s.arbiter p w
  let s := s.setArbiter p w { a with next := s.time + p.len }
  match s.moved p w with
  | some q => if q.md = p.md then s.countAt p 0x280 p.len else s
  | none => s

/-- The n-th packet leaves its router by its ways; where a packet goes by several, a copy goes by each. -/
def State.departs (s : State) (n : Nat) (p : Packet) (ws : List Way) : State :=
  let out := match p.body with
    | .mline xs data cause =>
      let bs := s.liveBranches p xs
      s.singles p xs data cause ++ ws.filterMap (fun w =>
        (s.moved p w).map (fun q => { q with body := .mline (((bs.find? (fun e => e.1 == w.dir)).map (·.2)).getD []) data cause }))
    | _ => (ws.filterMap (s.moved p))
  let s1 := ws.foldl (fun s w => s.leaves p w) s
  { s1 with net := s.net.take n ++ out ++ s.net.drop (n + 1) }

/-- ROUTER_HOP: the head of a virtual channel moves to the next router when the channel it chooses there has room for the whole of it
(18 R373) and the arbiter of that output channel, free of the packet before, chooses it among those that are eligible (18 R387). A
multicast line leaves by all its branches at once, when the arbiter of each chooses it (18 R385). A packet at its destination that is padding is discarded there, counted
and reported (18 R394); a tree broadcast is passed on along its tree (18 R384); one that its router ejects falls out (16 R349). A
packet that was at the former site of its name is counted as forwarded (06 R140). In a drain only pod links send, and nothing is injected (18 R389). -/
def execRouterHop (n : Nat) (s : State) : Out :=
  match s.net[n]? with
  | none => .next s
  | some p0 =>
    let p := s.stamp p0
    if !s.powered p.md || !s.heads p then .next s
    else if !s.draining p.md && (s.fallAt n).net.length < s.net.length then .next (s.fallAt n)
    else if s.atDest p && !p.mcast then
      if s.draining p.md then .next s
      else if p.poison then
        .next (((s.dropPacket n).count p.dst 0x284).report (Config.nameM p.dst) 0x284 (p.cls * 2 ^ 40 + p.dst * 2 ^ 20 + p.src))
      else if p.tag = 4 then .next { s with net := s.net.take n ++ s.forked p ++ s.net.drop (n + 1) }
      else .next s
    else if !s.mayInject p then .next s
    else
      match s.ways p with
      | [] =>
        match p.body with
        | .mline xs data cause =>
          if (s.liveBranches p xs).isEmpty then .next { s with net := s.net.take n ++ s.singles p xs data cause ++ s.net.drop (n + 1) }
          else .next s
        | _ => .next s
      | w :: more =>
        if (s.draining p.md && (((s.module p.md).linkTo (routerNo p.col p.row p.plane) w.dir).isSome || p.port == 5)) ||
            (w :: more).any (fun v => decide (s.time < (s.arbiter p v).next)) then .next s
        else
          let picks := (w :: more).map (fun v => (v, ((s.arbiter p v).idle s.time).choose (s.weightAt p) (s.rivals p v)))
          match picks.find? (fun e => e.2.2.isNone) with
          | some (v, a, _) => .next (s.setArbiter p v { a with next := s.time + 1 })
          | none =>
            if picks.any (fun e => e.2.2 != some n) then .next s else
            let s1 := (picks.foldl (fun s e => s.setArbiter p e.1 e.2.1) s).departs n p (w :: more)
            let turned := !p.mcast && ((s.way p).map (·.2)).getD false
            let s1 := if turned then s1.countAt p 0x285 else s1
            let s1 := if p.steered then s1.count p.dst 0x245 else s1
            .next (s1.fallAt n)

/-! ## Age (18 R388) -/

/-- Every packet of a module's routers ages by one up to 16, and reaching 16 is a promotion. -/
def State.ageTick (s : State) (md : Nat) : State :=
  let here := fun (p : Packet) => p.md == md && !p.uninjected
  let s1 := { s with net := s.net.map (fun p => if here p then { p with age := min 16 (p.age + 1) } else p) }
  let s1 := s1.setModule md { s.module md with agedAt := s.time }
  (s.net.filter (fun p => here p && p.age == 15)).foldl (fun s p => s.countAt p 0x281) s1

/-- The tick of a timebase value whose bits 7:0 are zero is still to come at a module whose clocks run. -/
def State.ageDue (s : State) (md : Nat) : Bool := s.time % 256 == 0 && (s.module md).agedAt != s.time && s.powered md

/-- AGE_TICK (18 R388). No step passes it (Clock). -/
def execAgeTick (md : Nat) (s : State) : Out := .next (if s.ageDue md then s.ageTick md else s)

/-! ## The periodic drain (18 R389) -/

/-- Whether a packet may be a link's candidate: one in the drain channel, or the head of an input channel of a class other than POST
and SYS. -/
def State.drains (s : State) (p : Packet) : Bool :=
  p.drainVc || (p.cls != clsPOST && p.cls != clsSYS && s.heads p)

/-- Of two packets of one input port, the first is the better candidate. -/
def Packet.before (p q : Packet) : Bool :=
  if p.drainVc != q.drainVc then p.drainVc
  else if p.age != q.age then decide (q.age < p.age)
  else decide (p.cls < q.cls)

def Packet.samePort (p q : Packet) : Bool :=
  p.md == q.md && p.col == q.col && p.row == q.row && p.plane == q.plane && p.port == q.port

/-- A packet came to its router by a link of its own module. -/
def Packet.byLink (p : Packet) : Bool := decide (p.port < 5) && (meshNext (routerNo p.col p.row p.plane) p.port).isSome

/-- The packet at a position of the net is its link's candidate; the first in the net wins a tie that is left. -/
def State.candidate (s : State) (n : Nat) (p : Packet) : Bool :=
  p.byLink && s.drains p &&
  (s.net.zipIdx).all (fun e => e.2 == n || !(e.1.samePort p && s.drains e.1) ||
    p.before e.1 || (!e.1.before p && decide (n < e.2)))

/-- A candidate moves along the drain circuit into the drain channel at the end of the next link. -/
def State.drained (s : State) (p : Packet) : Option Packet :=
  let r := routerNo p.col p.row p.plane
  let m := s.module p.md
  match (m.drainPort r p.port).bind (fun d => (m.linkTo r d).map (fun r' => (d, r'))) with
  | some (d, r') => some { p with
      col := routerCol r', row := routerRow r', plane := routerPlane r', port := farPort d
      drainVc := true, order := 0, age := 16, hops := p.hops + 1 }.comes
  | none => none

/-- Every link's candidate moves at once. One that comes to its destination's router is delivered there by the event of its kind. -/
def State.drainTick (s : State) (md : Nat) : State :=
  let go := fun (n : Nat) (p : Packet) => if p.md == md && s.candidate n p then s.drained p else none
  let moves := (s.net.zipIdx).filter (fun e => (go e.2 e.1).isSome)
  let s1 := { s with net := (s.net.zipIdx).map (fun (e : Packet × Nat) => (go e.2 e.1).getD e.1) }
  let s1 := s1.setModule md { s.module md with drainedAt := s.time }
  moves.foldl (fun s e =>
    let s := (s.countAt e.1 0x282).countAt e.1 0x280 e.1.len
    if e.1.steered then s.count e.1.dst 0x245 else s) s1

/-- The drain of a timebase value whose bits 15:0 are zero is still to come at a module that runs. -/
def State.drainDue (s : State) (md : Nat) : Bool :=
  s.time % 65536 == 0 && (s.module md).drainedAt != s.time && (s.module md).booted && s.powered md

/-- PERIODIC_DRAIN (18 R389). No step passes it (Clock). -/
def execPeriodicDrain (md : Nat) (s : State) : Out := .next (if s.drainDue md then s.drainTick md else s)

/-- Forwarding registers whose move was complete before the last drain: that drain has ended, and they are cleared (06 R140). -/
def State.forwardsDone (s : State) (md : Nat) : Bool :=
  let m := s.module md
  decide (m.switchedAt < m.drainedAt) && decide (m.drainedAt + 32 ≤ s.time) &&
  m.forward.any (fun e => (m.site e.2).map (fun x => siteNo x.1 x.2) != some e.1)

/-- The forwarding registers of completed moves are cleared; those of a switch still to come stay. -/
def State.clearForwards (s : State) (md : Nat) : State :=
  let m := s.module md
  s.setModule md { m with forward := m.forward.filter (fun e => (m.site e.2).map (fun x => siteNo x.1 x.2) == some e.1) }

/-! ## Address spaces that are not resident (16 R351) -/

/-- Flits that a spill region of 512 KiB holds, at 72 bytes each. -/
def spillFlits : Nat := 7281

/-- A tile of a saved partition keeps a spill region. -/
def State.hasRegion (s : State) (t asid : Nat) : Bool := s.saved.any (fun x => x.name == t && x.asid == asid)

/-- NONRESIDENT_SPILL: a message for a saved address space goes to its spill region; without one, or with it full, the message goes
back into the fabric at the tile's port, to be offered again. -/
def execNonresidentSpill (n : Nat) (s : State) : Out :=
  match s.arrived n with
  | none => .next s
  | some p =>
    let tl := s.tile p.dst
    if p.body.ofHost || tl.resident p.asid || !s.powered p.md || s.comesAfter p then .next s
    else if [clsPOST, clsBULK, clsREQ, clsOPND, clsSYS].contains p.cls then
      let held := flitsOf (tl.nrspill.filter (fun q => q.asid == p.asid))
      if s.hasRegion p.dst p.asid && decide (held + p.len ≤ spillFlits) then
        .next (((s.dropPacket n).mapTile p.dst (fun tl => { tl with nrspill := tl.nrspill ++ [p] })).count p.dst 0x276)
      else .next { s with net := s.net.set n { p with port := 5, order := 0 } }
    else .next s

end Sys2Proof.Machine
end

