-- ==== Sys2Proof/Machine/Remote.lean ====
section
/-! DEFINITION. Atomics, compare and swap, fences, barrier objects and arrival words (07 R145 to R163, 12 R251 to R254). -/
namespace Sys2Proof.Machine

def amoOp (p : BitVec 4) : AmoOp :=
  match p.toNat with
  | 0 => .add | 1 => .and | 2 => .or | 3 => .xor | 4 => .minS | 5 => .minZ | 6 => .maxS | 7 => .maxZ | 8 => .xchg
  | 9 => .fadd
  | _ => .fmax

/-- AtomicOps that a host window carries (07 R154). -/
def AmoOp.hostable (o : AmoOp) : Bool := o == .add || o == .xchg

/-- Order field: acquire is bit 0, release bit 1 (07 R151). -/
def acquires (o : Nat) : Bool := o % 2 == 1
def releases (o : Nat) : Bool := o / 2 % 2 == 1

/-- 07 R149, R151, R152: posted, with no result. -/
def execRamo (m : Bool) (a b : BitVec 5) (p : BitVec 4) (z : BitVec 2) (o : BitVec 3) (s : State) : Out :=
  let n := if z = 0 then 4 else 8
  access { i := .ramo m a b p z o, m := m, src := [gd a, gd b], mem := true } s (fun th =>
    { kind := .amo (amoOp p) n (th.rg b) false, va := th.rg a
      need := { size := n, align := n, right := .a, host := (amoOp p).hostable }, route := .post
      acq := acquires o.toNat, rel := releases o.toNat })

/-- 07 R149, R151, R152. -/
def execAmo (m : Bool) (d a b : BitVec 5) (p : BitVec 4) (z : BitVec 2) (o : BitVec 3) (s : State) : Out :=
  let n := if z = 0 then 4 else 8
  access { i := .amo m d a b p z o, m := m, dst := [gd d], src := [gd a, gd b], long := true, mem := true } s (fun th =>
    { kind := .amo (amoOp p) n (th.rg b) true, va := th.rg a
      need := { size := n, align := n, right := .a, host := (amoOp p).hostable }, route := .follow, dests := [gd d]
      acq := acquires o.toNat, rel := releases o.toNat })

/-- 07 R155. -/
def execCas (m : Bool) (d a b c : BitVec 5) (z : BitVec 1) (o : BitVec 2) (s : State) : Out :=
  let n := if z = 0 then 4 else 8
  access { i := .cas m d a b c z o, m := m, dst := [gd d], src := [gd a, gd b, gd c], long := true, mem := true } s (fun th =>
    { kind := .cas n (th.rg b) (th.rg c), va := th.rg a
      need := { size := n, align := n, right := .a }, route := .follow, dests := [gd d]
      acq := acquires o.toNat, rel := releases o.toNat })

/-- FENCE (07 R157): MARKWAIT until its conditions hold; one that waits for the count of R146 takes a denial (16 R345). -/
def execFence (m : Bool) (sc k : BitVec 3) (s : State) : Out :=
  let f : Form := { i := .fence m sc k, m := m, mem := true }
  issue f s (fun th s =>
    if !fenceDone k.toNat sc.toNat s.here s.myCore th then .next (s.hold (.fence k.toNat sc.toNat))
    else
      match (if sc = 2 && k ≠ 1 then th.denial else none) with
      | some va => .next ((s.setMe { th with denial := none }).trap Cause.pageDenied va)
      | none => .next (s.issued { th with pc := th.nextPc f.i }))

/-! ## Barrier objects (07 R158, R159) -/

/-- A BAR form: at the object's owner, never migrating. The owner is that of word 0 (DESIGN CHOICE, log 77). -/
def barAccess (i : Instr) (m : Bool) (form : BarForm) (dst : List Dest) (a b : BitVec 5) (s : State) : Out :=
  access { i := i, m := m, dst := dst, src := [gd a, gd b], long := !dst.isEmpty, mem := true } s (fun th =>
    { kind := .bar form (th.rg b), va := th.rg a
      need := { size := 16, align := 16, right := .rdWA, host := false, sramOnly := true }, route := .remote, dests := dst
      pin := false, acq := form.waits, rel := form != .wait })

/-- 07 R160. -/
def execBarInit (m : Bool) (a b : BitVec 5) (s : State) : Out := barAccess (.barInit m a b) m .init [] a b s

/-- 07 R160. -/
def execBarArr (m : Bool) (d a b : BitVec 5) (s : State) : Out := barAccess (.barArr m d a b) m .arr [gd d] a b s

/-- 07 R161. -/
def execBarWait (m : Bool) (d a b : BitVec 5) (s : State) : Out := barAccess (.barWait m d a b) m .wait [gd d] a b s

/-- 07 R160. -/
def execBarArrw (m : Bool) (d a b : BitVec 5) (s : State) : Out := barAccess (.barArrw m d a b) m .arrw [gd d] a b s

/-- 07 R160, R162. -/
def execBarCmb (m : Bool) (d a b : BitVec 5) (s : State) : Out := barAccess (.barCmb m d a b) m .cmb [gd d] a b s

/-- 07 R160, R162. -/
def execBarCmbw (m : Bool) (d a b : BitVec 5) (s : State) : Out := barAccess (.barCmbw m d a b) m .cmbw [gd d] a b s

/-! ## Arrival words (12 R253, R254) -/

def awNeed : Need := { size := 16, align := 16, right := .rdWA, host := false, sramOnly := true, kind13 := true }

/-- 12 R253. -/
def execAwinit (m : Bool) (d b c : BitVec 5) (s : State) : Out :=
  access { i := .awinit m d b c, m := m, dst := [gd d], src := [gd b, gd c], long := true, mem := true } s (fun th =>
    { kind := .awInit (th.rg c), va := th.rg b, need := awNeed, route := .remote, dests := [gd d], pin := false, rel := true })

/-- 12 R254. -/
def execAwwait (m : Bool) (d b c : BitVec 5) (s : State) : Out :=
  access { i := .awwait m d b c, m := m, dst := [gd d], src := [gd b, gd c], long := true, mem := true } s (fun th =>
    { kind := .awWait ((th.rg c).truncate 16), va := th.rg b, need := awNeed, route := .remote, dests := [gd d], pin := false
      acq := true })

end Sys2Proof.Machine
end

