-- ==== Sys2Proof/Machine/Schedule.lean ====
section
/-! DEFINITION. The Hutch: admission, dispatch, loading, donation and the parked area (15 R316 to R328, 06 R135, 16 R333). -/
namespace Sys2Proof.Machine

/-! ## Places of contexts in memory (14 R294, R447, 15 R320) -/

/-- The device address of the record at a place: the ring below 256, the spill region below 4,352, else the parked area. -/
def recordAt (t place : Nat) : Nat :=
  if place < 256 then sramAt t (Config.hutchRing + 256 * place)
  else if place < 4352 then vaultAt t (Config.deviceRegion + 256 * (place - 256))
  else vaultAt t (0x7E300000 + 1024 * (place - 8192))

/-- The device address of the live vector registers that go with it. -/
def vectorsAt (t place : Nat) : Nat :=
  if place < 256 then sramAt t (0x1710000 + 512 * place)
  else if place < 4352 then vaultAt t (0x7E100000 + 512 * (place - 256))
  else recordAt t place + 256

/-- The live vector registers of a thread. -/
def Thread.liveVectors (th : Thread) : List Nat := (List.range 8).filter (fun i => th.vlive.getLsbD i)

/-- The lines of a context at a place: its record, its live vector registers and, in the parked area, its wait record. -/
def contextLines (t place : Nat) (th : Thread) : List Nat :=
  (List.range 4).map (fun i => recordAt t place + 64 * i) ++
  (List.range th.liveVectors.length).map (fun i => vectorsAt t place + 64 * i) ++
  (if place < 4352 then [] else (List.range 4).map (fun i => recordAt t place + 768 + 64 * i))

/-- A register as the wait record names it. -/
def waitCode (d : Dest) : Nat := 256 + d.code

/-- The wait record of a parked thread (15 R327): its wait state and how many registers the form writes, the form's address, its PC, and each
of those registers; its layout is a DESIGN CHOICE (log 35). -/
def Thread.waitWords (th : Thread) : List Dword :=
  match th.wait with
  | none => [BitVec.ofNat 64 th.st.ctorIdx, 0, th.pc.zeroExtend 64]
  | some w => [BitVec.ofNat 64 (th.st.ctorIdx + 256 * w.dests.length), w.op.va, th.pc.zeroExtend 64] ++
      w.dests.map (fun d => BitVec.ofNat 64 (waitCode d))

/-- A context written to its place: the record, then the live vector registers in rising number (15 R319), and in the parked area the wait
record (15 R327). -/
def State.writeContext (s : State) (t place : Nat) (th : Thread) : State :=
  let live := th.liveVectors
  let s := s.store (recordAt t place) (th.record ((s.tile t).seated th))
  let s := (live.zip (List.range 8)).foldl (fun s e =>
    s.store (vectorsAt t place + 64 * e.2) (leBytes 64 (th.v.get 0 e.1).toNat)) s
  let s := if place < 4352 then s else s.store (recordAt t place + 768) (th.waitWords.flatMap (fun w => leBytes 8 w.toNat))
  { s with poison := ((contextLines t place th).flatMap (fun a => wordsOf a 64)).foldl (fun l w => dropFrom w l) s.poison }

/-- A context read back from its place, or none where a line of it is poisoned (16 R333). -/
def State.readContext (s : State) (t place : Nat) (th : Thread) : Option Thread :=
  if (contextLines t place th).any (fun a => s.isPoisoned a 64) then none
  else
    let ws := (List.range 32).map (fun i => s.dword (recordAt t place + 8 * i))
    let th := th.setWords ws
    let live := th.liveVectors
    some { th with v := (live.zip (List.range 8)).map (fun e =>
      (e.1, BitVec.ofNat 512 (s.num (vectorsAt t place + 64 * e.2) 64))) }

/-! ## Admission (15 R319) -/

/-- Places in use: of held contexts and of those being loaded. -/
def Tile.places (tl : Tile) : List Nat :=
  tl.hutch.map (·.place) ++ tl.cores.filterMap (fun e => e.2.loading.map (fun l => l.2.place))

/-- The lowest free place of the ring, else of the spill region; none when both are full. -/
def Tile.freePlace (tl : Tile) : Option Nat :=
  let used := tl.places
  (List.range 4352).find? (fun p => !used.contains p)

/-- The Hutch refuses no longer: the cycles of its refusal count (15 R330). -/
def State.refusalEnds (s : State) (t : Nat) : State :=
  match (s.tile t).refusing with
  | some at_ => (s.mapTile t (fun tl => { tl with refusing := none })).count t 0x264 (s.residentCycles t - at_)
  | none => s

/-- A context is to enter the Hutch: whether it is admitted, or must be refused or wait for the vault cache. -/
def State.admitCtx (s : State) (t : Nat) (how : Admit) (c : Ctx) : State × Bool :=
  match (s.tile t).freePlace with
  | none => (s, false)
  | some place =>
    match s.touchLines t true (contextLines t place c.th) with
    | (s, false) => (s, false)
    | (s, true) =>
      let s := s.writeContext t place c.th
      let s := (s.mapTile t (fun tl => { tl with hutch := tl.hutch ++ [{ how := how, ctx := c, place := place }] })).refusalEnds t
      (if 256 ≤ place then s.count t 0x242 else s, true)

/-- HUTCH_ADMIT: a packet of class MIG is admitted, or refused and held by the router (15 R319, 06 R135). A spawned or a donated context too
gets as its HOPS those of the packet that brought it (DESIGN CHOICE, log 44: 01 R14 speaks of the last migration alone). -/
def execHutchAdmit (n : Nat) (s : State) : Out :=
  match s.takes n with
  | none => .next s
  | some p =>
    let t := p.dst
    match p.body with
    | .context c how =>
      let c := { c with th := { c.th with hops := BitVec.ofNat 8 (min 255 p.hops) } }
      match s.admitCtx t how c with
      | (s, false) =>
        .next (if (s.tile t).freePlace.isSome || (s.tile t).refusing.isSome then s
          else (s.bb t 6 0 c.th.tid).mapTile t (fun tl => { tl with refusing := some (s.residentCycles t) }))
      | (s, true) =>
        let s := s.dropPacket n
        let s := if how = .migrated then s.count t 0x241 else s
        let now := s.residentCycles t
        .next (if c.donatable && p.src ≠ t then
          (s.count t 0x267).mapTile t (fun tl => { tl with asking := false, askTurn := 0, idleSince := now }) else s)
    | _ => .next s

/-! ## Dispatch (15 R321, R322) -/

def Admit.rank : Admit → Nat
  | .woken => 0
  | .migrated => 1
  | .spawned => 2
  | .task => 3

/-- The context of a class that goes first: the highest PRIO, then the earliest admission. A task message that has been head while no range
fitted it stays head (15 R322). -/
def Tile.classHead (tl : Tile) (how : Admit) : Option Held :=
  let hs := tl.hutch.filter (fun h => h.how == how)
  let kept := hs.find? (fun h => how == .task && tl.taskHead == some h.place)
  kept.or (hs.find? (fun h => hs.all (fun x => decide (x.ctx.th.prio.toNat ≤ h.ctx.th.prio.toNat))))

/-- The context that is due: the head of the first class in which one waits. -/
def Tile.due (tl : Tile) : Option Held :=
  [Admit.woken, .migrated, .spawned, .task].findSome? tl.classHead

/-- Free slots of a core that may take a context, lowest first. -/
def Tile.freeSlots (tl : Tile) (c : Nat) : List Nat :=
  let co := tl.core c
  if co.stopped || co.brkStopped then []
  else (List.range 16).filter (fun k => tl.slotInService c k && (tl.thread c k).st == .free &&
    (match co.loading with
      | some l => l.1 != k
      | none => true))

/-- The core with the most free slots among those without a dispatch in progress, lowest first; or the one a context is bound
to. -/
def Tile.pickCore (tl : Tile) (only : Option Nat) : Option Nat :=
  let ok := (List.range 4).filter (fun c => (tl.core c).loading.isNone && !(tl.freeSlots c).isEmpty &&
    (match only with
      | some x => x == c
      | none => true))
  ok.find? (fun c => ok.all (fun d => decide ((tl.freeSlots d).length ≤ (tl.freeSlots c).length)))

/-- The lowest base in the pool at which n free bytes begin: the pool's base, or the end of an allotment. -/
def Tile.firstFit (tl : Tile) (n : Nat) : Option Nat :=
  let lo := tl.poolBase
  let hi := tl.poolBase + tl.poolSize
  let starts := (lo :: tl.allots.map (fun a => a.1 + a.2.1)).mergeSort (fun a b => decide (a ≤ b))
  starts.find? (fun b => decide (lo ≤ b) && decide (b + n ≤ hi) &&
    tl.allots.all (fun a => decide (b + n ≤ a.1) || decide (a.1 + a.2.1 ≤ b)))

/-- The scratch range of a context: none where it needs one that does not fit, else its base if it needs one. -/
def Tile.rangeFor (tl : Tile) (h : Held) : Option (Option Nat) :=
  if h.ctx.scratchNeed = 0 then some none else (tl.firstFit h.ctx.scratchNeed).map some

/-- The task-message head finds no range, and stays head. -/
def State.taskBlocks (s : State) (t : Nat) (h : Held) : State :=
  if h.how != .task || (s.tile t).taskSince.isSome then s
  else s.mapTile t (fun tl => { tl with taskHead := some h.place, taskSince := some (s.residentCycles t) })

/-- A range fits the head: the cycles for which it waited count (15 R330). -/
def State.taskFits (s : State) (t : Nat) (h : Held) : State :=
  match (s.tile t).taskSince with
  | some at_ =>
    if h.how == .task then (s.mapTile t (fun tl => { tl with taskSince := none })).count t 0x268 (s.residentCycles t - at_) else s
  | none => s

/-- HUTCH_DISPATCH: the context that is due starts loading into a free slot; a task message first gets its scratch. -/
def execHutchDispatch (t : Nat) (s : State) : Out :=
  match (s.tile t).due with
  | none => .next s
  | some h =>
    if !s.unitsRun t then .next s
    else
      match (s.tile t).rangeFor h with
      | none => .next (s.taskBlocks t h)
      | some base =>
        let s := s.taskFits t h
        match (s.tile t).pickCore h.ctx.core with
        | none => .next s
        | some c =>
          match s.touchLines t false (contextLines t h.place h.ctx.th) with
          | (s, false) => .next s
          | (s, true) =>
            let k := ((s.tile t).freeSlots c).headD 0
            let th := match base with
              | some b => { h.ctx.th with scratch := some (b, h.ctx.scratchNeed) }
              | none => h.ctx.th
            let h' : Held := { h with ctx := { h.ctx with th := th } }
            let now := s.residentCycles t
            .next ((s.mapTile t (fun tl =>
              { tl.setCore c { tl.core c with loading := some (k, h') } with
                hutch := tl.hutch.erase h, idleSince := now
                taskHead := if h.how == .task then none else tl.taskHead
                allots := match base with
                  | some b => tl.allots ++ [(b, h.ctx.scratchNeed, th.tid)]
                  | none => tl.allots })).count t 0x263)

/-! ## Loading (15 R321, R328, 06 R135, 16 R333) -/

/-- A context that cannot be resumed: its thread ends, and records tell the supervisor and the Bureau (16 R333). -/
def State.lostContext (s : State) (t : Nat) (th : Thread) : State :=
  let r : FaultRec := { tid := th.tid, asid := th.asid.toNat, seg := 0, kind := 9, reason := 0x12, lo := 0, va := 0, src := t, cls := clsMIG }
  let s := (s.addFault t r).toBureau t r
  (s.sendRetire t th.asid.toNat th.tid).sendQuotaDrop t th.asid.toNat

/-- A thread whose fetch was refused while it was parked: it meets the failure of that fetch in its slot (12 R273). -/
def Thread.fetchRefused (th : Thread) : Option Dword :=
  match th.hold with
  | .trap c v e => if th.haltedFrom == .markWait && c == Cause.pageDenied && e == th.pc then some v else none
  | _ => none

/-- A thread in its slot goes on: a parked one with what its wait record holds, another with the access it brought, which no stopped core
presents (16 R332, 19 R410). -/
def State.resumeLoaded (s : State) (t c k : Nat) (how : Admit) : State :=
  let th := s.thread t c k
  let co := (s.tile t).core c
  let present := fun (s : State) => if co.stopped || co.brkStopped then s else s.acceptOwn t c k
  if how = .woken then
    match th.wait.bind (·.answer) with
    | some r =>
      (s.setThread t c k { th with st := .ready, haltedFrom := .free, wait := th.wait.map (fun w => { w with answer := none })
                           }).finish t c k r
    | none =>
      match th.fetchRefused with
      | some va => (s.setThread t c k { th with st := .ready, haltedFrom := .free, hold := .results }).fetchTrap t c k Cause.pageDenied va
      | none =>
        let s := s.setThread t c k { th with st := if th.haltedFrom == .ready then th.presenting else th.haltedFrom, haltedFrom := .free }
        let elems := match th.wait with
          | some w => w.elems
          | none => false
        if th.haltedFrom == .ready then present (if elems then s.elementsDone t c k else s) else s.refreshCore t c
  else present s

/-- What a migrated thread does on arrival with the instruction at PC: its operation and the registers that it writes, from the record's own
registers, AVA and g0 slot (06 R135, 07 R147). -/
def carriedOp (i : Instr) (th : Thread) : Option (OpKind × List Dest) :=
  match i with
  | .ld _ d _ f _ => some (.load (loadForm f), [gd d])
  | .cLd _ a _ => some (.load ⟨8, false⟩, [gd a])
  | .st _ _ _ f _ => some (.store (storeSize f) th.g0slot, [])
  | .cSt _ _ _ => some (.store 8 th.g0slot, [])
  | .ldfe _ d _ _ => some (.fe .ldfe 0, [gd d])
  | .ldff _ d _ _ => some (.fe .ldff 0, [gd d])
  | .stef _ d _ _ => some (.fe .stef (th.rg d), [])
  | .stff _ d _ _ => some (.fe .stff (th.rg d), [])
  | .feprobe _ d _ _ => some (.fe .feprobe 0, [gd d])
  | .feset _ d _ _ => some (.fe .feset (th.rg d), [])
  | .amo _ d _ b p z _ => some (.amo (amoOp p) (if z = 0 then 4 else 8) (th.rg b) true, [gd d])
  | .cas _ d _ b c z _ => some (.cas (if z = 0 then 4 else 8) (th.rg b) (th.rg c), [gd d])
  | .vld _ v k _ _ => some (.vload (th.rk k.toNat), [vd v])
  | .vst _ v k _ _ => some (.vstore (th.rk k.toNat) (th.rv v.toNat), [])
  | .qrecv _ a _ c => some (.queue .recv, groupDest a ++ [gd c])
  | .drecv _ a _ c => some (.queue .drecv, groupDest a ++ [gd c])
  | .xupd _ a _ c => some (.index (.upd (th.group c)), [gd a])
  | .xscan _ a _ => some (.index (.scan (th.rg a) (field (th.rg (a + 3)) 32 32)), groupDest a)
  | .xcnt _ a _ c => some (.index (.cnt (th.rg c)), [gd a])
  | .migrate _ _ _ => some (.arrive, [])
  | .home _ => some (.arrive, [])
  | _ => none

/-- The wait record of a migrated thread as its loaded record gives it: the instruction at PC with AVA and the g0 slot, where its code is
present at the tile, and else what its packet carried; its budget begins with this presentation (06 R134, R135). -/
def State.arriving (s : State) (t c : Nat) (th : Thread) : Thread :=
  match th.wait with
  | none => th
  | some w =>
    let d := (s.tile t).seg (vaSeg th.ava)
    let moved := th.ava != w.op.va && w.op.kind.addressed && d.owner t (vaOff th.ava) == some t
    let op := if moved then
        { w.op with va := th.ava, seg := vaSeg th.ava, lo := d.localOffset th.scratch (vaOff th.ava), map := d.mapping }
      else w.op
    let w := { w with op := op, since := s.residentCycles t, sbAt := ((s.tile t).core c).sbNext }
    let w := match s.fetch t th.asid.toNat th.scratch th.pc with
      | .bits b =>
        (match decodeWord b with
          | .ok i =>
            (match carriedOp i th with
              | some (kind, dests) => { w with
                  op := { op with kind := kind }, dests := dests, size := i.size
                  mask := (match kind with
                    | .vload m => m
                    | _ => w.mask) }
              | none => w)
          | .error _ => w)
      | _ => w
    { th with wait := some w, g0slot := 0 }

/-- A line of a context is still on its way from the vault (15 R321). -/
def State.linesDue (s : State) (t place : Nat) (th : Thread) : Bool :=
  (contextLines t place th).any (fun a => devVault a && (s.tile t).vc.misses.any (fun m => m.line == devOff a / 64 && !m.prefetch))

/-- A context that comes to a core which a BRK or a machine check has stopped is HALTED (16 R332, 19 R410). -/
def State.haltLoaded (s : State) (t c k : Nat) : State :=
  let co := (s.tile t).core c
  let th := s.thread t c k
  if (co.stopped || co.brkStopped) && th.st != .free && th.st != .halted then
    s.setThread t c k { th with haltedFrom := th.st, st := .halted }
  else s

/-- CONTEXT_LOAD_DONE: the thread is READY, its migrated access is performed (06 R135); a record with privilege 2 enters its trap
vector (01 R13). -/
def execContextLoadDone (t c k : Nat) (s : State) : Out :=
  let co := (s.tile t).core c
  match co.loading with
  | none => .next s
  | some (slot, h) =>
    if slot ≠ k || !s.unitsRun t || s.linesDue t h.place h.ctx.th then .next s
    else
      let s := s.mapTile t (fun tl => tl.setCore c { co with loading := none })
      match s.readContext t h.place h.ctx.th with
      | none => .next (s.lostContext t h.ctx.th)
      | some th =>
        let th := { th with
          st := if h.how = .woken then .parked else .ready
          mark := 0, walking := false, parity := [] }
        if th.priv = 2 then
          let s := s.setThread t c k ({ th with wait := none }.admitted (s.dword (recordAt t h.place)) (s.vectorOf t) (s.firmwareOf t))
          .next ((s.bb t 1 Cause.illegal.toNat th.tid c k).haltLoaded t c k)
        else
          let sbNext := ((s.tile t).core c).sbNext
          let th := if h.how = .migrated then s.arriving t c th
            else { th with wait := th.wait.map (fun w => { w with sbAt := sbNext }) }
          .next (((s.setThread t c k th).resumeLoaded t c k h.how).haltLoaded t c k)

/-! ## Donation (15 R323) -/

/-- Mesh neighbours in the order of asking, none where the grid ends. -/
def neighbour (n i : Nat) : Option Nat :=
  let m := Config.nameM n
  let x := Config.nameX n
  let y := Config.nameY n
  if i = 0 then some (Config.tileName m (x + 1) y)
  else if i = 1 then some (Config.tileName m x (y + 1))
  else if i = 2 then (if x = 0 then none else some (Config.tileName m (x - 1) y))
  else if y = 0 then none
  else some (Config.tileName m x (y - 1))

/-- The first neighbour of the partition from a turn of the round on, with its turn. -/
def State.askNext (s : State) (t : Nat) : Option (Nat × Nat) :=
  let tl := s.tile t
  ([0, 1, 2, 3].filter (fun i => decide (tl.askTurn ≤ i))).findSome? (fun i =>
    match neighbour t i with
    | some n => if s.inPartition tl.asid.toNat n then some (i, n) else none
    | none => none)

/-- IDLE_DONATION_REQUEST: after 1,024 idle cycles, or with the next turn of a round, a neighbour is asked. -/
def execIdleDonationRequest (t : Nat) (s : State) : Out :=
  let tl := s.tile t
  let now := s.residentCycles t
  if !tl.segValid || tl.asking || !tl.hutch.isEmpty || !s.unitsRun t ||
      (tl.askTurn = 0 && decide (now < tl.idleSince + 1024)) then .next s
  else
    match s.askNext t with
    | some (i, n) =>
      .next ((s.mapTile t (fun tl => { tl with asking := true, askTurn := i + 1 })).send clsSYS t n tl.asid.toNat 1 .donateAsk)
    | none => .next (s.mapTile t (fun tl => { tl with askTurn := 0, idleSince := now }))

/-- Contexts of the spawn class in dispatch order. -/
def Tile.spawnOrder (tl : Tile) : List Held :=
  (tl.hutch.filter (fun h => h.how == .spawned)).mergeSort (fun a b => decide (b.ctx.th.prio.toNat ≤ a.ctx.th.prio.toNat))

/-- What a tile ships: the last SPAWNANY contexts beyond its free slots, at most 4. -/
def Tile.donation (tl : Tile) : List Held :=
  let free := ((List.range 4).map (fun c => (tl.freeSlots c).length)).sum
  ((tl.spawnOrder.drop free).filter (·.ctx.donatable)).reverse.take 4

/-- DONATION_SHIP: a neighbour answers a request with contexts, or with none; the answer none ends the asker's turn. -/
def execDonationShip (n : Nat) (s : State) : Out :=
  match s.takes n with
  | none => .next s
  | some p =>
    let t := p.dst
    match p.body with
    | .donateAsk =>
      let gift := (s.tile t).donation
      let s := s.dropPacket n
      if gift.isEmpty then .next (s.send clsSYS t p.src p.asid 1 .donateNone)
      else
        let now := s.residentCycles t
        let s := (s.mapTile t (fun tl => { tl with hutch := tl.hutch.filter (fun h => !gift.contains h), idleSince := now })).count t 0x266
          gift.length
        .next (gift.foldl (fun s h => s.send clsMIG t p.src p.asid 4 (.context h.ctx .spawned)) s)
    | .donateNone =>
      let now := s.residentCycles t
      .next ((s.dropPacket n).mapTile t (fun tl =>
        if 4 ≤ tl.askTurn then { tl with asking := false, askTurn := 0, idleSince := now } else { tl with asking := false }))
    | _ => .next s

/-! ## Parking (15 R327) -/

def Tile.freeParked (tl : Tile) : Option Nat :=
  (List.range 2048).find? (fun k => tl.parkedArea.all (fun e => e.1 != k) && !tl.places.contains (wokenPlace k))

/-- A thread that may be parked: it waits in FEWAIT, QWAIT or PARKED_FAULT, and owes nothing but its waiting form, of which elements may be
outstanding elsewhere. -/
def Thread.parkable (th : Thread) : Bool :=
  (th.st == .feWait || th.st == .qWait || th.st == .parkedFault) && th.pending.isEmpty && th.silent.isEmpty &&
  (match th.wait with
    | some w => w.gates.isEmpty && w.answer.isNone
    | none => true)

/-- The Hutch holds a context that waits for a slot: the one that is due has its scratch, and no slot that it may take is free. -/
def Tile.slotWanted (tl : Tile) : Bool :=
  match tl.due with
  | none => false
  | some h => (tl.rangeFor h).isSome && ((List.range 4).filter (fun c => h.ctx.core.isNone || h.ctx.core == some c)).all (fun c =>
      (tl.freeSlots c).isEmpty)

/-- Resident cycles at which its wait began. -/
def Thread.waitsSince (th : Thread) : Nat :=
  if th.st == .parkedFault then th.faultAt else (th.wait.map (·.since)).getD 0

/-- PARK_MOVE: a thread that has waited 4,096 resident cycles leaves its slot while a context waits for one. -/
def execParkMove (t c k : Nat) (s : State) : Out :=
  let th := s.thread t c k
  let tl := s.tile t
  if !th.parkable || !s.unitsRun t || !tl.slotWanted || !(tl.core c).drained th.mark ||
      decide (s.residentCycles t < th.waitsSince + 4096) then .next s
  else
    match tl.freeParked.map (fun e => (e, s.touchLines t true (contextLines t (wokenPlace e) th))) with
    | none => .next s
    | some (_, s, false) => .next s
    | some (e, s, true) =>
      let s := s.writeContext t (wokenPlace e) th
      let s := s.setThread t c k {}
      .next ((s.mapTile t (fun tl => { tl with
        parkedArea := tl.parkedArea ++ [(e, { th with st := .parked, haltedFrom := th.st, walking := false, mark := 0 })]
        })).count t 0x265)

end Sys2Proof.Machine
end

