-- ==== Sys2Proof/Machine/Gang.lean ====
section
/-! DEFINITION. The gang switch: how a tile stops, what is saved, and how a partition resumes (16 R348 to R353, 07 R145, 19 R409). -/
namespace Sys2Proof.Machine

/-! ## A tile stops (16 R349, R353) -/

/-- A thread at a stop: a departure that is not committed, a MISSUE that is not accepted, a command that is not queued and a form that reads its
parameter block are saved unissued (07 R145, 10 R222, 12 R261); an INVAL is sent again (12 R277) and a fence waits afresh (07 R157). -/
def Thread.atStop (th : Thread) : Thread :=
  let reads := match th.wait with
    | some w => w.block
    | none => false
  if reads then { th.setDoing .ready with wait := none, walking := false, issuing := false, block := none }
  else if th.doing == .departing then { th.setDoing .ready with wait := none, depart := none, departAt := none }
  else if th.doing == .markWait then
    match th.hold with
    | .acks =>
      if (th.block.map (·.length)) == some 4 then { th.setDoing .ready with acks := [], sent := false, block := none } else th
    | .fence _ _ => th.setDoing .ready
    | _ => th
  else if th.doing == .ready then { th with issuing := false, block := none, imaged := 0, quotaTaken := false, draw := none }
  else th

/-- The slots whose own access or fetch a walk serves. -/
def Walk.slots (w : Walk) : List (Nat × Nat) :=
  w.uses.filterMap (fun u => match u with
    | .own c k => some (c, k)
    | .fetch c k => some (c, k)
    | .packet _ => none)

def Walk.packets (w : Walk) : List Packet :=
  w.uses.filterMap (fun u => match u with
    | .packet p => some p
    | _ => none)

/-- Walks are abandoned: what waited for them is presented again, and packets fall out, but the heads of streams, which keep their places in
the fault buffer (16 R353). -/
def Tile.dropWalks (tl : Tile) : Tile :=
  let slots := tl.walks.flatMap Walk.slots
  let heads := (tl.faultBuf.filter (·.walking)).map (·.p.born)
  let out := (tl.walks.flatMap Walk.packets).filter (fun p => !heads.contains p.born)
  { tl.mapThreads (fun c k th => if slots.contains (c, k) then { th with walking := false } else th) with
    fallout := tl.fallout ++ out, walks := []
    ct := if out.isEmpty then tl.ct else tl.ct.set 0x275 (tl.ct.get 0 0x275 + BitVec.ofNat 64 (flitsOf out))
    faultBuf := tl.faultBuf.map (fun e => { e with walking := false }) }

/-- Packets that the routers of a tile eject into its fall-out buffer, oldest first, as far as it has room. -/
def State.ejectAll (s : State) (t : Nat) : State :=
  s.net.foldl (fun s p =>
    if s.holder p == some t && s.ejects t p && (s.tile t).fallsIn p then
      { s with net := s.net.erase p }.fallOut t p
    else s) s

/-- The operation that a packet carries to its owner. -/
def Payload.request? (b : Payload) : Option Op :=
  match b with
  | .request op => some op
  | .posted op => some op
  | .quotaAdd op => some op
  | _ => none

/-- An operation of a thread: its TID and tag. -/
def Op.key? (op : Op) : Option (BitVec 32 × Nat) :=
  match op.origin with
  | .thread _ tid tag => some (tid, tag)
  | _ => none

/-- Operations of a tile's threads that its injection port has not accepted (07 R145). The requests of an element-wise form are accepted all
together (09 R195). -/
def State.unaccepted (s : State) (t : Nat) : List (BitVec 32 × Nat) :=
  let ops := s.net.filterMap (fun p => if p.uninjected && p.src == t then p.body.request? else none)
  let whole := fun (op : Op) => match op.group with
    | some g => (ops.filter (fun x => x.group == op.group && x.origin.tid == op.origin.tid)).length == g.2
    | none => true
  (ops.filter whole).filterMap Op.key?

/-- The tags of a thread's last access where they are among those: it waits for it, or has issued nothing since. -/
def Thread.unissued (th : Thread) (open_ : List (BitVec 32 × Nat)) : List Nat :=
  let waits := match th.wait with
    | some w => (match w.op.origin with
      | .thread _ _ g => if (w.op.path == .remote || w.elems) && !w.block then [g] else []
      | _ => [])
    | none => []
  let posts := th.posted.filterMap (fun p => match p.undo with
    | some u => if u.2.2 = th.issuedAt then some p.tag else none
    | none => none)
  (waits ++ posts).filter (fun g => open_.contains (th.tid, g))

/-- Such an access is saved unissued: PC at it, and PINCNT as before it. -/
def Thread.unissue (th : Thread) (tags : List Nat) : Thread :=
  let before := (th.posted.filter (fun p => tags.contains p.tag)).findSome? (·.undo)
  let th := { th.setDoing .ready with wait := none, walking := false, hold := .results, posted := th.posted.filter (fun p => !tags.contains p.tag) }
  match before with
  | some u => { th with pc := u.1, pincnt := u.2.1 }
  | none => th

/-- The accesses that the port has not accepted are saved unissued (07 R145). -/
def State.unissueAll (s : State) (t : Nat) : State :=
  let open_ := s.unaccepted t
  let back := (s.tile t).threads.flatMap (fun e => (e.2.2.unissued open_).map (fun g => (e.2.2.tid, g)))
  { s.mapTile t (fun tl => tl.mapThreads (fun _ _ th =>
      if (th.unissued open_).isEmpty then th else th.unissue (th.unissued open_))) with
    net := s.net.filter (fun p => !(p.uninjected && p.src == t && (match p.body.request?.bind Op.key? with
      | some x => back.contains x
      | none => false))) }

/-- Requests that a stop finds stalled at the pipeline are presented again on resume; those of the store buffers go on. -/
def State.dropStalls (s : State) (t : Nat) : State :=
  let s := (List.range 4).foldl (fun s c =>
    match ((s.tile t).core c).stalled with
    | some (k, _) => if k = 16 then s else s.coreGoes t c k
    | none => s) s
  [4, 5, 6, 7].foldl (fun s r => s.goes t r) s

/-- The units of a tile stop (16 R349), before its routers eject: a SPAWN that waits for a number gives its quota back (11 R227). -/
def State.stillUnits (s : State) (t : Nat) (how : Gang) : State :=
  let now := s.residentCycles t
  let undo := (s.tile t).threads.filter (fun e => e.2.2.quotaTaken && e.2.2.doing == .ready)
  let s := undo.foldl (fun s e => s.sendQuotaDrop t e.2.2.asid.toNat) s
  ((s.unissueAll t).dropStalls t).mapTile t (fun tl =>
    { (tl.mapThreads (fun _ _ th => th.atStop)).dropWalks with gang := how, residentCount := now })

/-- The units of a tile stop, and its routers eject what they hold of its partition (16 R349). -/
def State.stopUnits (s : State) (t : Nat) (how : Gang) : State := (s.stillUnits t how).ejectAll t

/-- GANG_STOP: a tile whose time has come stops; during a debug halt the stop waits for its end (16 R349, 19 R409). -/
def execGangStop (t : Nat) (s : State) : Out :=
  let tl := s.tile t
  if !tl.segValid || tl.gang != .running || !s.unitsRun t || (s.module (Config.nameM t)).halted ||
      decide (s.time < tl.gangstop.toNat) then .next s
  else .next ((s.stopUnits t .stopped).bb t 7 0)

/-! ## Parked (16 R349, 02 R66, 04 R100, 10 R222) -/

/-- The Trestle has finished its command, or waits for lines that have not come. -/
def Trestle.parked (r : Trestle) : Bool :=
  match r.running with
  | none => true
  | some x => !x.awaited.isEmpty || !x.toSend.isEmpty || x.unacked != 0

/-- A thread owes no long result but those of the form it waits for (02 R66), and of an MWAIT whose command has not completed: the Trestle
parks with commands in its queue (10 R222; DESIGN CHOICE, log 68). -/
def Thread.settled (th : Thread) : Bool := (th.pending ++ th.silent).all (fun p => p.mseq.isSome && !p.ready)

/-- A stopped tile's units are parked: results are written, and requests at the normaliser, vector queues, store buffers and vault fills are
done. -/
def Tile.parked (tl : Tile) : Bool :=
  tl.gang == .stopped && tl.norm.isEmpty && tl.cores.all (fun e => e.2.sb.isEmpty && e.2.vq.isEmpty) &&
  tl.threads.all (fun e => e.2.2.settled) && tl.trestle.parked && tl.vc.misses.all (fun m => m.prefetch)

def State.savedAt (s : State) (t asid : Nat) : Bool := s.saved.any (fun x => x.name == t && x.asid == asid)

/-- Every tile of a partition is parked or saved already, and the routers are clear of its packets. -/
def State.allParked (s : State) (asid : Nat) : Bool :=
  (s.gangTiles asid).all (fun t => s.savedAt t asid || ((s.tile t).resident asid && (s.tile t).parked)) &&
  s.net.all (fun p => p.body.ofHost || p.asid != asid)

/-! ## Saving (16 R350) -/

/-- What a save takes of memory: the tile memory image, and the Hutch's regions and the D-queue spill rings of the vault (17 R367). -/
def savedRange (t a : Nat) : Bool :=
  (decide (sramAt t 0 ≤ a) && decide (a < sramAt t 0 + Config.sramBytes)) ||
  (decide (vaultAt t Config.deviceRegion ≤ a) && decide (a < vaultAt t 0x7F500000))

/-- The tree nodes that a tile's routers hold for partitions other than its own (18 R384). -/
def Tile.otherNodes (tl : Tile) : Tab Node := tl.nodes.filter (fun e => e.1 % 256 != tl.asid.toNat)

/-- A tile whose partition has left: its registers, the Trestle's numbers among them (24 R436), and the state of its hardware stay, with the
nodes that its routers hold for other partitions, its black-box ring
and the messages it keeps for saved partitions. -/
def Tile.freed (tl : Tile) : Tile :=
  { name := tl.name, slotsReg := tl.slotsReg, vweight := tl.vweight, tasktab := tl.tasktab, scratchReg := tl.scratchReg
    hbarcnt := tl.hbarcnt, asid := tl.asid, ptroot := tl.ptroot, faultq := tl.faultq, ct := tl.ct, vc := tl.vc
    trestle := { accepted := tl.trestle.accepted, completed := tl.trestle.completed }
    failedBank := tl.failedBank, corrections := tl.corrections, scrubPos := tl.scrubPos, errs := tl.errs, pipe := tl.pipe
    treedepth := tl.treedepth, ejectClosed := tl.ejectClosed, nodes := tl.otherNodes, nrspill := tl.nrspill, bbox := tl.bbox, bbHead := tl.bbHead, bbWrapped := tl.bbWrapped, retired := tl.retired }

/-- A tile's state goes to its save area. -/
def State.saveTile (s : State) (t : Nat) : State :=
  let tl := s.tile t
  let inside := savedRange t
  let x : SavedTile := {
    asid := tl.asid.toNat, name := t, site := s.site t, tile := { tl with
      tlb := [], tlbTree := [], nrspill := [], nodes := tl.nodes.filter (fun e => e.1 % 256 == tl.asid.toNat) }
    mem := s.mem.filter (fun c => inside c.1)
    empties := s.empties.filter inside
    poison := s.poison.filter inside }
  { s with saved := s.saved ++ [x] }.setTile t tl.freed

/-! ## Resuming (16 R352) -/

/-- Memory, tags and poison of the saved range as they were. -/
def State.restoreMemory (s : State) (x : SavedTile) : State :=
  let inside := savedRange x.name
  let mem := x.mem.foldl (fun m c => Mem.write m c.1 c.2) (s.mem.filter (fun c => !inside c.1))
  { s with
    mem := mem
    empties := x.empties.foldl (fun l a => addTo a l) (s.empties.filter (fun a => !inside a))
    poison := x.poison.foldl (fun l a => addTo a l) (s.poison.filter (fun a => !inside a)) }

/-- Contexts of slots that have gone out of service join the woken class (16 R332, 20 R419). -/
def State.evict (s : State) (t : Nat) : State :=
  ((s.tile t).threads.filter (fun e => !(s.tile t).slotInService e.1 e.2.1)).foldl (fun s e =>
    let (c, k, th) := e
    match (s.tile t).freeParked with
    | none => s
    | some n =>
      let s := s.writeContext t (wokenPlace n) th
      let ctx : Ctx := { th := { th with st := .parked, haltedFrom := th.doing, walking := false, mark := 0 } }
      let h : Held := { how := .woken, ctx := ctx, place := wokenPlace n }
      (s.setThread t c k {}).mapTile t (fun tl => { tl with hutch := tl.hutch ++ [h] })) s

/-- CT_IDLE of a tile whose cores in service are other than before the stop: the cycles before it count with those that were (15 R330). -/
def Tile.keepIdle (old new : Tile) : Tile :=
  let n := fun (tl : Tile) => ((List.range 4).filter (fun c => tl.coreSlots c != 0)).length
  { new with ct := new.ct.set 0x262 (new.ct.get 0 0x262 + BitVec.ofNat 64 (n old * old.residentCount) -
      BitVec.ofNat 64 (n new * old.residentCount)) }

/-- A thread of a tile that has lost its Trestle waits for it no more: its next form there traps (20 R419). What an MWAIT then returns the
spec leaves open: 0, which is D now (DESIGN CHOICE, log 56). -/
def Thread.noTrestle (th : Thread) : Thread :=
  let go := fun (st : TState) => if st == .leaseWait || st == .slotLock then .ready else st
  { th with
    st := go th.st, haltedFrom := go th.haltedFrom, locks := []
    silent := th.silent.filter (fun p => p.mseq.isNone)
    pending := th.pending.map (fun p => if p.mseq.isSome then
      { p with ready := true, mseq := none, writes := p.dests.map (fun d => .to d 0) } else p) }

/-- The saved queue and slots of a Trestle that is out of service are discarded (20 R419). -/
def Tile.noTrestle (tl : Tile) : Tile := { tl.mapThreads (fun _ _ th => th.noTrestle) with trestle := {}, accs := [] }

/-- A tile's saved state returns, under the units and hardware state the tile has now; its cores and engines wait for its fall-out and the
messages spilled for it. -/
def State.restoreTile (s : State) (x : SavedTile) : State :=
  let t := x.name
  let now := s.tile t
  let tl := { x.tile with
    name := now.name, slotsReg := now.slotsReg, failedBank := now.failedBank, corrections := now.corrections
    scrubPos := now.scrubPos, errs := now.errs, pipe := now.pipe, stalls := []
    treedepth := now.treedepth, ejectClosed := now.ejectClosed, vc := now.vc, nrspill := now.nrspill
    nodes := x.tile.nodes ++ now.nodes.filter (fun e => !x.tile.nodes.has e.1)
    trestle := { x.tile.trestle with before := x.tile.trestle.accepted }
    bbox := now.bbox, bbHead := now.bbHead, bbWrapped := now.bbWrapped, retired := now.retired
    gang := .resuming, gangstop := 0xFFFFFFFFFFFFFFFF, residentAt := s.time, tlb := [], tlbTree := [] }
  let tl := x.tile.keepIdle (if tl.hasTrestle then tl else tl.noTrestle)
  (((((s.restoreMemory x).setTile t tl).readRoots t).evict t).refreshTile t)

/-- A packet that starts again from the router of a site, whose buffer held it: where the tile's name has moved since, that router forwards it
(16 R352, 21 R426). -/
def State.reinject (s : State) (t : Nat) (site : Option (Nat × Nat)) (p : Packet) : Packet :=
  let at_ := (site.or (s.site t)).getD (0, 0)
  { p with
    md := Config.nameM t, col := at_.1, row := at_.2, port := 5, drainVc := false, order := 0, aim := none
    steered := site.isSome && site != s.site t && p.dst == t }

/-- The fall-out of some tiles goes back into the fabric from the sites given, each tile's in its ejection order (16 R352). -/
def State.reinjectAll (s : State) (tiles : List (Nat × Option (Nat × Nat))) : State :=
  let out := tiles.flatMap (fun x => ((s.tile x.1).fallout.zipIdx).map (fun e => { s.reinject x.1 x.2 e.1 with order := e.2 + 1 }))
  let s := tiles.foldl (fun s x => s.mapTile x.1 (fun tl => { tl with fallout := [] })) s
  { s with net := out ++ s.net }

/-- Streams whose heads are to walk again go on (16 R353). -/
def State.pumpTile (s : State) (t : Nat) : State := (s.tile t).faultBuf.foldl (fun s e => s.pumpAll e.p) s

/-- Messages spilled for an address space stand at their tile, in arrival order (16 R351). -/
def State.deliverSpilled (s : State) (t asid : Nat) : State :=
  let mine := ((s.tile t).nrspill.filter (fun p => p.asid == asid)).zipIdx
  let s := s.mapTile t (fun tl => { tl with nrspill := tl.nrspill.filter (fun p => p.asid != asid) })
  { s with net := s.net ++ mine.map (fun e => { s.reinject t none e.1 with port := 6, order := e.2 }) }

/-- A resumed tile's fall-out is still to leave, or a message spilled for it to be delivered: one that the Hutch refuses, or that a full fault
buffer stalls, holds up the cores no longer, which alone can make room. -/
def State.refilling (s : State) (t : Nat) : Bool :=
  let tl := s.tile t
  s.net.any (fun p => p.asid == tl.asid.toNat && p.md == Config.nameM t &&
    ((p.refalls && p.src == t && !s.atDest p) ||
     (p.port == 6 && p.dst == t && tl.refusing.isNone && decide (tl.faultBuf.length < 64))))

/-- The cores and engines of a resumed tile start once its fall-out has left its router and the messages spilled for it are delivered (16
R352). -/
def State.startTile (s : State) (t : Nat) : State :=
  if (s.tile t).gang != .resuming || !s.unitsTake t || s.refilling t then s
  else
    (((s.mapTile t (fun tl => { tl with gang := .running, residentAt := s.time })).bb t 8 0).refreshTile t).pumpTile t

/-- The name tables once the switch that is set has been made. -/
def Module.nextExc (m : Module) : Tab (List ExcEntry) :=
  match m.nameSwitch with
  | some (_, x) => x
  | none => m.exc

/-- A tile's name is to move at a switch that is set (18 R392). -/
def State.moving (s : State) (t : Nat) : Bool :=
  let m := s.module (Config.nameM t)
  m.nameSwitch.isSome && ({ m with exc := m.nextExc } : Module).site t != m.site t

/-- Nothing keeps a saved partition from a tile: it is free, at work and reached, its name stands, and nothing holds placement. -/
def State.tileReady (s : State) (t : Nat) : Bool :=
  !(s.module (Config.nameM t)).placeHeld && !(s.tile t).segValid && s.reachable t && s.powered (Config.nameM t) && !s.moving t

/-- GANG_RESUME: at the agreed value a saved partition returns to the tiles it left, which must be free (16 R348, R352). -/
def execGangResume (asid : Nat) (s : State) : Out :=
  match s.launchOf asid with
  | none => .next s
  | some (md, l) =>
    let due := match l.resumeAt with
      | some r => decide (r ≤ s.time)
      | none => false
    if l.st != .saved || !due || l.aborting || !l.tiles.all s.tileReady then .next s
    else
      let back := s.saved.filter (fun x => x.asid == asid)
      let s := { s with saved := s.saved.filter (fun x => x.asid != asid) }
      let s := back.foldl (fun s x => s.restoreTile x) s
      let s := s.reinjectAll (back.map (fun x => (x.name, x.site)))
      let s := l.tiles.foldl (fun s t => s.deliverSpilled t asid) s
      let s := l.tiles.foldl (fun s t => s.startTile t) s
      .next (s.mapLaunch md (fun x => x.placed && x.asid == asid) (fun x => { x with st := .resident, resumeAt := none }))

end Sys2Proof.Machine
end

