-- ==== Sys2Proof/Machine/Launch.lean ====
section
/-! DEFINITION. Launches: validation, dependences, placement, the backfill fence, completion and abortion (15 R308 to R318, 14 R294,
R447, 17 R355, R357, 19 R404, R405, 26 R442, R443). -/
namespace Sys2Proof.Machine

/-! ## The launch record (15 R308 to R310) -/

namespace Launch

def word (l : Launch) (i : Nat) : Dword := l.words.getD i 0
def ndep (l : Launch) : Nat := field (l.word 0) 48 3
def matrix (l : Launch) : Bool := field (l.word 0) 42 1 == 1
def px (l : Launch) : Nat := field (l.word 3) 0 7
def py (l : Launch) : Nat := field (l.word 3) 8 6
def pw (l : Launch) : Nat := field (l.word 3) 16 7
def ph (l : Launch) : Nat := field (l.word 3) 24 6
def mbase (l : Launch) : Nat := field (l.word 3) 32 4
def mcount (l : Launch) : Nat := field (l.word 3) 36 5
def nThreads (l : Launch) : Nat := field (l.word 5) 0 7
def coreSlots (l : Launch) : Nat := field (l.word 5) 8 5
def vregs (l : Launch) : Nat := field (l.word 5) 16 4
def nQueue (l : Launch) : Nat := field (l.word 9) 0 16
/-- The scratch pool in bytes. -/
def pool (l : Launch) : Nat := 65536 * field (l.word 9) 16 9
def dep (l : Launch) (i : Nat) : Nat := field (l.word (10 + i / 2)) (32 * (i % 2)) 32
/-- The tiles of the rectangle in every module named, in name order. -/
def rect (l : Launch) : List Nat :=
  (List.range l.mcount).flatMap (fun m => (List.range l.pw).flatMap (fun x => (List.range l.ph).map (fun y =>
    Config.tileName (l.mbase + m) (l.px + x) (l.py + y))))

end Launch

/-- Reserved fields of a record's words: the first bit and the width; those of a device address among them (15 R307). -/
def reservedFields (i : Nat) : List (Nat × Nat) :=
  if i = 0 then [(43, 5), (51, 13)]
  else if i = 1 || i = 7 || i = 8 || i = 12 then [(31, 1), (53, 11)]
  else if i = 2 then [(32, 32)]
  else if i = 3 then [(7, 1), (14, 2), (23, 1), (30, 2), (41, 23)]
  else if i = 4 then [(48, 16)]
  else if i = 5 then [(7, 1), (13, 3), (20, 44)]
  else if i = 6 || i = 10 || i = 11 then []
  else if i = 9 then [(25, 39)]
  else [(0, 64)]

/-- A queue descriptor (17 R355). -/
structure QDesc where
  handle : Nat
  records : Nat
  producers : Nat
  lawful : Bool
  /-- its four words -/
  words : List Dword := []
  deriving DecidableEq, Repr

namespace QDesc
def index (q : QDesc) : Nat := q.handle % 2048
def isD (q : QDesc) : Bool := q.handle / 2048 % 2 == 1
def owner (q : QDesc) : Nat := q.handle / 4096
/-- Bytes of its owner's queue region (14 R294). -/
def bytes (q : QDesc) : Nat := if q.isD then 40960 else 32 * q.records
end QDesc

def powerOfTwo (n lo hi : Nat) : Bool := (List.range 20).any (fun i => n == 2 ^ i) && decide (lo ≤ n) && decide (n ≤ hi)

namespace State

/-- A queue descriptor at a device address, with whether it keeps the ranges of 17 R355. -/
def queueDesc (s : State) (tiles : List Nat) (a : Nat) : QDesc :=
  let d0 := s.dword a
  let d1 := s.dword (a + 8)
  let h := field d0 0 32
  let q : QDesc := {
    handle := h, records := field d0 32 32, producers := field d1 16 16, lawful := true
    words := [d0, d1, s.dword (a + 16), s.dword (a + 24)] }
  { q with lawful :=
      field d1 0 16 == 0 && field d1 32 32 == 0 && s.dword (a + 16) == 0 && s.dword (a + 24) == 0 && tiles.contains q.owner &&
      (if q.isD then q.records == 0 && decide (1 ≤ q.producers) else q.producers == 0 && powerOfTwo q.records 16 65536) }

/-- The queue descriptors of a record. -/
def descs (s : State) (l : Launch) : List QDesc :=
  if l.word 8 = 0 then []
  else (List.range (min l.nQueue 4096)).map (fun i => s.queueDesc l.rect ((l.word 8).toNat + 32 * i))

/-- The valid task types of a record, in ascending index (11 R231). -/
def types (s : State) (l : Launch) : List TaskType :=
  if l.word 7 = 0 then []
  else
    ((List.range 32).map (fun i =>
      TaskType.of (s.dword ((l.word 7).toNat + 16 * i)) (s.dword ((l.word 7).toNat + 16 * i + 8)))).filter (·.valid)

end State

/-! ## Validation (15 R311, R312) -/

/-- A completion's status, resource, limit and tile. -/
structure Verdict where
  status : Nat
  resource : Nat := 0
  limit : Nat := 0
  tile : Nat := Config.noTile
  deriving DecidableEq, Repr

def invalidAt (off : Nat) : Verdict := { status := 3, resource := off }

/-- Offsets of the fields that fail check 1. -/
def State.badFields (s : State) (l : Launch) : List Nat :=
  let reserved := (List.range 32).flatMap (fun i => (reservedFields i).filterMap (fun f =>
    let v := field (l.word i) f.1 f.2
    if v = 0 then none else some (8 * i + (f.1 + trailingZeros v 0 64) / 8)))
  let ds := s.descs l
  let handles := ds.map (·.handle)
  let bound := (s.types l).any (fun t => t.qbound && !handles.contains t.handle.toNat)
  reserved ++ (if l.lid = 0 then [0x00] else []) ++ (if 4 < l.ndep then [0x06] else []) ++
  (if l.nThreads = 0 || 64 < l.nThreads then [0x28] else []) ++ (if l.nThreads < l.coreSlots then [0x29] else []) ++
  (if 8 < l.vregs then [0x2A] else []) ++ (if bound then [0x38] else []) ++
  (if ds.any (fun q => !q.lawful) || handles.eraseDups.length != handles.length then [0x40] else []) ++
  (if 4096 < l.nQueue then [0x48] else []) ++ (if 256 * 65536 < l.pool then [0x4A] else [])

def roundUp64K (n : Nat) : Nat := (n + 65535) / 65536 * 65536
/-- The Hutch ring, the fall-out buffer and supervisor space (14 R294). -/
def fixedRegions : Nat := (64 + 256 + 1024) * 1024

namespace State

/-- Bytes of a tile's queue region, and the stage threads it owns. -/
def queueBytes (s : State) (l : Launch) (t : Nat) : Nat :=
  roundUp64K (((s.descs l).filter (fun q => q.owner == t)).map (·.bytes)).sum
def stages (s : State) (l : Launch) (t : Nat) : List TaskType :=
  (s.types l).filter (fun ty => ty.qbound && handleOwner ty.handle == t)

/-- The first tile that fails a check, with its verdict. -/
def firstFailing (tiles : List Nat) (bad : Nat → Bool) (v : Nat → Verdict) : Option Verdict := (tiles.find? bad).map v

/-- The checks of 15 R312 in order; none where all pass. -/
def verdict (s : State) (l : Launch) : Option Verdict :=
  let bad := s.badFields l
  let rect := l.rect
  let inGrid := decide (1 ≤ l.pw) && decide (1 ≤ l.ph) && decide (l.px + l.pw ≤ Config.gridW) && decide (l.py + l.ph ≤ Config.gridH)
  let inPod := decide (1 ≤ l.mcount) && decide (l.mbase + l.mcount ≤ 16) && decide (l.mbase + l.mcount ≤ s.podSize)
  let use := rect.filter (fun t => !l.matrix || (s.tile t).hasTrestle)
  let core := fun (t : Nat) => ((List.range 4).map (s.tile t).coreSlots).foldl max 0
  let slots := fun (t : Nat) => ((List.range 4).map (s.tile t).coreSlots).sum
  if !bad.isEmpty then some (invalidAt (bad.foldl min 256))
  else if !inGrid || (inPod && rect.any (fun t => !s.reachable t)) then some (invalidAt 0x18)
  else if !inPod then some (invalidAt 0x1C)
  else if use.isEmpty then some (invalidAt 0x05)
  else
    (firstFailing use (fun t => decide (core t < l.coreSlots)) (fun t => { status := 1, resource := 1, limit := core t, tile := t })).or
    ((if l.vregs = 0 && (s.types l).all (fun ty => ty.vregs == 0) then none
      else firstFailing use (fun t => (s.tile t).laneGroups.isEmpty) (fun t => { status := 1, resource := 4, tile := t })).or
    ((firstFailing use (fun t => decide (slots t < l.nThreads + (s.stages l t).length))
        (fun t => { status := 2, resource := 2, limit := slots t, tile := t })).or
    ((if (s.types l).any (fun ty => decide (l.pool < ty.scratch)) then
        some { status := 2, resource := 3, limit := l.pool, tile := use.headD Config.noTile } else none).or
      (firstFailing use (fun t => decide (Config.sramBytes < l.pool + s.queueBytes l t + fixedRegions))
        (fun t => { status := 2, resource := 5, limit := Config.sramBytes, tile := t })))))

/-! ## Dependences and the head gang (15 R313 to R315, 19 R404) -/

/-- Where a dependence stands: true satisfied, false failed, none still held. -/
def depState (s : State) (md : Nat) (d : Nat) : Option Bool :=
  let m := s.module md
  match m.done.find? (fun e => e.1 == d) with
  | some e => some (e.2 == 0)
  | none => if m.launches.any (fun l => l.st != .submitted && l.lid == d) then none else some true

/-- The lowest failing dependence of a record. -/
def depFails (s : State) (md : Nat) (l : Launch) : Option Nat :=
  (List.range l.ndep).find? (fun i => s.depState md (l.dep i) == some false)

/-- A launch of the same address space is placed, or waits from before in some module of the pod. -/
def asidHeld (s : State) (md : Nat) (l : Launch) : Bool :=
  (s.launchOf l.asid).isSome ||
  ((s.module md).launches.takeWhile (fun x => x != l)).any (fun x => x.st == .waiting && x.asid == l.asid) ||
  s.mods.any (fun e => e.1 != md && e.2.launches.any (fun x =>
    x.st == .waiting && x.asid == l.asid && (decide (x.at_ < l.at_) || (x.at_ == l.at_ && decide (e.1 < md)))))

def depsMet (s : State) (md : Nat) (l : Launch) : Bool :=
  (List.range l.ndep).all (fun i => s.depState md (l.dep i) == some true) && !s.asidHeld md l

/-- Records become eligible, or are held again, and the head gang is found anew: the highest PRIO, then the earliest submission. -/
def settle (s : State) (md : Nat) : State :=
  let m := s.module md
  let ls := m.launches.map (fun l =>
    if l.st == .waiting then { l with eligibleAt := if s.depsMet md l then some (l.eligibleAt.getD s.time) else none } else l)
  let ready := ls.filter (fun l => l.st == .waiting && l.eligibleAt.isSome)
  let top := ready.find? (fun l => ready.all (fun x => decide (x.prio ≤ l.prio)))
  let head := match top with
    | some l => if (m.head.map (·.1)) == some l.lid then m.head else some (l.lid, s.time)
    | none => none
  s.setModule md { m with launches := ls, head := head, fenced := m.fenced && (head == m.head) }

/-- The Bureau looks at what waits in every module: a launch of one may hold those of another (19 R404). -/
def settleAll (s : State) : State := (s.mods.map (·.1)).foldl settle s

/-! ## The end of a launch (15 R311, R317, R318, 19 R405) -/

/-- Words written by the Bureau at a device address. -/
def bureauWrite (s : State) (a : Nat) (ws : List Dword) : State := s.putWords a ws

/-- Everything of an address space leaves the tiles of a partition, the save areas, the fabric and its tree nodes. -/
def clearPartition (s : State) (asid : Nat) (tiles : List Nat) : State :=
  let s := { s with
    tiles := s.tiles.map (fun (e : Nat × Tile) => (e.1, { e.2 with nodes := e.2.nodes.filter (fun n => n.1 % 256 != asid) }))
    episodes := s.episodes.filter (fun (e : Members) => e.asid != asid) }
  let s := tiles.foldl (fun s t => s.mapTile t (fun tl =>
    let tl := if tl.resident asid then { tl.freed with
      vc := { tl.vc with misses := tl.vc.misses.map (fun (m : Miss) => { m with out := [] }) } } else tl
    { tl with nrspill := tl.nrspill.filter (fun p => p.asid != asid) })) s
  { s with
    saved := s.saved.filter (fun x => x.asid != asid)
    net := s.net.filter (fun p => p.body.ofHost || p.asid != asid)
    hostWait := s.hostWait.filter (fun op => op.asid != asid) }

/-- A launch ends: its tiles are freed, its completion record is written once, its port is told, and the Bureau looks at what waits. One that
has not been placed touches no tile (15 R312, R313). -/
def endLaunch (s : State) (md : Nat) (l : Launch) (v : Verdict) : State :=
  let s := if l.placed then s.clearPartition l.asid l.tiles else s
  let a := (l.word 12).toNat
  let rec_ := [BitVec.ofNat 64 (v.limit % 2 ^ 32 * 2 ^ 32 + v.resource % 256 * 65536 + v.status),
    BitVec.ofNat 64 (min l.threads (2 ^ 32 - 1) * 2 ^ 32 + l.lid), BitVec.ofNat 64 s.time, BitVec.ofNat 64 v.tile]
  let s := if s.reachable (devTile a) then s.bureauWrite a rec_ else s
  let m := s.module md
  let s := s.setModule md { m with launches := m.launches.erase l, done := ((l.lid, v.status) :: m.done).take 4096 }
  (s.signal md 0 [l.port]).settleAll

/-- Queues of a tile that are not quiescent: a plain queue with records, or a D-queue whose final round is not released with nothing
pending. -/
def residueOf (tl : Tile) : Nat :=
  (tl.queues.filter (fun e => !e.2.ring.isEmpty)).length +
  (tl.dqueues.filter (fun e => !(e.2.finalDone && e.2.window.isEmpty && e.2.ring.isEmpty && e.2.rel.isNone))).length

/-- The same over a partition, resident or saved. -/
def residue (s : State) (l : Launch) : Nat :=
  (l.tiles.map (fun t =>
    match s.saved.find? (fun x => x.name == t && x.asid == l.asid) with
    | some x => residueOf x.tile
    | none => if (s.tile t).resident l.asid then residueOf (s.tile t) else 0)).sum

end State

/-- What belongs to a Bookend does not delay completion. -/
def Origin.ofThread : Origin → Bool
  | .thread _ _ _ => true
  | _ => false

/-- A posted operation, a copy or a message of a thread. -/
def Payload.delays : Payload → Bool
  | .posted op => op.origin.ofThread
  | .ack o _ => o.ofThread
  | .quotaSub => true
  | .wake _ _ o => (o.map Origin.ofThread).getD false
  | .copyRead x => x.origin.ofThread
  | .copyData x => x.origin.ofThread
  | .copyCount x => x.origin.ofThread
  | _ => false

namespace State

/-- The drain of 15 R317 has finished at every tile: posted operations are acknowledged, the engines' queues are empty, and nothing waits
in a fault buffer. -/
def drainedLaunch (s : State) (l : Launch) : Bool :=
  l.tiles.all (fun t =>
    let tl := s.tile t
    tl.resident l.asid && s.unitsRun t && tl.copies.isEmpty && tl.trestle.queue.isEmpty && tl.trestle.running.isNone &&
    tl.faultBuf.all (fun e => e.p.asid != l.asid) && tl.walks.all (fun w => w.uses.isEmpty) && tl.resend.isEmpty &&
    tl.cores.all (fun e => e.2.sb.isEmpty && e.2.loading.isNone) && tl.hutch.isEmpty &&
    tl.vc.misses.all (fun m => m.out.all (fun x => !x.p.body.delays))) &&
  s.net.all (fun p => p.asid != l.asid || !p.body.delays) &&
  s.hostWait.all (fun op => op.asid != l.asid || !op.origin.ofThread) &&
  s.dword (sramAt (l.tiles.headD 0) countOffset) == 0

/-! ## Placement (15 R314 to R316) -/

/-- The tiles that a launch's record names are free, powered and booted, and no power excursion holds placement in their modules (20 R424). -/
def tilesFree (s : State) (l : Launch) : Bool :=
  l.rect.all (fun t => !(s.tile t).segValid && s.reachable t && (s.module (Config.nameM t)).booted && s.powered (Config.nameM t) &&
    !(s.module (Config.nameM t)).placeHeld)

/-- A gang could be placed now: its tiles are free, nothing holds its placement, and the fence of another head does not shut it out. -/
def placeable (s : State) (md : Nat) (l : Launch) : Bool :=
  let m := s.module md
  let fenced := match m.head with
    | some (lid, _) => m.fenced && lid != l.lid &&
        (match m.launches.find? (fun x => x.st == .waiting && x.lid == lid) with
          | some h => l.rect.any h.rect.contains
          | none => false)
    | none => false
  l.st == .waiting && l.eligibleAt.isSome && !s.asidHeld md l && !m.placeHeld && s.powered md && s.tilesFree l && !fenced

/-- Some record that goes before another in head order could be placed. -/
def earlierPlaceable (s : State) (md : Nat) (l : Launch) : Bool :=
  let ls := (s.module md).launches
  ls.any (fun x => decide (l.prio < x.prio) && s.placeable md x) ||
  (ls.takeWhile (fun x => x != l)).any (fun x => x.prio == l.prio && s.placeable md x)

/-- Records of a D-queue's spill ring when its owner holds n of them (17 R357). -/
def spillRing (n : Nat) : Nat := 2 ^ Nat.log2 (524288 / max n 1)

/-- A new thread of a launch (15 R316, 11 R232, 01 R43). -/
def launchThread (l : Launch) (pc : CodeAddr) (prio vregs : Nat) (arg : Dword) (tid : Nat) : Thread :=
  { st := .ready, pc := pc, prio := BitVec.ofNat 2 prio, asid := BitVec.ofNat 8 l.asid, tid := BitVec.ofNat 32 tid
    g := [(1, arg), (2, 0xFFFFFFFF)], vregs := vregs }

/-- The contexts that a tile starts with: initial threads, then stage threads, their sequence numbers rising from 0 (26 R443). -/
def firstContexts (s : State) (l : Launch) (t : Nat) : List Ctx :=
  let tl := s.tile t
  let n := if l.matrix && !tl.hasTrestle then 0 else l.nThreads
  let core := (List.range 4).find? (fun c => decide (l.coreSlots ≤ tl.coreSlots c))
  let initial := (List.range n).map (fun i =>
    let th := launchThread l ((l.word 4).truncate 48 &&& 0xFFFFFFFFFFFE) l.prio l.vregs (l.word 6) (t * 4096 + i)
    ({ th := th, core := if i < l.coreSlots then core else none } : Ctx))
  let stage := ((s.stages l t).zipIdx).map (fun e =>
    let th := launchThread l e.1.entry e.1.prio.toNat e.1.vregs e.1.handle (t * 4096 + n + e.2)
    ({ th := th, scratchNeed := e.1.scratch } : Ctx))
  initial ++ stage

/-- The Bureau reads what a record names: its segment table, task types and queue descriptors (14 R298). -/
def readTables (s : State) (l : Launch) : State :=
  ((s.decodeRange (l.word 1).toNat 288).decodeRange (l.word 7).toNat (if l.word 7 = 0 then 0 else 512)).decodeRange (l.word 8).toNat
    (if l.word 8 = 0 then 0 else 32 * min l.nQueue 4096)

/-- The words of a tile's memory are full at launch (06 R132). -/
def fillTags (s : State) (t : Nat) : State :=
  { s with empties := s.empties.filter (fun a => !(decide (sramAt t 0 ≤ a) && decide (a < sramAt t 0 + Config.sramBytes))) }

/-- The descriptors of a tile's queues: a D-queue's in its state block, and a plain queue's where its ring begins, which is empty then (15 R308,
17 R356; DESIGN CHOICE, log 35). -/
def putDescriptors (s : State) (t : Nat) (ds : List QDesc) : State :=
  ds.foldl (fun s q => s.bureauWrite (sramAt t (if q.isD then (s.tile t).windowBase q.index + 0x9000 else (s.tile t).plainBase q.index))
    q.words) s

/-- Placement at one tile: the segment table, TL_SEGTAB, TL_TASKTAB and TL_SCRATCH, the regions, full words, the task types, the queues with
their descriptors, a TL_HBARCNT of 0 (24 R435), the Trestle's numbers from 0 (10 R219), cleared counters (26 R442) and the sequence numbers. -/
def placeTile (s : State) (l : Launch) (t : Nat) : State :=
  let table := s.dwords (l.word 1).toNat 36
  let types := (List.range 64).map (fun i => if l.word 7 = 0 then 0 else s.dword ((l.word 7).toNat + 8 * i))
  let ds := (s.descs l).filter (fun q => q.owner == t)
  let n := (ds.filter (·.isD)).length
  let staged := fun (q : QDesc) => (s.types l).any (fun ty => ty.qbound && ty.handle.toNat == q.handle)
  let base := Config.sramBytes - fixedRegions - s.queueBytes l t - l.pool
  let count := (s.firstContexts l t).length
  let s := s.mapTile t (fun tl =>
    let tl := ({ tl.freed with segValid := true, asid := BitVec.ofNat 8 l.asid } : Tile).loadTable table l.rect.contains
    { tl with
      quota := BitVec.ofNat 32 (field (l.word 2) 0 32)
      tasktab := 0x1730000
      scratchReg := BitVec.ofNat 64 (l.pool * 2 ^ 32 + base)
      hbarcnt := 0
      trestle := {}
      ct := []
      residentAt := s.time
      live := List.range count
      lastSeq := (count + 4095) % 4096
      queues := (ds.filter (fun q => !q.isD)).foldl (fun (x : Tab PlainQueue) q => x.set q.index { size := q.records }) []
      dqueues := (ds.filter (·.isD)).foldl (fun (x : Tab DQueue) q =>
        x.set q.index { producers := q.producers, ringSize := spillRing n, staged := staged q }) [] })
  (((s.fillTags t).bureauWrite (sramAt t 0x1730000) types).putDescriptors t ds).readRoots t

/-- A tile's first contexts are admitted to the Hutch's spawn class, in TID order. -/
def admitFirst (s : State) (t : Nat) (cs : List Ctx) : State := cs.foldl (fun s c => (s.admitCtx t .spawned c).1) s

/-- A whole gang is placed in one step. -/
def place (s : State) (md : Nat) (l : Launch) : State :=
  let tiles := l.rect
  let s := s.readTables l
  let cs := tiles.map (fun t => (t, s.firstContexts l t))
  let n := (cs.map (fun e => e.2.length)).sum
  let s := tiles.foldl (fun s t => s.placeTile l t) s
  let s := s.bureauWrite (sramAt (tiles.headD 0) countOffset) [BitVec.ofNat 64 n]
  let s := cs.foldl (fun s e => s.admitFirst e.1 e.2) s
  (s.mapLaunch md (fun x => x == l) (fun x => { x with st := .resident, threads := n, tiles := tiles })).settleAll

/-! ## Finding a launch -/

/-- A validated launch of a module by its LID. -/
def launchBy (s : State) (md lid : Nat) : Option Launch :=
  (s.module md).launches.find? (fun l => l.st != .submitted && l.lid == lid)

end State

/-! ## The events -/

/-- A launch of a list, the first of its like, replaced in its place. -/
def replaceFirst (x y : Launch) : List Launch → List Launch
  | [] => []
  | l :: rest => if l = x then y :: rest else l :: replaceFirst x y rest

/-- MG_LQTAIL (19 R403, R404): new records stand in the order of submission, port A before port B of one cycle. They are
submitted once every earlier write of the port has been performed; a tail behind, or too far ahead, is discarded and sets
LQERR. -/
def execMgLqtail (md port : Nat) (val : BitVec 64) (s : State) : Out :=
  let m := s.module md
  let x := m.ports.get {} port
  let writing := s.net.any (fun p => match p.body with
    | .posted op => (match op.origin with
      | .host h q _ => h == md && q == port
      | _ => false)
    | _ => false)
  if !m.booted || m.frozen || m.poweredOff || writing then .next s
  else if val.toNat < x.lqtail.toNat || x.lqhead.toNat + x.lqsize.toNat < val.toNat then
    .next (s.setModule md { m with status := m.status ||| 2 })
  else
    let new := (List.range (val.toNat - x.lqtail.toNat)).map (fun _ =>
      ({ words := [], port := port, at_ := s.time, st := .submitted } : Launch))
    let later := fun (l : Launch) => decide (s.time < l.at_) || (l.at_ == s.time && decide (port < l.port))
    .next (s.setModule md { m with
      ports := m.ports.set port { x with lqtail := val }
      launches := m.launches.filter (fun l => !later l) ++ new ++ m.launches.filter later })

/-- The submitted record that is next: the earliest time, then port A; a port that is down or has no ring keeps its own. -/
def Module.nextSubmitted (m : Module) : Option Launch :=
  let ls := m.launches.filter (fun l => l.st == .submitted && (m.ports.get {} l.port).up && (m.ports.get {} l.port).lqsize != 0)
  ls.find? (fun l => ls.all (fun x => decide (l.at_ < x.at_) || (l.at_ == x.at_ && decide (l.port ≤ x.port))))

/-- LAUNCH_VALIDATE (15 R312): the Bureau copies the next record and makes its checks; one that fails completes. -/
def execLaunchValidate (md : Nat) (s : State) : Out :=
  let m := s.module md
  match m.nextSubmitted with
  | none => .next s
  | some l =>
    if !m.booted || m.frozen || m.poweredOff then .next s
    else
      let x := m.ports.get {} l.port
      let a := x.lqbase.toNat + 256 * (x.lqhead.toNat % x.lqsize.toNat)
      let s := s.decodeRange a 256
      let m := s.module md
      let l' : Launch := { l with words := s.dwords a 32, st := .waiting }
      let s := (s.setModule md { m with
        ports := m.ports.set l.port { x with lqhead := x.lqhead + 1 }, launches := replaceFirst l l' m.launches }).readTables l'
      .next (match s.verdict l' with
        | some v => s.endLaunch md l' v
        | none => s.settle md)

/-- LAUNCH_PLACE (15 R314, R316): an eligible gang is placed whole, if no record before it in head order could be. -/
def execLaunchPlace (md lid : Nat) (s : State) : Out :=
  match s.launchBy md lid with
  | none => .next s
  | some l => if s.placeable md l && !s.earlierPlaceable md l then .next (s.place md l) else .next s

/-- BACKFILL_FENCE (15 R315): the head has been eligible and unplaced for 18,000,000 cycles. -/
def execBackfillFence (md : Nat) (s : State) : Out :=
  let m := s.module md
  match m.head with
  | some (_, since) => if since + 18000000 ≤ s.time && s.powered md then .next (s.setModule md { m with fenced := true }) else .next s
  | none => .next s

/-- LAUNCH_COMPLETE: a launch that has drained (15 R317), one whose dependence failed (R313), or one that the host has stopped and that
is saved (19 R405). -/
def execLaunchComplete (md lid : Nat) (s : State) : Out :=
  match if s.powered md then s.launchBy md lid else none with
  | none => .next s
  | some l =>
    if l.st = .waiting then
      match s.depFails md l with
      | some i => .next (s.endLaunch md l { status := 4, resource := i, limit := l.dep i })
      | none => .next s
    else if l.st = .saved && l.aborting then .next (s.endLaunch md l { status := 7, limit := s.residue l })
    else if l.st = .resident && s.drainedLaunch l then
      let n := s.residue l
      .next (s.endLaunch md l { status := if n = 0 then 0 else 6, limit := n })
    else .next s

/-- MG_ABORT (19 R405): a waiting launch is removed at once, a resident one is first stopped by a gang switch; a LID that names none sets
LQERR. -/
def execMgAbort (md port : Nat) (val : BitVec 64) (s : State) : Out :=
  let m := s.module md
  if !m.booted || m.frozen || m.poweredOff || decide (2 ≤ port) then .next s
  else
    match s.launchBy md (field val 0 32) with
    | none => .next (s.setModule md { m with status := m.status ||| 2 })
    | some l =>
      if l.st = .waiting then .next (s.endLaunch md l { status := 7 })
      else if l.st = .saved then .next (s.endLaunch md l { status := 7, limit := s.residue l })
      else .next ((s.mapLaunch md (fun x => x == l) (fun x => { x with aborting := true })).preempt l.asid)

end Sys2Proof.Machine
end

