-- ==== Sys2Proof/Machine/Repair.lean ====
section
/-! DEFINITION. Failing units and repair: the scrubber, the retirement log, retirement, names that move, dead links and routers,
stranded tiles, tile reset, and the save that ends a gang stop (14 R298 to R301, 16 R350, 18 R390 to R394, 20 R417 to R421,
21 R426). -/
namespace Sys2Proof.Machine

/-! ## A name moves to a spare (18 R392) -/

/-- The next timebase value at least 8,192 ahead whose bits 15:0 are 0x8000. -/
def switchTime (now : Nat) : Nat := now + 8192 + (0x18000 - (now + 8192) % 65536) % 65536

/-- Both routers of a site work and lie in the module's host component. -/
def State.siteWorks (s : State) (md c r : Nat) : Bool := s.onePiece md || !stranded (s.hostComponent md) md c r

/-- A free working site of a name's field: of its own column, else of the lowest column, the lowest in each. -/
def State.spare (s : State) (t : Nat) : Option (Nat × Nat) :=
  let md := Config.nameM t
  let m := s.module md
  let fx := Config.nameX t / 8
  let fy := Config.nameY t / 8
  let m' := { m with exc := m.nextExc }
  let cols := Config.nameX t :: (List.range 8).map (fun c => 8 * fx + c)
  (cols.flatMap (fun c => (List.range 9).map (fun r => (c, 9 * fy + r)))).find? (fun x =>
    !m.bootDead.contains (siteNo x.1 x.2) && !m.gone.contains (siteNo x.1 x.2) && (m'.nameAt md x.1 x.2).isNone &&
    s.siteWorks md x.1 x.2)

namespace State

/-- Launches that hold some tiles, resident or saved. -/
def holding (s : State) (tiles : List Nat) : List (Nat × Launch) :=
  s.mods.flatMap (fun e => (e.2.launches.filter (fun l => l.placed && l.tiles.any tiles.contains)).map (fun l => (e.1, l)))

/-- Partitions that lose a tile are stopped and complete with PARTITION_SEVERED, naming the lowest (15 R318). -/
def sever (s : State) (tiles : List Nat) : State :=
  (s.holding tiles).foldl (fun s e =>
    s.endLaunch e.1 e.2 { status := 5, tile := (e.2.tiles.filter tiles.contains).headD Config.noTile }) s

/-- Saved partitions with a tile that is to move resume 8,192 cycles after the switch at the earliest (21 R426). -/
def delayResume (s : State) (at_ : Nat) : State :=
  { s with mods := s.mods.map (fun (e : Nat × Module) => (e.1, { e.2 with
      launches := e.2.launches.map (fun l =>
        if l.tiles.any s.moving then { l with resumeAt := l.resumeAt.map (max (at_ + 8192)) } else l) })) }

/-- A retired tile's name takes a spare site of its field from the switch time on, or is absent (18 R392). Its memory is copied, so it
keeps its device addresses. -/
def moveName (s : State) (t : Nat) : State :=
  let md := Config.nameM t
  let m := s.module md
  let x := Config.nameX t
  let y := Config.nameY t
  let f := y / 8 * 12 + x / 8
  let old := match m.site t with
    | some o => siteNo o.1 o.2
    | none => 0
  let others := (m.nextExc.get [] f).filter (fun e => e.v && !(e.lx == x % 8 && e.ly == y % 8))
  match s.spare t with
  | some (c, r) =>
    if others.length < 8 then
      let exc := m.nextExc.set f (others ++ [{ lx := x % 8, ly := y % 8, col := c % 8, site := r % 9 }])
      let at_ := match m.nameSwitch with
        | some (w, _) => max w (switchTime s.time)
        | none => switchTime s.time
      let s := s.setModule md { m with
        nameSwitch := some (at_, exc), gone := m.gone ++ [old], forward := (old, t) :: m.forward }
      (s.mapTile t (fun tl => { tl with
        slotsReg := m.slotsOf c r, failedBank := m.bankOf c r, corrections := [], scrubPos := 0, errs := [], pipe := {}, vc := {}
        ejectClosed := false })).delayResume at_
    else (s.setModule md { m with absent := m.absent ++ [t], gone := m.gone ++ [old] }).sever [t]
  | none => (s.setModule md { m with absent := m.absent ++ [t], gone := m.gone ++ [old] }).sever [t]

/-! ## A retirement takes effect (20 R419) -/

/-- A unit of a tile is logged and taken out of service. -/
def retireUnit (s : State) (t unit idx src : Nat) : State :=
  let md := Config.nameM t
  match s.site t with
  | none => s
  | some (c, r) =>
    let s := ((s.logRetire md c r unit idx src).bb t 12 unit).signal md 4
    if unit = 4 then s.moveName t
    else s.mapTile t (fun tl => { tl with slotsReg := (s.module md).slotsOf c r, failedBank := (s.module md).bankOf c r })

/-- The retirements whose tiles hold no resident partition take effect, and those that a full log then adds. -/
def applyRound (s : State) (md : Nat) : State :=
  let m := s.module md
  let due := m.retiring.filter (fun e => !(s.tile e.1).segValid)
  let s := s.setModule md { m with retiring := m.retiring.filter (fun e => (s.tile e.1).segValid) }
  due.foldl (fun s e => s.retireUnit e.1 e.2.1 e.2.2.1 e.2.2.2) s

/-- Retirements take effect until none is left whose tile holds no partition. -/
def applyAll (s : State) (md : Nat) : Nat → State
  | 0 => s
  | fuel + 1 =>
    if (s.module md).retiring.all (fun e => (s.tile e.1).segValid) then s else (s.applyRound md).applyAll md fuel

def applyDue (s : State) (md : Nat) : State := s.applyAll md ((s.module md).retiring.length + 2)

/-! ## The end of a save (16 R350, R352, 20 R419, 21 R426) -/

/-- When a saved partition resumes: 8,192 cycles ahead, counted from a name switch that is set. -/
def resumeTime (s : State) (tiles : List Nat) : Nat :=
  (tiles.map (fun t => match (s.module (Config.nameM t)).nameSwitch with
    | some (w, _) => w
    | none => s.time)).foldl max s.time + 8192

/-- Once every tile is saved, retirements are applied and the resume time is set, unless the launch is aborted or placement is held. -/
def allSaved (s : State) (asid : Nat) : State :=
  match s.launchOf asid with
  | none => s
  | some (md, l) =>
    if !l.tiles.all (fun t => s.savedAt t asid) then s
    else
      let s := s.mapLaunch md (fun x => x == l) (fun x => { x with st := .saved })
      let s := (l.tiles.map Config.nameM).eraseDups.foldl (fun s n => s.applyDue n) s
      let at_ := if l.aborting || l.tiles.any (fun t => (s.module (Config.nameM t)).placeHeld) then none else some (s.resumeTime l.tiles)
      s.mapLaunch md (fun x => x.placed && x.asid == asid) (fun x => { x with resumeAt := at_ })

end State

/-- GANG_SAVE: once every tile of the partition is parked, a tile's state is saved (16 R350). -/
def execGangSave (t : Nat) (s : State) : Out :=
  let tl := s.tile t
  let asid := tl.asid.toNat
  if !tl.segValid || tl.gang != .stopped || !s.allParked asid then .next s
  else .next ((s.saveTile t).allSaved asid)

/-- MG_RETIRE (19 R400, 20 R419): a port that does not hold semaphore 0 only sets SEMERR; a name, unit or index that names nothing is
discarded. -/
def execMgRetire (md port : Nat) (val : BitVec 64) (s : State) : Out :=
  let m := s.module md
  let t := field val 0 20
  let unit := field val 20 4
  let idx := field val 24 4
  let names := if unit = 0 then decide (idx < 16) else if unit = 1 || unit = 2 then decide (idx < 4) else decide (unit ≤ 4)
  if !m.booted || m.frozen || m.poweredOff then .next s
  else if m.sems.get (false, 0) 0 != (true, port) then .next (s.setModule md { m with status := m.status ||| 1 })
  else if !s.reachable t || Config.nameM t ≠ md || !names then .next s
  else .next ((s.retireSoon t unit (if unit = 3 || unit = 4 then 0 else idx) 0).applyDue md)

/-! ## The scrubber (14 R298 to R301) -/

/-- SCRUB_READ: the scrubber reads the next line of its pass. `seen` tells of a soft error of the line that has not been met before. A pass
begins at line 0. -/
def execScrubRead (t line : Nat) (seen : LineRead) (s : State) : Out :=
  if line ≠ (s.tile t).scrubPos || !s.powered (Config.nameM t) then .next s
  else
    let s := if line = 0 then s.mapTile t (fun tl => { tl with corrections := [] }) else s
    let s := if seen.isEmpty then s else s.strike t line { seen := seen }
    let s := s.mapTile t (fun tl => { tl with scrubPos := (line + 1) % 393216 })
    .next ((s.decode t line).applyDue (Config.nameM t))

/-! ## Dead links and routers (18 R390, R393) -/

/-- Names of a module that have a site none of whose routers reaches the host, or only one of which does. -/
def State.strandedNames (s : State) (md : Nat) : List Nat :=
  if s.onePiece md then []
  else
  let comp := s.hostComponent md
  let names := (List.range Config.gridW).flatMap (fun x => (List.range Config.gridH).map (fun y => Config.tileName md x y))
  names.filter (fun n => match s.site n with
    | some (c, r) => stranded comp md c r
    | none => false)

/-- Stranded tiles are retired as a group, and the partitions that lose one are severed. -/
def State.strand (s : State) (md : Nat) : State :=
  let lost := s.strandedNames md
  if lost.isEmpty then s
  else
    let s := lost.foldl (fun s n => match s.site n with
      | some (c, r) => s.logRetire md c r 4 0 3
      | none => s) s
    let m := s.module md
    let sites := lost.filterMap (fun n => (s.site n).map (fun x => siteNo x.1 x.2))
    let s := s.setModule md { m with absent := m.absent ++ lost, gone := m.gone ++ sites }
    (((lost.foldl (fun s n => s.bb n 12 4) s).signal md 4).report md 4 (lost.headD 0)).sever lost

def State.strandAll (s : State) : State := (List.range s.podSize).foldl (fun s md => if (s.module md).booted then s.strand md else s) s

/-- Firmware's repair of a module: the trees, the drain circuit and the detour entries from what works now, and then the stranded tiles (20
R421). -/
def State.repair (s : State) (md : Nat) : State :=
  (s.setModule md (({ s.module md with repairAt := none } : Module).rerouted md)).strandAll

/-- A repair is to come: the new tables take effect at the switch time (20 R421). -/
def State.repairSoon (s : State) (md : Nat) : State :=
  let m := s.module md
  s.setModule md { m with repairAt := some (switchTime s.time) }

/-- LINK_FAILURE: 16 retries have failed, and the link is dead in both directions. `site` numbers the router, 2 per site. -/
def execLinkFailure (md site port : Nat) (s : State) : Out :=
  match s.linkTo md site port with
  | none => .next s
  | some (md', r') =>
    let m := s.module md
    let s := s.setModule md { m with deadLinks := m.deadLinks ++ [(site, port)] }
    let m' := s.module md'
    let s := s.setModule md' { m' with deadLinks := m'.deadLinks ++ [(r', farPort port)] }
    .next ((s.repairSoon md).repairSoon md')

/-- ROUTER_FAILURE: the router and its links are dead, and the failure is logged (20 R417). -/
def execRouterFailure (md site plane : Nat) (s : State) : Out :=
  let m := s.module md
  let r := 2 * site + plane
  if !m.routerUp r || routerCount ≤ r || 2 ≤ plane then .next s
  else
    let s := (s.setModule md { m with deadRouters := m.deadRouters ++ [r] }).repairSoon md
    let s := (s.logRetire md (site % 96) (site / 96) 5 plane 1).signal md 4
    .next (match s.nameAt md (site % 96) (site / 96) with
      | some t => s.bb t 12 5
      | none => s)

/-- A packet that its router has steered toward the former site of a name goes on to that site, which forwards it (06 R140, 18 R392). -/
def Packet.followOld (p : Packet) (md : Nat) (moves : List (Nat × Nat)) : Packet :=
  if p.md != md || p.uninjected || p.aim.isSome then p
  else
    match moves.find? (fun e => e.2 == p.dst) with
    | some e =>
      if siteNo p.col p.row = e.1 then { p with steered := true } else { p with aim := some (e.1 % 96, e.1 / 96) }
    | none => p

/-- The name tables of a switch whose time has come are in force. -/
def State.switchNames (s : State) (md : Nat) : State :=
  let m := s.module md
  match m.nameSwitch with
  | none => s
  | some (at_, exc) =>
    if s.time < at_ then s
    else
      let moves := m.forward.filter (fun e => (m.site e.2).map (fun x => siteNo x.1 x.2) == some e.1)
      let s := s.setModule md { m with exc := exc, nameSwitch := none, switchedAt := s.time }
      { s with net := s.net.map (fun p => p.followOld md moves) }

/-- NAME_TABLE_SWITCH: at the agreed value all routers take the new tables (18 R392): of names, and those of a repair (20 R421). -/
def execNameTableSwitch (md : Nat) (s : State) : Out :=
  if !s.powered md then .next s
  else
    let s := s.switchNames md
    .next (match (s.module md).repairAt with
      | some at_ => if s.time < at_ then s else s.repair md
      | none => s)

/-! ## Tile reset (18 R394) -/

/-- TILE_RESET: the tile's units start afresh; what it was injecting goes on as padding; what comes for it waits. -/
def execTileReset (t : Nat) (s : State) : Out :=
  if !s.reachable t || !s.powered (Config.nameM t) then .next s
  else
    let s := s.mapTile t (fun tl => { tl.freed with
      segValid := tl.segValid, segs := tl.segs, quota := tl.quota, vector := tl.vector, classes := tl.classes, live := tl.live
      nodes := tl.nodes, classSwitch := tl.classSwitch, postStopped := tl.postStopped, lastSeq := tl.lastSeq, residentAt := tl.residentAt, residentCount := tl.residentCount, roots := tl.roots, ct := tl.ct
      gangstop := tl.gangstop, ejectClosed := true })
    let pad := fun (p : Packet) => if p.src == t && p.uninjected && !s.atDest p then { p with poison := true } else p
    .next ({ s with net := s.net.map pad }.bb t 11 0)

/-- EJECTION_PORT_REOPEN: the packets that wait for the tile can be delivered. -/
def execEjectionPortReopen (t : Nat) (s : State) : Out := .next (s.mapTile t (fun tl => { tl with ejectClosed := false }))

end Sys2Proof.Machine
end

