-- ==== Sys2Proof/Machine/HostPort.lean ====
section
/-! DEFINITION. The host's side: the register map, semaphores, the aperture, port links, host-window failures, and the debug halt, step
and freeze (19 R398 to R413). -/
namespace Sys2Proof.Machine

/-- A module that answers its ports with the register map of 19 R400. -/
def Module.answers (m : Module) : Bool := m.booted && !m.recovery && !m.frozen && !m.poweredOff

/-- Registers marked per port, and which port's copy an offset reaches (19 R399). -/
def perPort (port off : Nat) : Option (Nat × Nat) :=
  let regs := [0x400, 0x408, 0x410, 0x418, 0x700, 0x708]
  if regs.contains off then some (off, port)
  else if 128 ≤ off && regs.contains (off - 128) then some (off - 128, 1 - port)
  else none

/-! ## Reads -/

namespace State

/-- The thread that MG_CTXSEL selects: tile, core, slot. -/
def selected (s : State) (md : Nat) : Nat × Nat × Nat :=
  let v := (s.module md).ctxsel
  (field v 0 20, field v 20 2, field v 22 4)

/-- Every unit of a halted module is parked (19 R409), and the commands of ORPHANED slots have completed (10 R221). -/
def haltParked (s : State) (md : Nat) : Bool :=
  s.tiles.all (fun e => Config.nameM e.1 != md || e.2.gang == .running || e.2.gang == .resuming ||
    (Tile.parked { e.2 with gang := .stopped } && !(e.2.trestle.running.isNone && (match e.2.trestle.queue with
      | b :: _ => (e.2.acc b.slot).orphaned
      | [] => false)))) &&
  s.net.all (fun p => !(p.ownLine && Config.nameM p.dst == md && s.servesOrphan p.dst))

/-- Words of a black-box entry (19 R412). -/
def bbWord (e : BbEntry) (i : Nat) : Dword :=
  if i = 0 then BitVec.ofNat 64 e.time
  else BitVec.ofNat 64 (e.tid.toNat * 2 ^ 32 + e.kind % 256 * 2 ^ 24 + e.detail % 256 * 2 ^ 16 + e.core % 4 * 2 ^ 14 + e.slot % 16 * 2 ^ 10)

/-- What a read of a BAR0 register returns; a read of a semaphore also acquires it (MG_SEM_READ). In recovery, and before
the boot chain has ended, BAR0 holds only the map of 20 R416 (R414). -/
def regRead (s : State) (md port off : Nat) : Dword :=
  let m := s.module md
  let bit := fun (b : Bool) (n : Nat) => if b then 2 ^ n else 0
  if off = 0 then 0x100000A34
  else if !m.booted then (if off = 0x10 then m.rstat else 0)
  else
    match perPort port off with
    | some (r, p) =>
      let x := m.ports.get {} p
      if r = 0x400 then x.lqbase else if r = 0x408 then x.lqsize else if r = 0x410 then x.lqtail else if r = 0x418 then x.lqhead
      else if r = 0x700 then x.irq else x.irqen
    | none =>
      if off = 0x008 then m.status
      else if off = 0x010 then BitVec.ofNat 64 (s.timebase md)
      else if off = 0x018 then BitVec.ofNat 64 (md + 16 * s.podSize + bit m.podLinksUp 9)
      else if 0x100 ≤ off && off < 0x300 then
        let e := m.sems.get (false, 0) ((off - 0x100) / 8)
        BitVec.ofNat 64 (e.2 * 2 + bit e.1 0)
      else if 0x600 ≤ off && off < 0x640 then m.aps.get 0 ((off - 0x600) / 8)
      else if off = 0x800 then BitVec.ofNat 64 (bit m.brkhalt 3)
      else if off = 0x808 then m.dbgtime
      else if off = 0x810 then m.dbgstep
      else if off = 0x818 then BitVec.ofNat 64 (bit m.haltDone 0 + bit m.stepping 1 + m.reason * 16)
      else if off = 0x900 then m.ctxsel
      else if 0xA00 ≤ off && off < 0xB00 then
        if !m.haltDone then 0
        else
          let (t, c, k) := s.selected md
          let th := s.thread t c k
          (th.recordWords ((s.tile t).seated th)).getD ((off - 0xA00) / 8) 0
      else if off = 0xB00 then m.bbsel
      else if off = 0xB08 then
        let tl := s.tile (field m.bbsel 0 20)
        BitVec.ofNat 64 (tl.bbHead + bit tl.bbWrapped 8)
      else if 0x1000 ≤ off && off < 0x2000 then
        let tl := s.tile (field m.bbsel 0 20)
        match (tl.bbox.find? (fun e => e.1 == (off - 0x1000) / 16)).map (·.2) with
        | some e => bbWord e (off / 8 % 2)
        | none => 0
      else 0

/-- What a read of BAR0 returns by its width in bytes: none is Unsupported Request, for an access that is no aligned doubleword (19 R400), or the
silence of a module that is frozen or has no power (R413). -/
def regAnswer (s : State) (md port off width : Nat) : Option Dword :=
  if width = 8 && off % 8 = 0 && s.powered md then some (s.regRead md port off) else none

end State

/-! ## Writes -/

/-- A port holds semaphore 0 (19 R401). -/
def Module.holdsZero (m : Module) (port : Nat) : Bool := m.sems.get (false, 0) 0 == (true, port)

/-- The fields of a device address; its other bits are reserved (15 R307). -/
def deviceMask : Dword := 0x1FFFFF7FFFFFFF

/-- MG_RCMD written: a command makes MG_RSTAT read busy until it is done; one that comes meanwhile, and a value that is none, is discarded (20
R416). -/
def Module.writeRcmd (m : Module) (v : Dword) : Module :=
  if m.rstat &&& 3 = 1 || !(field v 0 4 == 1 || field v 0 4 == 2) then m else { m with rcmd := v, rstat := 1 }

/-- HOST_REGISTER_WRITE (19 R400): a register without a behaviour of its own; every other offset discards the write, and a misaligned one is
an Unsupported Request. -/
def execHostRegisterWrite (md port off : Nat) (val : BitVec 64) (s : State) : Out :=
  let m := s.module md
  let putPort := fun (p : Nat) (f : Port → Port) => s.setModule md { m with ports := m.ports.set p (f (m.ports.get {} p)) }
  let semErr := s.setModule md { m with status := m.status ||| 1 }
  if m.frozen || m.poweredOff || decide (2 ≤ port) || off % 8 ≠ 0 then .next s
  else if !m.booted then .next (if off = 8 then s.setModule md (m.writeRcmd val) else s)
  else
    match perPort port off with
    | some (r, p) =>
      if r = 0x400 then (if m.holdsZero port then .next (putPort p (fun x => { x with lqbase := val &&& deviceMask })) else .next semErr)
      else if r = 0x408 then
        (if m.holdsZero port then .next (putPort p (fun x => { x with lqsize := val &&& 0x1FFF })) else .next semErr)
      else if r = 0x700 then .next (putPort p (fun x => { x with irq := x.irq &&& ~~~ val }))
      else if r = 0x708 then .next (putPort p (fun x => { x with irqen := val &&& 0xFF }))
      else .next s
    | none =>
      if off = 0x008 then .next (s.setModule md { m with status := m.status &&& ~~~ val })
      else if 0x600 ≤ off && off < 0x640 then
        .next (s.setModule md { m with aps := m.aps.set ((off - 0x600) / 8) (val &&& 0x1FFFFF00000000) })
      else if off = 0x900 then .next (s.setModule md { m with ctxsel := val &&& 0x3FFFFFF })
      else if off = 0xB00 then .next (s.setModule md { m with bbsel := val &&& 0xFFFFF })
      else .next s

/-- MG_SEM_READ (19 R401): the value before the read is returned, and a free semaphore is acquired for the reading port. -/
def execMgSemRead (md port n : Nat) (s : State) : Out :=
  let m := s.module md
  if !m.answers || decide (64 ≤ n) || decide (2 ≤ port) then .next s
  else
    let v := s.regRead md port (0x100 + 8 * n)
    let x := m.ports.get {} port
    let sems := if (m.sems.get (false, 0) n).1 then m.sems else m.sems.set n (true, port)
    .next (s.setModule md { m with
      sems := sems, ports := m.ports.set port { x with returned := (0x100 + 8 * n, v) :: x.returned } })

/-- MG_SEM_WRITE (19 R401): only a write of 0 to HELD from the holding port has an effect; the other bits are read-only. -/
def execMgSemWrite (md port n : Nat) (val : BitVec 64) (s : State) : Out :=
  let m := s.module md
  if m.answers && decide (n < 64) && !val.getLsbD 0 && m.sems.get (false, 0) n == (true, port) then
    .next (s.setModule md { m with sems := m.sems.set n (false, 0) })
  else .next s

/-- MG_CTX (19 R400): a word of the selected slot's context record, while the module is halted and its units are parked. -/
def execMgCtx (md _port off : Nat) (val : BitVec 64) (s : State) : Out :=
  let m := s.module md
  if !m.answers || !m.haltDone || off % 8 ≠ 0 || decide (off < 0xA00) || decide (0xB00 ≤ off) then .next s
  else
    let (t, c, k) := s.selected md
    let th := s.thread t c k
    let ws := (th.recordWords ((s.tile t).seated th)).set ((off - 0xA00) / 8) val
    if th.st == .free then .next s else .next (s.setThread t c k (th.setWords ws))

/-! ## The aperture (19 R402) -/

/-- Pieces of an access, cut at every 64-byte boundary. -/
def tlpPieces : Nat → Nat → Nat → List (Nat × Nat)
  | 0, _, _ => []
  | fuel + 1, lo, n =>
    let first := min n (64 - lo % 64)
    if n = 0 then [] else (lo, first) :: tlpPieces fuel (lo + first) (n - first)

/-- The device address of an aperture offset, where n bytes from it exist. -/
def State.apertureAddr (s : State) (md off n : Nat) : Option Nat :=
  let a := ((s.module md).aps.get 0 (off / 2 ^ 31 % 8)).toNat + off % 2 ^ 31
  let size := if devVault a then Config.vaultBytes else Config.sramBytes
  if s.reachable (devTile a) && decide (off % 2 ^ 31 + n ≤ size) then some a else none

/-- One piece leaves a port toward the owner of its device address. -/
def State.sendPiece (s : State) (md port : Nat) (a : Nat) (k : OpKind) (path : Path) : State :=
  let t := devTile a
  let src := Config.tileName md 0 0
  let op : Op := { kind := k, path := path, origin := .host md port a, asid := 0, seg := 0, va := BitVec.ofNat 64 a, lo := a
                   owner := t, src := src, device := true }
  if path = .posted then s.send clsPOST src t 0 1 (.posted op) else s.send clsREQ src t 0 1 (.request op)

/-- Bytes of the staging buffer go back to a port (20 R416). -/
def Module.readStaging (m : Module) (port off size : Nat) : Module :=
  let x := m.ports.get {} port
  { m with ports := m.ports.set port { x with reads := (off, (List.range size).map (fun i => m.staging.get 0 (off + i)), false) :: x.reads } }

/-- APERTURE_READ: pieces of a read become remote reads in class REQ; in recovery the staging buffer answers (20 R416). -/
def execApertureRead (md port off size : Nat) (s : State) : Out :=
  let m := s.module md
  if m.frozen || m.poweredOff || decide (2 ≤ port) then .next s
  else if !m.booted then
    .next (if off + size ≤ 2 ^ 26 then
      s.setModule md ((tlpPieces (size + 1) off size).foldl (fun m e => m.readStaging port e.1 e.2) m) else s)
  else
    match s.apertureAddr md off size with
    | none => .fault .noSuchDeviceAddress
    | some a => .next ((tlpPieces (size + 1) a size).foldl (fun s p => s.sendPiece md port p.1 (.hostRead p.2) .remote) s)

/-- APERTURE_WRITE: pieces of a write become posted operations in class POST; in recovery the staging buffer takes them (20 R416). -/
def execApertureWrite (md port off : Nat) (bytes : List (BitVec 8)) (s : State) : Out :=
  let m := s.module md
  if m.frozen || m.poweredOff || decide (2 ≤ port) then .next s
  else if !m.booted then
    if off + bytes.length ≤ 2 ^ 26 then
      .next (s.setModule md { m with staging := (bytes.zipIdx).foldl (fun (x : Tab Byte) e => x.set (off + e.2) e.1) m.staging })
    else .next s
  else
    match s.apertureAddr md off bytes.length with
    | none => .fault .noSuchDeviceAddress
    | some a =>
      .next ((tlpPieces (bytes.length + 1) a bytes.length).foldl (fun s p =>
        s.sendPiece md port p.1 (.hostWrite ((bytes.drop (p.1 - a)).take p.2)) .posted) s)

/-! ## Port links and host windows (19 R399, R407) -/

/-- PORT_LINK_DOWN: the port's semaphores are released, and its launch queue takes no new records. -/
def execPortLinkDown (md port : Nat) (s : State) : Out :=
  let m := s.module md
  let x := m.ports.get {} port
  if 2 ≤ port then .next s
  else .next (s.setModule md { m with
    ports := m.ports.set port { x with up := false }
    sems := m.sems.map (fun e => if e.2 == (true, port) then (e.1, (false, 0)) else e)
    status := m.status ||| 4 })

/-- HOST_LINK_UP: the port can be used again. -/
def execHostLinkUp (md port : Nat) (s : State) : Out :=
  let m := s.module md
  if 2 ≤ port then .next s
  else .next (s.setModule md { m with ports := m.ports.set port { m.ports.get {} port with up := true } })

/-- HOST_COMPLETION_TIMEOUT (19 R407): a host-window operation fails; a read or atomic traps HOST_WINDOW, a RAMO's failure is a denial.
A posted store cannot fail. -/
def execHostCompletionTimeout (n : Nat) (s : State) : Out :=
  match s.hostWait[n]? with
  | none => .next s
  | some op =>
    if !s.unitsRun op.src || !(s.tile op.src).resident op.asid then .next s
    else
      let gone := { s with hostWait := s.hostWait.eraseIdx n }
      match op.path, op.kind with
      | .posted, .amo _ _ _ _ => .next (gone.acked op.origin (some op.va))
      | .posted, _ => .next s
      | _, _ => .next (gone.hostReply op (.trap Cause.hostWindow op.va))

/-! ## Debug halt (19 R409 to R413) -/

namespace State

def tilesOf (s : State) (md : Nat) : List Nat := (s.tiles.filter (fun e => Config.nameM e.1 == md)).map (·.1)

/-- Modules that a debug write acts on. -/
def debugTargets (s : State) (md : Nat) (pod : Bool) : List Nat := if pod then List.range s.podSize else [md]

end State

/-- A thread goes on from HALTED; a record with privilege 2 enters its trap vector instead, with the PCW that the record holds (01 R13). -/
def Thread.unhalt (th : Thread) (seated : Bool) (vector firmware : CodeAddr) : Thread :=
  if th.st == .halted then
    ({ th with st := th.haltedFrom, haltedFrom := .free } : Thread).admitted (BitVec.ofNat 64 (th.pcw seated)) vector firmware
  else th

/-- Threads of a core whose records have privilege 2: they enter their trap vector as they go on (01 R13, 19 R412). -/
def State.noteAdmitted (s : State) (t c : Nat) (only : BitVec 32 → Bool) : State :=
  ((s.tile t).core c).slots.foldl (fun s e =>
    if e.2.st == .halted && e.2.priv == 2 && only e.2.tid then s.bb t 1 Cause.illegal.toNat e.2.tid c e.1 else s) s

/-- The threads of a core go on, and its threads' parked slots are no longer ORPHANED (10 R221). -/
def State.unhaltCore (s : State) (t c : Nat) : State :=
  let s := (s.noteAdmitted t c (fun _ => true)).mapTile t (fun tl =>
    let co := tl.core c
    let tids := co.slots.map (fun e => e.2.tid)
    let mine := fun (a : Acc) => match a.owner with
      | some o => tids.contains o
      | none => false
    { tl.setCore c { co with slots := co.slots.map (fun e => (e.1, e.2.unhalt (tl.seated e.2) (s.vectorOf t) (s.firmwareOf t))) } with
      accs := tl.accs.map (fun e => (e.1, if mine e.2 then { e.2 with orphaned := false } else e.2)) })
  s.refreshCore t c

/-- DBG_HALT: H is 4,096 cycles after the latch, or 8,192 for the pod; a HALT of a halted module is discarded. -/
def execDbgHalt (md : Nat) (pod : Bool) (s : State) : Out :=
  if !(s.module md).answers || (s.module md).halted then .next s
  else .next ((s.debugTargets md pod).foldl (fun s n =>
    let m := s.module n
    if m.halted then s else s.setModule n { m with haltAt := some (s.time + (if pod then 8192 else 4096), if pod then 2 else 1) }) s)

/-- The cores that a BRK stopped restart (19 R410). -/
def State.restartBroken (s : State) (md : Nat) : State :=
  (s.tilesOf md).foldl (fun s t => (List.range 4).foldl (fun s c =>
    if ((s.tile t).core c).brkStopped then
      (s.mapTile t (fun tl => tl.setCore c { tl.core c with brkStopped := false })).unhaltCore t c
    else s) s) s

/-- DBG_RESUME: a halted module resumes 8,192 cycles ahead; one that is not halted restarts the cores that a BRK stopped. -/
def execDbgResume (md : Nat) (pod : Bool) (s : State) : Out :=
  if !(s.module md).answers then .next s
  else .next ((s.debugTargets md pod).foldl (fun s n =>
    let m := s.module n
    if m.halted && !m.stepping then s.setModule n { m with resumeAt := some (s.time + 8192) }
    else if !m.halted then s.restartBroken n else s) s)

/-- DBG_FREEZE: while halted, every clock of the module stops for good; only a module reset ends it (19 R413). -/
def execDbgFreeze (md : Nat) (s : State) : Out :=
  let m := s.module md
  if m.answers && m.haltDone then .next (s.setModule md { m with frozen := true }) else .next s

/-- DBG_BRKHALT (19 R409). -/
def execDbgBrkhalt (md : Nat) (on : Bool) (s : State) : Out :=
  let m := s.module md
  if m.answers then .next (s.setModule md { m with brkhalt := on }) else .next s

/-- The units of a module's running tiles stop at one value, and every thread is HALTED. -/
def State.haltTiles (s : State) (md : Nat) : State :=
  (s.tilesOf md).foldl (fun s t =>
    let tl := s.tile t
    if !tl.segValid || tl.gang != .running then s
    else ((List.range 4).foldl (fun s c => s.haltCore t c) (s.stillUnits t .halted)).ejectAll t) s

/-- The halt is complete once every unit is parked, and vector 2 says so (19 R409). -/
def State.haltComplete (s : State) (md : Nat) : State :=
  let m := s.module md
  if m.halted && !m.stepping && !m.haltDone && s.haltParked md then (s.setModule md { m with haltDone := true }).signal md 2 else s

/-- DEBUG_HALT_TAKE: at H the module halts (19 R409), or halts again after a step (R411); when its units have parked, the halt is complete. -/
def execDebugHaltTake (md : Nat) (s : State) : Out :=
  let m := s.module md
  match m.haltAt with
  | none => .next (if s.powered md then s.haltComplete md else s)
  | some (h, why) =>
    if s.time < h || (m.halted && !m.stepping) || !s.powered md then .next s
    else
      let tiles := (s.tilesOf md).filter (fun t => (s.tile t).segValid && (s.tile t).gang == .running)
      let s := s.haltTiles md
      let m := s.module md
      let s := s.setModule md { m with
        halted := true, haltDone := false, stepping := false, stepTid := none, haltAt := none, dbgtime := BitVec.ofNat 64 h, reason := why }
      let s := if why = 3 then s else tiles.foldl (fun s t => s.bb t 9 why) s
      .next (s.haltComplete md)

/-- The halted tiles of a module run again, their fall-out first. -/
def State.startUnits (s : State) (md : Nat) : State :=
  let tiles := s.tilesOf md
  let s := s.reinjectAll ((tiles.filter (fun t => (s.tile t).gang != .stopped)).map (fun t => (t, s.site t)))
  tiles.foldl (fun s t => s.mapTile t (fun tl =>
    if tl.gang == .halted then { tl with gang := .running, residentAt := s.time } else tl)) s

/-- DEBUG_RESUME_TAKE: at the resume value fall-out goes back and issue restarts, at the cores that a BRK has stopped too (19 R410); a core that a
machine check stopped stays so. -/
def execDebugResumeTake (md : Nat) (s : State) : Out :=
  let m := s.module md
  match m.resumeAt with
  | none => .next s
  | some r =>
    if s.time < r || !m.halted || m.stepping || !s.powered md then .next s
    else
      let tiles := (s.tilesOf md).filter (fun t => (s.tile t).gang == .halted)
      let s := (s.startUnits md).setModule md { m with halted := false, haltDone := false, resumeAt := none }
      .next (tiles.foldl (fun s t =>
        ((List.range 4).foldl (fun s c =>
          let co := (s.tile t).core c
          if co.stopped then s
          else (s.mapTile t (fun tl => tl.setCore c { co with brkStopped := false })).unhaltCore t c) s).bb t 8 0) s)

/-- Where a thread of a module is: tile, core, slot. -/
def State.findTid (s : State) (md : Nat) (tid : BitVec 32) : Option (Nat × Nat × Nat) :=
  (s.tilesOf md).findSome? (fun t => ((s.tile t).find tid).map (fun e => (t, e.1, e.2.1)))

/-- MG_DBGSTEP (19 R411): a HALTED thread of a halted module is stepped: units resume, and it alone issues, though a BRK has stopped its core. A
TID of any other thread is discarded, as is that of a core that a machine check stopped, which issues nothing (16 R332; log 20). -/
def execMgDbgstep (md : Nat) (val : BitVec 64) (s : State) : Out :=
  let m := s.module md
  let tid : BitVec 32 := val.truncate 32
  if !m.answers || !m.haltDone || m.stepping then .next s
  else
    match s.findTid md tid with
    | none => .next s
    | some (t, c, k) =>
      let th := s.thread t c k
      if th.st != .halted || (s.tile t).gang != .halted || ((s.tile t).core c).stopped then .next s
      else
        let s := (s.startUnits md).noteAdmitted t c (fun x => x == tid)
        let s := s.setModule md { m with
          dbgstep := val &&& 0xFFFFFFFF, haltDone := false, stepping := true, stepTid := some tid, stepIssued := false, resumeAt := none }
        .next ((s.setThread t c k (th.unhalt ((s.tile t).seated th) (s.vectorOf t) (s.firmwareOf t))).refreshCore t c)

/-- A step of a thread has ended: its results are written, or it waits elsewhere than in MARKWAIT, or it is gone. -/
def Thread.stepOver (th : Thread) : Bool :=
  match th.st with
  | .ready => th.pending.isEmpty && th.wait.isNone
  | .markWait => false
  | .departing => false
  | _ => true

/-- STEP_END: the step ends, and the units halt again 64 cycles later with reason 3. -/
def execStepEnd (md : Nat) (s : State) : Out :=
  let m := s.module md
  match m.stepTid with
  | none => .next s
  | some tid =>
    let mods := List.range s.podSize
    let at_ := mods.findSome? (fun n => s.findTid n tid)
    let moving := s.net.any (fun p => match p.body with
        | .context c _ => c.th.tid == tid
        | _ => false) ||
      s.tiles.any (fun e => e.2.hutch.any (fun h => h.ctx.th.tid == tid) ||
        e.2.cores.any (fun c => (c.2.loading.map (fun l => l.2.ctx.th.tid)) == some tid))
    let spent := match at_ with
      | some (t, c, k) => (s.thread t c k).stepOver
      | none => !moving
    if !m.stepping || !m.stepIssued || !spent then .next s
    else
      let s := s.setModule md { m with haltAt := some (s.time + 64, 3), stepTid := none }
      .next (match at_ with
        | some (t, c, k) => s.bb t 10 3 tid c k
        | none => s)

end Sys2Proof.Machine
end

