-- ==== Sys2Proof/Machine/Boot.lean ====
section
/-! DEFINITION. Bring-up, recovery, attestation and power (20 R414 to R424, 18 R391). -/
namespace Sys2Proof.Machine

/-! ## The firmware image (20 R415) -/

/-- Doubleword i of some bytes. -/
def wordAt (bs : List Byte) (i : Nat) : Dword := BitVec.ofNat 64 (ofBytes ((bs.drop (8 * i)).take 8))

def imageMagic : List Byte := [0x48, 0x53, 0x4B, 0x42]
def resetMagic : List Byte := [0x48, 0x53, 0x4B, 0x4C]
def imageBody (bs : List Byte) : Nat := field (wordAt bs 1) 32 32
def imageRollback (bs : List Byte) : Nat := (wordAt bs 2).toNat
def imageVector (bs : List Byte) : CodeAddr := (wordAt bs 3).truncate 48
/-- The 96 bytes of a signature at 0xA0. -/
def signatureOf (bs : List Byte) : List Byte := (bs.drop 160).take 96

/-- A header with its magic bytes, and a body of the length that it states, at most 64 MiB. -/
def imageFormed (bs : List Byte) : Bool :=
  bs.take 4 == imageMagic && decide (imageBody bs ≤ 2 ^ 26) && bs.length == 256 + imageBody bs

def imageSigned (bs : List Byte) : Bool := Config.signatureGood (bs.take 160 ++ bs.drop 256) (signatureOf bs)

/-! ## The dead set and the names (18 R391, 20 R417, R421) -/

namespace Module

/-- Sites that an entry of their own, or two failed banks, take out of service. -/
def deadSites (m : Module) : List Nat :=
  let es := m.fuses ++ m.log
  let banks := fun k => ((es.filter (fun e => entrySite e == k && entryUnit e == 6)).map entryIndex).eraseDups.length
  let ks := (es.filter (fun e => entryUnit e == 4 || (entryUnit e == 6 && decide (2 ≤ banks (entrySite e))))).map entrySite
  (ks.map (fun k => siteNo (keyCol k) (keyRow k))).eraseDups

def loggedRouters (m : Module) : List Nat :=
  let es := (m.fuses ++ m.log).filter (fun e => entryUnit e == 5)
  (es.map (fun e => 2 * siteNo (keyCol (entrySite e)) (keyRow (entrySite e)) + entryIndex e % 2)).eraseDups

/-- The names of a field that lack a site in their own column, in ascending LY, then LX. -/
def missing (m : Module) (f : Nat) : List (Nat × Nat) :=
  (List.range 8).flatMap (fun ly => ((List.range 8).filter (fun lx =>
    decide ((columnRows m (8 * (f % 12) + lx) (f / 12)).length ≤ ly))).map (fun lx => (lx, ly)))

/-- The free working sites of a field: those beyond the first eight of their column, lowest column first. -/
def freeSites (m : Module) (f : Nat) : List (Nat × Nat) :=
  (List.range 8).flatMap (fun c => ((columnRows m (8 * (f % 12) + c) (f / 12)).drop 8).map (fun r => (c, r % 9)))

/-- A field's exception table: at most 8 entries. -/
def tableOf (m : Module) (f : Nat) : List ExcEntry :=
  ((m.missing f).zip ((m.freeSites f).take 8)).map (fun e => { lx := e.1.1, ly := e.1.2, col := e.2.1, site := e.2.2 })

/-- The names of a field that stay without a site. -/
def absentOf (m : Module) (md f : Nat) : List Nat :=
  ((m.missing f).drop ((m.tableOf f).length)).map (fun e => Config.tileName md (8 * (f % 12) + e.1) (8 * (f / 12) + e.2))

/-- The names of a module from the whole dead set. -/
def named (m : Module) (md : Nat) : Module :=
  let m := { m with bootDead := m.deadSites, deadRouters := m.loggedRouters }
  let fields := if m.bootDead.isEmpty then [] else List.range 84
  { m with
    exc := fields.filterMap (fun f => if (m.tableOf f).isEmpty then none else some (f, m.tableOf f))
    absent := fields.flatMap (fun f => m.absentOf md f) }

end Module

/-- Names, then stranded tiles, whose retirements alter the names again, until nothing changes. -/
def State.nameAll (md : Nat) : Nat → State → State
  | 0, s => s
  | fuel + 1, s =>
    let s := s.setModule md (((s.module md).named md).rerouted md)
    let lost := s.strandedNames md
    if lost.isEmpty then s
    else
      nameAll md fuel (lost.foldl (fun s n => match s.site n with
        | some (c, r) => (s.logUnit md c r 4 0 3).1
        | none => s) s)

/-! ## The boot chain (20 R414) -/

namespace State

/-- The module's own timebase counts from 0 at its reset (01 R36). -/
def startClock (s : State) (md : Nat) : State := s.setModule md { s.module md with resetAt := s.time }

/-- What a module reset leaves of a module: what its flash, fuses, connector and pod links hold, and the units that have failed. -/
def powerCycle (s : State) (md : Nat) : State :=
  let m := s.module md
  let mine := fun (t : Nat) => Config.nameM t == md
  let s := s.setModule md {
    strap := m.strap, image := m.image, rollback := m.rollback, fuses := m.fuses, log := m.log, podLinksUp := m.podLinksUp, faulty := m.faulty }
  { s with
    tiles := s.tiles.filterMap (fun (e : Nat × Tile) =>
      if !mine e.1 then some e
      else if e.2.bbox.isEmpty then none
      else some (e.1, { ({} : Tile) with bbox := e.2.bbox, bbHead := e.2.bbHead, bbWrapped := e.2.bbWrapped }))
    net := s.net.filter (fun p => p.md != md)
    saved := s.saved.filter (fun x => !mine x.name)
    hostWait := s.hostWait.filter (fun o => !mine o.src)
    episodes := s.episodes.filter (fun (e : Members) => !mine e.root)
    time := if s.podSize = 1 then 0 else s.time }.startClock md

/-- An address in a tile memory of a module. -/
def inSram (md a : Nat) : Bool := Config.nameM (devTile a) == md && !devVault a

/-- Every tile memory of a module zeroed, its tags full and unpoisoned. -/
def zeroSram (s : State) (md : Nat) : State :=
  { s with
    mem := s.mem.filter (fun c => !inSram md c.1)
    empties := s.empties.filter (fun a => !inSram md a)
    poison := s.poison.filter (fun a => !inSram md a) }

/-- Firmware writes TL_NAME, TL_SLOTS and the tree depths of a tile. -/
def writeName (s : State) (t : Nat) : State :=
  let m := s.module (Config.nameM t)
  match s.site t with
  | some (c, r) => s.mapTile t (fun tl => { tl with
      name := BitVec.ofNat 20 t, slotsReg := m.slotsOf c r, treedepth := 0x4C4C08, failedBank := m.bankOf c r })
  | none => s

/-- Tiles that differ from one with nothing out of service: those whose site the fuses or the log name, and those whose black-box
ring is kept. -/
def markedTiles (s : State) (md : Nat) : List Nat :=
  let m := s.module md
  let sites := ((m.fuses ++ m.log).map entrySite).eraseDups
  (sites.filterMap (fun k => s.nameAt md (keyCol k) (keyRow k))) ++ (s.tiles.filter (fun e => Config.nameM e.1 == md)).map (·.1)

/-- The boot test: every unit that has failed and is not in the dead set is retired and logged (20 R414). -/
def testUnits (s : State) (md : Nat) : State :=
  (s.module md).faulty.foldl (fun s f =>
    let m := s.module md
    if m.hasEntry f.1 f.2.1 f.2.2.1 f.2.2.2 || m.hasEntry f.1 f.2.1 4 0 then s
    else (s.logUnit md f.1 f.2.1 f.2.2.1 f.2.2.2 2).1) s

/-- A module reset. The chain reaches its end, or leads to recovery (20 R414, R416). -/
def boot (s : State) (md : Nat) : State :=
  let s := s.powerCycle md
  let m := s.module md
  if m.strap || !imageFormed m.image || !imageSigned m.image || decide (imageRollback m.image < m.rollback) then
    s.setModule md { m with recovery := true }
  else
    let s := s.setModule md { m with
      rollback := min 64 (imageRollback m.image), firmwareVector := imageVector m.image, booted := true }
    let s := ((s.zeroSram md).testUnits md).nameAll md 8192
    (s.markedTiles md).foldl (fun s t => s.writeName t) s

end State

/-- POWER_ON_RESET: power-on, or a module reset (20 R414). -/
def execPowerOnReset (md : Nat) (s : State) : Out := .next (s.boot md)

/-! ## Recovery (20 R416, R418) -/

/-- The command written to MG_RCMD that has not been carried out. -/
def Module.recoveryCommand (m : Module) : Nat := if m.recovery && !m.frozen && !m.poweredOff then field m.rcmd 0 4 else 0

/-- The staged bytes: as many as the command states, those not written being 0. -/
def Module.staged (m : Module) : List Byte :=
  (List.range (min (2 ^ 26) (field m.rcmd 32 32))).map (fun i => m.staging.get 0 i)

/-- A command that failed, with its reason. -/
def Module.failedCommand (m : Module) (reason : Nat) : Module := { m with rcmd := 0, rstat := BitVec.ofNat 64 (3 + 256 * reason) }

/-- RECOVERY_INSTALL: an image that passes the checks of R415 is written to flash, and the module resets. -/
def execRecoveryInstall (md : Nat) (s : State) : Out :=
  let m := s.module md
  if m.recoveryCommand ≠ 1 then .next s
  else
    let x := m.staged
    if !imageFormed x then .next (s.setModule md (m.failedCommand 3))
    else if !imageSigned x then .next (s.setModule md (m.failedCommand 1))
    else if imageRollback x < m.rollback then .next (s.setModule md (m.failedCommand 2))
    else .next ((s.setModule md { m with image := x }).boot md)

/-- The bytes of the retirement log, oldest entry first. -/
def logBytes (log : List Dword) : List Byte := log.flatMap (fun e => leBytes 8 e.toNat)

/-- The digest as bytes 0x10 to 0x3F of a record hold it, big-endian. -/
def digestIn (bs : List Byte) : BitVec 384 := BitVec.ofNat 384 (ofBytes ((bs.drop 16).take 48).reverse)

/-- RECOVERY_LOG_RESET: a signed record for this module and this log clears the log. -/
def execRecoveryLogReset (md : Nat) (s : State) : Out :=
  let m := s.module md
  if m.recoveryCommand ≠ 2 then .next s
  else
    let x := m.staged
    if x.length ≠ 256 || x.take 4 != resetMagic || wordAt x 1 != Config.serialNumber md then .next (s.setModule md (m.failedCommand 3))
    else if !Config.signatureGood (x.take 160) (signatureOf x) then .next (s.setModule md (m.failedCommand 1))
    else if digestIn x != Config.sha384 (logBytes m.log) then .next (s.setModule md (m.failedCommand 4))
    else .next (s.setModule md { m with log := [], rcmd := 0, rstat := 2 })

/-! ## Attestation (20 R422) -/

/-- The responder of a module with power answers. -/
def State.respond (s : State) (md port : Nat) (r : SpdmReply) : State :=
  let m := s.module md
  if s.powered md && decide (port < 2) && (m.ports.get {} port).up then s.setModule md { m with spdm := r :: m.spdm } else s

def execGetVersion (md port : Nat) (s : State) : Out := .next (s.respond md port (.version 1 3))

/-- No session messages are supported. -/
def execGetCapabilities (md port : Nat) (s : State) : Out := .next (s.respond md port (.capabilities false))

/-- ECDSA over the 384-bit curve, and SHA-384. -/
def execNegotiateAlgorithms (md port : Nat) (s : State) : Out := .next (s.respond md port (.algorithms 384 384))

def execGetDigests (md port : Nat) (s : State) : Out :=
  .next (s.respond md port (.digests (Config.sha384 (Config.certificate md))))

def execGetCertificate (md port : Nat) (s : State) : Out := .next (s.respond md port (.certificate (Config.certificate md)))

def execChallenge (md port : Nat) (nonce : BitVec 256) (s : State) : Out :=
  .next (s.respond md port (.challengeAuth (Config.sign (leBytes 32 nonce.toNat))))

/-- Measurements 1 to 5. -/
def measurement (m : Module) (md n : Nat) : SpdmReply :=
  if n = 1 then .measurement 1 (Config.romDigest md)
  else if n = 2 then .measurement 2 (Config.sha384 m.image)
  else if n = 3 then .measurement 3 (Config.sha384 (logBytes m.fuses))
  else if n = 4 then .measurement 4 (Config.sha384 (logBytes m.log))
  else if n = 5 then .rollback m.rollback
  else .unsupported

def execGetMeasurements (md port n : Nat) (s : State) : Out := .next (s.respond md port (measurement (s.module md) md n))

/-! ## Power (20 R424) -/

/-- Launches of the pod with a tile in a module. -/
def State.launchesOn (s : State) (md : Nat) : List Launch :=
  s.mods.flatMap (fun e => e.2.launches.filter (fun l => l.placed && l.tiles.any (fun t => Config.nameM t == md)))

/-- POWER_EXCURSION: every resident partition is stopped, and nothing is placed. -/
def execPowerExcursion (md : Nat) (s : State) : Out :=
  let m := s.module md
  if !s.powered md || !m.booted then .next s
  else
    let s := s.setModule md { m with placeHeld := true }
    .next (((s.launchesOn md).filter (fun l => l.st == .resident)).foldl (fun s l => s.preempt l.asid) s)

/-- POWER_RESTORED: placement goes on, and the saved partitions are given their resume time. -/
def execPowerRestored (md : Nat) (s : State) : Out :=
  let m := s.module md
  let s := s.setModule md { m with placeHeld := false }
  .next (((s.launchesOn md).filter (fun l => l.st == .saved && l.resumeAt.isNone && !l.aborting &&
      l.tiles.all (fun t => !(s.module (Config.nameM t)).placeHeld))).foldl (fun s l =>
    let at_ := s.resumeTime l.tiles
    match s.launchOf l.asid with
    | some (n, _) => s.mapLaunch n (fun x => x.placed && x.asid == l.asid) (fun x => { x with resumeAt := some at_ })
    | none => s) s)

/-- THERMAL_SHUTDOWN: the module removes its own power; its black-box rings keep what led to it. -/
def execThermalShutdown (md : Nat) (s : State) : Out :=
  let m := s.module md
  .next (s.setModule md { m with poweredOff := true })

end Sys2Proof.Machine
end

