-- ==== Sys2Proof/Machine/Control.lean ====
section
/-! DEFINITION. Control transfer, the return-address store, and the flow instructions but EXIT (05 R117 to R126). -/
namespace Sys2Proof.Machine

/-- A transfer by condition: the PC becomes the target, or the next instruction's (05 R117, R119). -/
def branch (f : Form) (s : State) (taken : Thread → Bool) (goTo : CodeAddr → CodeAddr) : Out :=
  issue f s (fun th s => .next (s.issued { th with pc := if taken th then goTo th.pc else th.nextPc f.i }))

/-- Push of the return address on a store that is not full (05 R121). -/
def Thread.push (th : Thread) (c : CodeAddr) : Thread :=
  { th with links := th.links.set th.ldepth.toNat c, ldepth := th.ldepth + 1 }

/-- The entry Pop returns, and the store without it (05 R121). -/
def Thread.top (th : Thread) : CodeAddr := th.links.get 0 (th.ldepth.toNat - 1)
def Thread.pop (th : Thread) : Thread :=
  { th with links := th.links.set (th.ldepth.toNat - 1) 0, ldepth := th.ldepth - 1 }

/-- A call to an address: the push comes first, and LINK_OVERFLOW leaves the call without effect (05 R120 to R122). -/
def callTo (th : Thread) (s : State) (t : CodeAddr) : Out :=
  if th.ldepth = 3 then .next (s.trap Cause.linkOverflow 0)
  else .next (s.issued { th.push (th.pc + 4) with pc := t })

/-- 05 R119. -/
def execJ (m : Bool) (i : BitVec 24) (s : State) : Out :=
  branch { i := .j m i, m := m } s (fun _ => true) (fun pc => target pc i)

/-- 05 R119. -/
def execCall (m : Bool) (i : BitVec 24) (s : State) : Out :=
  issue { i := .call m i, m := m } s (fun th s => callTo th s (target th.pc i))

/-- 05 R119. -/
def execBp (m : Bool) (p : BitVec 4) (i : BitVec 19) (s : State) : Out :=
  branch { i := .bp m p i, m := m, src := [pd p] } s (fun th => th.rp p) (fun pc => target pc i)

/-- 05 R119. -/
def execBnp (m : Bool) (p : BitVec 4) (i : BitVec 19) (s : State) : Out :=
  branch { i := .bnp m p i, m := m, src := [pd p] } s (fun th => !th.rp p) (fun pc => target pc i)

/-- 05 R119: the offset's low bits are field A (02 R50). -/
def execBz (m : Bool) (oLo : BitVec 5) (a : BitVec 5) (o : BitVec 14) (s : State) : Out :=
  branch { i := .bz m oLo a o, m := m, src := [gd a] } s (fun th => th.rg a == 0) (fun pc => target pc (o ++ oLo))

/-- 05 R119. -/
def execBnz (m : Bool) (oLo : BitVec 5) (a : BitVec 5) (o : BitVec 14) (s : State) : Out :=
  branch { i := .bnz m oLo a o, m := m, src := [gd a] } s (fun th => th.rg a != 0) (fun pc => target pc (o ++ oLo))

/-- C.BP1: BP on p1 (02 R47). -/
def execCBp1 (m : Bool) (o : BitVec 10) (s : State) : Out :=
  branch { i := .cBp1 m o, m := m, src := [pd 1] } s (fun th => th.rp 1) (fun pc => target pc o)

/-- 05 R120. -/
def execJr (m : Bool) (a : BitVec 5) (s : State) : Out :=
  issue { i := .jr m a, m := m, src := [gd a] } s (fun th s =>
    match codeAddr (th.rg a) with
    | .error c => .next (s.trap c (th.rg a))
    | .ok t => .next (s.issued { th with pc := t }))

/-- 05 R120. -/
def execCallr (m : Bool) (a : BitVec 5) (s : State) : Out :=
  issue { i := .callr m a, m := m, src := [gd a] } s (fun th s =>
    match codeAddr (th.rg a) with
    | .error c => .next (s.trap c (th.rg a))
    | .ok t => callTo th s t)

/-- 05 R121: an empty store traps LINK_UNDERFLOW while TH_LINKCNT counts spilled addresses, RETURN_EMPTY otherwise. -/
def execRet (m : Bool) (s : State) : Out :=
  issue { i := .ret m, m := m } s (fun th s =>
    if th.ldepth = 0 then
      .next (s.trap (if th.linkcnt = 0 then Cause.returnEmpty else Cause.linkUnderflow) 0)
    else .next (s.issued { th.pop with pc := th.top }))

/-- 05 R124: no effect. -/
def execNop (m : Bool) (s : State) : Out := short { i := .nop m, m := m } s (fun _ => [])

/-- 05 R124: for 15 cycles the thread takes turns only while no sibling is READY. -/
def execYield (m : Bool) (s : State) : Out :=
  let f : Form := { i := .yield m, m := m }
  issue f s (fun th s => .next (s.issued { th with pc := th.nextPc f.i, yieldUntil := s.time + 16 }))

/-- The deadline of a wait of n cycles, at most all ones (05 R126). -/
def deadline (now : Nat) (n : Dword) : Dword :=
  if now + n.toNat ≥ 2 ^ 64 then BitVec.allOnes 64 else BitVec.ofNat 64 (now + n.toNat)

/-- 05 R126: SLEEPING until the timebase reaches AVA or a WAKE names the thread; a count of 0 has no effect. -/
def execSleep (m : Bool) (a : BitVec 5) (s : State) : Out :=
  let f : Form := { i := .sleep m a, m := m, src := [gd a] }
  issue f s (fun th s =>
    if th.rg a = 0 then .next (s.issued { th with pc := th.nextPc f.i })
    else .next (s.issued { th with
      pc := th.nextPc f.i, ava := deadline s.time (th.rg a), st := .sleeping, waitt := false }))

/-! ## Time (07 R168) -/

/-- TIME: the timebase. -/
def execTime (m : Bool) (d : BitVec 5) (s : State) : Out :=
  let now := BitVec.ofNat 64 s.time
  short { i := .time m d, m := m, dst := [gd d] } s (fun _ => [toG d now])

/-- WAITT: SLEEPING until the timebase reaches rs1, which no WAKE ends; a deadline already reached has no effect. -/
def execWaitt (m : Bool) (a : BitVec 5) (s : State) : Out :=
  let f : Form := { i := .waitt m a, m := m, src := [gd a] }
  issue f s (fun th s =>
    if (th.rg a).toNat ≤ s.time then .next (s.issued { th with pc := th.nextPc f.i })
    else .next (s.issued { th with pc := th.nextPc f.i, ava := th.rg a, st := .sleeping, waitt := true }))

/-- CYCLE: the tile's resident-cycle count. -/
def execCycle (m : Bool) (d : BitVec 5) (s : State) : Out :=
  let n := BitVec.ofNat 64 (s.residentCycles s.here)
  short { i := .cycle m d, m := m, dst := [gd d] } s (fun _ => [toG d n])

/-- SLEEP_DEADLINE: READY once the timebase has reached the deadline; an all-ones SLEEP deadline ends only by WAKE (05 R126). -/
def execSleepDeadline (t c k : Nat) (s : State) : Out :=
  let th := s.thread t c k
  if th.st == .sleeping && decide (th.ava.toNat ≤ s.time) && (th.waitt || th.ava != BitVec.allOnes 64) then
    .next (s.setThread t c k { th with st := .ready })
  else .next s

/-! ## Long results (02 R64 to R67) -/

/-- LONG_RESULT_RETURN: the n-th pending result of a thread, if it has come, is written; its flags are ORed in, and holds are
looked at again (02 R64). -/
def execLongResultReturn (t c k n : Nat) (s : State) : Out :=
  let th := s.thread t c k
  match (th.pending ++ th.silent)[n]? with
  | none => .next s
  | some p =>
    if !p.ready || !p.gates.isEmpty then .next s
    else if th.pending.length ≤ n then
      .next ((s.setThread t c k { th with
        silent := th.silent.eraseIdx (n - th.pending.length), flags := th.flags ||| p.flags }).refreshCore t c)
    else
      let th := { th.writes p.writes with pending := th.pending.eraseIdx n, flags := th.flags ||| p.flags }
      .next ((s.setThread t c k th).refreshCore t c)

end Sys2Proof.Machine
end

