-- ==== Sys2Proof/Machine/Float.lean ====
section
/-! DEFINITION. Scalar floating-point instructions and the shared normaliser (08 R169 to R179, 04 R98, R99). -/
namespace Sys2Proof.Machine

/-- A request enters the normaliser's queue: in order of arrival, and by core and slot among those of one cycle (04 R99). -/
def NormReq.queue (q : NormReq) : List NormReq → List NormReq
  | [] => [q]
  | x :: rest =>
    if x.at_ = q.at_ ∧ (q.core < x.core ∨ (q.core = x.core ∧ q.slot < x.slot)) then q :: x :: rest else x :: NormReq.queue q rest

/-- The flags a result leaves are ORed in when it returns; a result that needs the normaliser waits for its service first
(04 R98, R99). -/
def floatResult (f : Form) (th : Thread) (s : State) (p : Pending) (norm : Bool) : Out :=
  if norm then
    let s := s.issued { th with pc := th.nextPc f.i, st := .normalise }
    .next (s.mapTile s.cur.1 (fun tl => { tl with
      norm := NormReq.queue { core := s.cur.2.1, slot := s.cur.2.2, result := p, at_ := s.time } tl.norm }))
  else .next (s.issued { th.await p with pc := th.nextPc f.i })

/-- A floating-point form that writes a general register (08 R169). `subnormal` says whether a source is subnormal in a form
that uses the normaliser, `op` the result of the sources under a rounding mode. -/
def floatForm (i : Instr) (m : Bool) (d : BitVec 5) (src : List Dest) (r : BitVec 3) (uses : Bool)
    (subnormal : Thread → Bool) (op : Nat → Thread → FOut) (s : State) : Out :=
  let f : Form := { i := i, m := m, dst := [gd d], src := src, long := true, dyn := r == 7 }
  issue f s (fun th s =>
    let res := op (roundingMode r th.frm) th
    floatResult f th s
      { tag := 0, dests := live f.dst, ready := true, writes := [toG d (BitVec.ofNat 64 res.bits)], flags := res.flags }
      (uses && (subnormal th || res.tiny)))

/-- FADD, FSUB, FMUL and FDIV (08 R171, R172). -/
def floatBinary (i : Instr) (m : Bool) (d a b : BitVec 5) (f : BitVec 2) (r : BitVec 3)
    (op : Fmt → Nat → Nat → Nat → FOut) (s : State) : Out :=
  let fm := scalarFmt f
  floatForm i m d [gd a, gd b] r true
    (fun th => fm.subnormal (th.rg a).toNat || fm.subnormal (th.rg b).toNat)
    (fun rm th => op fm rm (th.rg a).toNat (th.rg b).toNat) s

/-- FMIN, FMAX and the sign injections: no rounding, no normaliser (08 R173, R174). -/
def floatPick (i : Instr) (m : Bool) (d a b : BitVec 5) (f : BitVec 2) (op : Fmt → Nat → Nat → FOut) (s : State) : Out :=
  let fm := scalarFmt f
  floatForm i m d [gd a, gd b] 0 false (fun _ => false) (fun _ th => op fm (th.rg a).toNat (th.rg b).toNat) s

/-- Sign injection on the encodings (08 R174). -/
def signInject (sign : Bool → Bool → Bool) (fm : Fmt) (x y : Nat) : FOut :=
  { bits := fm.signed (sign (x / fm.signBit % 2 == 1) (y / fm.signBit % 2 == 1)) (x % fm.signBit) }

/-- The fused forms, under the mode in FRM (08 R176). -/
def floatFused (i : Instr) (m : Bool) (d a b c : BitVec 5) (f : BitVec 2) (negProduct negAddend : Bool) (s : State) : Out :=
  let fm := scalarFmt f
  floatForm i m d [gd a, gd b, gd c] 7 true
    (fun th => fm.subnormal (th.rg a).toNat || fm.subnormal (th.rg b).toNat || fm.subnormal (th.rg c).toNat)
    (fun rm th => fm.fma rm negProduct negAddend (th.rg a).toNat (th.rg b).toNat (th.rg c).toNat) s

/-- 08 R172. -/
def execFadd (m : Bool) (d a b : BitVec 5) (f : BitVec 2) (r : BitVec 3) (s : State) : Out :=
  floatBinary (.fadd m d a b f r) m d a b f r Fmt.add s

/-- 08 R172. -/
def execFsub (m : Bool) (d a b : BitVec 5) (f : BitVec 2) (r : BitVec 3) (s : State) : Out :=
  floatBinary (.fsub m d a b f r) m d a b f r Fmt.sub s

/-- 08 R172. -/
def execFmul (m : Bool) (d a b : BitVec 5) (f : BitVec 2) (r : BitVec 3) (s : State) : Out :=
  floatBinary (.fmul m d a b f r) m d a b f r Fmt.mul s

/-- 08 R172. -/
def execFdiv (m : Bool) (d a b : BitVec 5) (f : BitVec 2) (r : BitVec 3) (s : State) : Out :=
  floatBinary (.fdiv m d a b f r) m d a b f r Fmt.div s

/-- 08 R172. -/
def execFsqrt (m : Bool) (d a : BitVec 5) (f : BitVec 2) (r : BitVec 3) (s : State) : Out :=
  let fm := scalarFmt f
  floatForm (.fsqrt m d a f r) m d [gd a] r true (fun th => fm.subnormal (th.rg a).toNat)
    (fun rm th => fm.sqrt rm (th.rg a).toNat) s

/-- 08 R173. -/
def execFmin (m : Bool) (d a b : BitVec 5) (f : BitVec 2) (s : State) : Out :=
  floatPick (.fmin m d a b f) m d a b f (fun fm x y => fm.minMax false x y) s

/-- 08 R173. -/
def execFmax (m : Bool) (d a b : BitVec 5) (f : BitVec 2) (s : State) : Out :=
  floatPick (.fmax m d a b f) m d a b f (fun fm x y => fm.minMax true x y) s

/-- 08 R174. -/
def execFsgnj (m : Bool) (d a b : BitVec 5) (f : BitVec 2) (s : State) : Out :=
  floatPick (.fsgnj m d a b f) m d a b f (signInject (fun _ b => b)) s

/-- 08 R174. -/
def execFsgnjn (m : Bool) (d a b : BitVec 5) (f : BitVec 2) (s : State) : Out :=
  floatPick (.fsgnjn m d a b f) m d a b f (signInject (fun _ b => !b)) s

/-- 08 R174. -/
def execFsgnjx (m : Bool) (d a b : BitVec 5) (f : BitVec 2) (s : State) : Out :=
  floatPick (.fsgnjx m d a b f) m d a b f (signInject (fun a b => a != b)) s

/-- 08 R175. -/
def execFclass (m : Bool) (d a : BitVec 5) (f : BitVec 2) (s : State) : Out :=
  floatForm (.fclass m d a f) m d [gd a] 0 false (fun _ => false)
    (fun _ th => { bits := (scalarFmt f).classify (th.rg a).toNat }) s

/-- 08 R176. -/
def execFma (m : Bool) (d a b c : BitVec 5) (f : BitVec 2) (s : State) : Out :=
  floatFused (.fma m d a b c f) m d a b c f false false s

/-- 08 R176. -/
def execFms (m : Bool) (d a b c : BitVec 5) (f : BitVec 2) (s : State) : Out :=
  floatFused (.fms m d a b c f) m d a b c f false true s

/-- 08 R176. -/
def execFnma (m : Bool) (d a b c : BitVec 5) (f : BitVec 2) (s : State) : Out :=
  floatFused (.fnma m d a b c f) m d a b c f true true s

/-- 08 R176. -/
def execFnms (m : Bool) (d a b c : BitVec 5) (f : BitVec 2) (s : State) : Out :=
  floatFused (.fnms m d a b c f) m d a b c f true false s

/-- 08 R177: a predicate, as a long result, and NV. -/
def execFcmp (m : Bool) (p : BitVec 4) (a b : BitVec 5) (c : BitVec 4) (f : BitVec 2) (s : State) : Out :=
  let fm := scalarFmt f
  long { i := .fcmp m p a b c f, m := m, dst := [pd p], src := [gd a, gd b], long := true } s (fun th =>
    let r := fm.compare c.toNat (th.rg a).toNat (th.rg b).toNat
    ([toP p r.1], r.2))

/-- The register a conversion leaves: a signed narrow integer is sign-extended, all else zero-extended (04 R87, R92). -/
def conversionResult (t : NumTy) (x : Nat) : Nat :=
  match t with
  | .int true w => intBits 64 (intValue true w x)
  | _ => x

/-- 08 R178, R179: `o` is the to-type and `f` the from-type. -/
def execFcvt (m : Bool) (d a : BitVec 5) (f o : BitVec 4) (r : BitVec 3) (u : BitVec 1) (s : State) : Out :=
  let src := scalarTy f.toNat
  let dst := scalarTy o.toNat
  let floating := match src, dst with
    | .int _ _, .int _ _ => false
    | _, _ => true
  floatForm (.fcvt m d a f o r u) m d [gd a] r floating
    (fun th => match src with
      | .flt fm => fm.subnormal (th.rg a).toNat
      | .int _ _ => false)
    (fun rm th =>
      let res := convert src dst rm (u == 1) (th.rg a).toNat
      { res with bits := conversionResult dst res.bits }) s

/-- The thread's core has stopped, and its module does not step it. -/
def State.coreHalted (s : State) (t c : Nat) (th : Thread) : Bool :=
  let co := (s.tile t).core c
  let m := s.module (Config.nameM t)
  co.stopped || co.brkStopped || (m.halted && m.stepTid != some th.tid)

/-- NORMALISER_SERVICE_END: the request served longest ago is done; its thread is READY, or HALTED where its core has stopped meanwhile,
and its result pending (04 R99, R100). -/
def execNormaliserServiceEnd (t : Nat) (s : State) : Out :=
  match (s.tile t).norm with
  | [] => .next s
  | q :: rest =>
    let s := s.mapTile t (fun tl => { tl with norm := rest })
    let th := s.thread t q.core q.slot
    let th' := th.await q.result
    .next (s.setThread t q.core q.slot
      (if th.st == .halted || s.coreHalted t q.core th then { th' with st := .halted, haltedFrom := .ready } else { th' with st := .ready }))

end Sys2Proof.Machine
end

