-- ==== Sys2Proof/Machine/Integer.lean ====
section
/-! DEFINITION. Integer, bit, immediate, compare and predicate instructions, and their compact forms (05 R104 to R116, 02
R47). -/
namespace Sys2Proof.Machine

/-- A short register-register form: rd takes f of rs1 and rs2 (05 R104). -/
def aluRR (i : Instr) (m : Bool) (d a b : BitVec 5) (f : Dword → Dword → Dword) (s : State) : Out :=
  short { i := i, m := m, dst := [gd d], src := [gd a, gd b] } s (fun th => [toG d (f (th.rg a) (th.rg b))])

/-- A short form of one source register. -/
def aluR (i : Instr) (m : Bool) (d a : BitVec 5) (f : Dword → Dword) (s : State) : Out :=
  short { i := i, m := m, dst := [gd d], src := [gd a] } s (fun th => [toG d (f (th.rg a))])

/-- A long register-register form, whose result returns later (05 R105). -/
def longRR (i : Instr) (m : Bool) (d a b : BitVec 5) (f : Dword → Dword → Dword) (s : State) : Out :=
  long { i := i, m := m, dst := [gd d], src := [gd a, gd b], long := true } s
    (fun th => ([toG d (f (th.rg a) (th.rg b))], 0))

/-- A form that reads rd as well (05 R113, R114). -/
def aluRD (i : Instr) (m : Bool) (d : BitVec 5) (src : List Dest) (f : Thread → Dword) (s : State) : Out :=
  short { i := i, m := m, dst := [gd d], src := src } s (fun th => [toG d (f th)])

/-- A form that writes a predicate. -/
def predForm (i : Instr) (m : Bool) (p : BitVec 4) (src : List Dest) (f : Thread → Bool) (s : State) : Out :=
  short { i := i, m := m, dst := [pd p], src := src } s (fun th => [toP p (f th)])

/-- 05 R107. -/
def execAdd (m : Bool) (d a b : BitVec 5) (s : State) : Out := aluRR (.add m d a b) m d a b (fun a b => a + b) s

/-- 05 R107. -/
def execSub (m : Bool) (d a b : BitVec 5) (s : State) : Out := aluRR (.sub m d a b) m d a b (fun a b => a - b) s

/-- 05 R107. -/
def execAnd (m : Bool) (d a b : BitVec 5) (s : State) : Out := aluRR (.and m d a b) m d a b (fun a b => a &&& b) s

/-- 05 R107. -/
def execOr (m : Bool) (d a b : BitVec 5) (s : State) : Out := aluRR (.or m d a b) m d a b (fun a b => a ||| b) s

/-- 05 R107. -/
def execXor (m : Bool) (d a b : BitVec 5) (s : State) : Out := aluRR (.xor m d a b) m d a b (fun a b => a ^^^ b) s

/-- 05 R107. -/
def execAndn (m : Bool) (d a b : BitVec 5) (s : State) : Out := aluRR (.andn m d a b) m d a b (fun a b => a &&& ~~~ b) s

/-- 05 R107. -/
def execOrn (m : Bool) (d a b : BitVec 5) (s : State) : Out := aluRR (.orn m d a b) m d a b (fun a b => a ||| ~~~ b) s

/-- 05 R107. -/
def execXnor (m : Bool) (d a b : BitVec 5) (s : State) : Out := aluRR (.xnor m d a b) m d a b (fun a b => ~~~ (a ^^^ b)) s

/-- 05 R107. -/
def execShl (m : Bool) (d a b : BitVec 5) (s : State) : Out := aluRR (.shl m d a b) m d a b (fun a b => Machine.shl a (amount6 b)) s

/-- 05 R107. -/
def execShr (m : Bool) (d a b : BitVec 5) (s : State) : Out := aluRR (.shr m d a b) m d a b (fun a b => Machine.shr a (amount6 b)) s

/-- 05 R107. -/
def execSra (m : Bool) (d a b : BitVec 5) (s : State) : Out := aluRR (.sra m d a b) m d a b (fun a b => Machine.sra a (amount6 b)) s

/-- 05 R107. -/
def execRol (m : Bool) (d a b : BitVec 5) (s : State) : Out := aluRR (.rol m d a b) m d a b (fun a b => Machine.rol a (amount6 b)) s

/-- 05 R107. -/
def execRor (m : Bool) (d a b : BitVec 5) (s : State) : Out := aluRR (.ror m d a b) m d a b (fun a b => Machine.ror a (amount6 b)) s

/-- 05 R107. -/
def execMinS (m : Bool) (d a b : BitVec 5) (s : State) : Out := aluRR (.minS m d a b) m d a b (fun a b => Machine.minS a b) s

/-- 05 R107. -/
def execMinZ (m : Bool) (d a b : BitVec 5) (s : State) : Out := aluRR (.minZ m d a b) m d a b (fun a b => Machine.minZ a b) s

/-- 05 R107. -/
def execMaxS (m : Bool) (d a b : BitVec 5) (s : State) : Out := aluRR (.maxS m d a b) m d a b (fun a b => Machine.maxS a b) s

/-- 05 R107. -/
def execMaxZ (m : Bool) (d a b : BitVec 5) (s : State) : Out := aluRR (.maxZ m d a b) m d a b (fun a b => Machine.maxZ a b) s

/-- 05 R107. -/
def execAddW (m : Bool) (d a b : BitVec 5) (s : State) : Out := aluRR (.addW m d a b) m d a b (fun a b => sx32 (a + b)) s

/-- 05 R107. -/
def execSubW (m : Bool) (d a b : BitVec 5) (s : State) : Out := aluRR (.subW m d a b) m d a b (fun a b => sx32 (a - b)) s

/-- 05 R107. -/
def execShlW (m : Bool) (d a b : BitVec 5) (s : State) : Out := aluRR (.shlW m d a b) m d a b (fun a b => Machine.shlW a (amount5 b)) s

/-- 05 R107. -/
def execShrW (m : Bool) (d a b : BitVec 5) (s : State) : Out := aluRR (.shrW m d a b) m d a b (fun a b => Machine.shrW a (amount5 b)) s

/-- 05 R107. -/
def execSraW (m : Bool) (d a b : BitVec 5) (s : State) : Out := aluRR (.sraW m d a b) m d a b (fun a b => Machine.sraW a (amount5 b)) s

/-- 05 R108. -/
def execMul (m : Bool) (d a b : BitVec 5) (s : State) : Out := aluRR (.mul m d a b) m d a b (fun a b => a * b) s

/-- 05 R108. -/
def execMulW (m : Bool) (d a b : BitVec 5) (s : State) : Out := aluRR (.mulW m d a b) m d a b (fun a b => sx32 (a * b)) s

/-- 05 R108. -/
def execMulhS (m : Bool) (d a b : BitVec 5) (s : State) : Out := longRR (.mulhS m d a b) m d a b (fun a b => mulHigh a.toInt b.toInt) s

/-- 05 R108. -/
def execMulhZ (m : Bool) (d a b : BitVec 5) (s : State) : Out := longRR (.mulhZ m d a b) m d a b (fun a b => mulHigh a.toNat b.toNat) s

/-- 05 R108. -/
def execMulhSz (m : Bool) (d a b : BitVec 5) (s : State) : Out := longRR (.mulhSz m d a b) m d a b (fun a b => mulHigh a.toInt b.toNat) s

/-- 05 R109. -/
def execDivS (m : Bool) (d a b : BitVec 5) (s : State) : Out := longRR (.divS m d a b) m d a b (fun a b => (divRem a b true).1) s

/-- 05 R109. -/
def execDivZ (m : Bool) (d a b : BitVec 5) (s : State) : Out := longRR (.divZ m d a b) m d a b (fun a b => (divRem a b false).1) s

/-- 05 R109. -/
def execRemS (m : Bool) (d a b : BitVec 5) (s : State) : Out := longRR (.remS m d a b) m d a b (fun a b => (divRem a b true).2) s

/-- 05 R109. -/
def execRemZ (m : Bool) (d a b : BitVec 5) (s : State) : Out := longRR (.remZ m d a b) m d a b (fun a b => (divRem a b false).2) s

/-- 05 R110. -/
def execClz (m : Bool) (d a : BitVec 5) (s : State) : Out := aluR (.clz m d a) m d a (fun a => BitVec.ofNat 64 (leadingZeros a.toNat 64)) s

/-- 05 R110. -/
def execCtz (m : Bool) (d a : BitVec 5) (s : State) : Out := aluR (.ctz m d a) m d a (fun a => BitVec.ofNat 64 (trailingZeros a.toNat 0 64)) s

/-- 05 R110. -/
def execPopc (m : Bool) (d a : BitVec 5) (s : State) : Out := aluR (.popc m d a) m d a (fun a => BitVec.ofNat 64 (ones a.toNat 64)) s

/-- 05 R110. -/
def execBswap (m : Bool) (d a : BitVec 5) (s : State) : Out := aluR (.bswap m d a) m d a (fun a => swapBytes a) s

/-- 05 R110. -/
def execBrev (m : Bool) (d a : BitVec 5) (s : State) : Out := aluR (.brev m d a) m d a (fun a => BitVec.ofNat 64 (reverseBits a.toNat 64)) s

/-- 05 R110. -/
def execSextB (m : Bool) (d a : BitVec 5) (s : State) : Out := aluR (.sextB m d a) m d a (fun a => (a.truncate 8).signExtend 64) s

/-- 05 R110. -/
def execSextH (m : Bool) (d a : BitVec 5) (s : State) : Out := aluR (.sextH m d a) m d a (fun a => (a.truncate 16).signExtend 64) s

/-- 05 R110. -/
def execSextW (m : Bool) (d a : BitVec 5) (s : State) : Out := aluR (.sextW m d a) m d a (fun a => sx32 a) s

/-- 05 R110. -/
def execZextB (m : Bool) (d a : BitVec 5) (s : State) : Out := aluR (.zextB m d a) m d a (fun a => (a.truncate 8).zeroExtend 64) s

/-- 05 R110. -/
def execZextH (m : Bool) (d a : BitVec 5) (s : State) : Out := aluR (.zextH m d a) m d a (fun a => (a.truncate 16).zeroExtend 64) s

/-- 05 R110. -/
def execZextW (m : Bool) (d a : BitVec 5) (s : State) : Out := aluR (.zextW m d a) m d a (fun a => (a.truncate 32).zeroExtend 64) s

/-- 05 R111. -/
def execAddi (m : Bool) (d a : BitVec 5) (i : BitVec 14) (s : State) : Out := aluR (.addi m d a i) m d a (fun a => a + imm 14 i) s

/-- 05 R111. -/
def execAndi (m : Bool) (d a : BitVec 5) (i : BitVec 14) (s : State) : Out := aluR (.andi m d a i) m d a (fun a => a &&& imm 14 i) s

/-- 05 R111. -/
def execOri (m : Bool) (d a : BitVec 5) (i : BitVec 14) (s : State) : Out := aluR (.ori m d a i) m d a (fun a => a ||| imm 14 i) s

/-- 05 R111. -/
def execXori (m : Bool) (d a : BitVec 5) (i : BitVec 14) (s : State) : Out := aluR (.xori m d a i) m d a (fun a => a ^^^ imm 14 i) s

/-- 05 R112. -/
def execShli (m : Bool) (d a : BitVec 5) (n : BitVec 6) (s : State) : Out := aluR (.shli m d a n) m d a (fun a => Machine.shl a n.toNat) s

/-- 05 R112. -/
def execShri (m : Bool) (d a : BitVec 5) (n : BitVec 6) (s : State) : Out := aluR (.shri m d a n) m d a (fun a => Machine.shr a n.toNat) s

/-- 05 R112. -/
def execSrai (m : Bool) (d a : BitVec 5) (n : BitVec 6) (s : State) : Out := aluR (.srai m d a n) m d a (fun a => Machine.sra a n.toNat) s

/-- 05 R112. -/
def execRoli (m : Bool) (d a : BitVec 5) (n : BitVec 6) (s : State) : Out := aluR (.roli m d a n) m d a (fun a => Machine.rol a n.toNat) s

/-- 05 R112. -/
def execShliW (m : Bool) (d a : BitVec 5) (n : BitVec 6) (s : State) : Out := aluR (.shliW m d a n) m d a (fun a => Machine.shlW a n.toNat) s

/-- 05 R112. -/
def execShriW (m : Bool) (d a : BitVec 5) (n : BitVec 6) (s : State) : Out := aluR (.shriW m d a n) m d a (fun a => Machine.shrW a n.toNat) s

/-- 05 R112. -/
def execSraiW (m : Bool) (d a : BitVec 5) (n : BitVec 6) (s : State) : Out := aluR (.sraiW m d a n) m d a (fun a => Machine.sraW a n.toNat) s

/-- 05 R113. -/
def execLui (m : Bool) (d : BitVec 5) (i : BitVec 19) (s : State) : Out :=
  short { i := .lui m d i, m := m, dst := [gd d] } s (fun _ => [toG d (imm 19 i <<< 13)])

/-- 05 R113: PC-relative, as a virtual address. -/
def execAuipc (m : Bool) (d : BitVec 5) (i : BitVec 19) (s : State) : Out :=
  short { i := .auipc m d i, m := m, dst := [gd d] } s (fun th => [toG d (codeVA (th.pc + (i.signExtend 48 <<< 13)))])

/-- 05 R113: rd[63:32] from the immediate, rd[31:0] kept. -/
def execLih (m : Bool) (d : BitVec 5) (i : BitVec 19) (s : State) : Out :=
  aluRD (.lih m d i) m d [gd d] (fun th => (imm 19 i <<< 32) ||| ((th.rg d).truncate 32).zeroExtend 64) s

/-- 05 R114. -/
def execBfxZ (m : Bool) (d a : BitVec 5) (p l : BitVec 6) (s : State) : Out :=
  aluR (.bfxZ m d a p l) m d a (fun a => extractZ a p.toNat (l.toNat + 1)) s

/-- 05 R114. -/
def execBfxS (m : Bool) (d a : BitVec 5) (p l : BitVec 6) (s : State) : Out :=
  aluR (.bfxS m d a p l) m d a (fun a => extractS a p.toNat (l.toNat + 1)) s

/-- 05 R114: a field of rd replaced. -/
def execBfi (m : Bool) (d a : BitVec 5) (p l : BitVec 6) (s : State) : Out :=
  aluRD (.bfi m d a p l) m d [gd d, gd a] (fun th => putField (th.rg d) p.toNat (l.toNat + 1) (th.rg a).toNat) s

/-- 05 R115. -/
def execCmp (m : Bool) (p : BitVec 4) (a b : BitVec 5) (c : BitVec 9) (s : State) : Out :=
  predForm (.cmp m p a b c) m p [gd a, gd b] (fun th => condition c.toNat (th.rg a) (th.rg b)) s

/-- 05 R115. -/
def execCmpi (m : Bool) (p : BitVec 4) (a : BitVec 5) (c : BitVec 4) (i : BitVec 10) (s : State) : Out :=
  predForm (.cmpi m p a c i) m p [gd a] (fun th => condition c.toNat (th.rg a) (imm 10 i)) s

/-- 05 R116. -/
def execPand (m : Bool) (d a b : BitVec 4) (s : State) : Out :=
  predForm (.pand m d a b) m d [pd a, pd b] (fun th => th.rp a && th.rp b) s

/-- 05 R116. -/
def execPor (m : Bool) (d a b : BitVec 4) (s : State) : Out :=
  predForm (.por m d a b) m d [pd a, pd b] (fun th => th.rp a || th.rp b) s

/-- 05 R116. -/
def execPxor (m : Bool) (d a b : BitVec 4) (s : State) : Out :=
  predForm (.pxor m d a b) m d [pd a, pd b] (fun th => th.rp a != th.rp b) s

/-- 05 R116. -/
def execPandn (m : Bool) (d a b : BitVec 4) (s : State) : Out :=
  predForm (.pandn m d a b) m d [pd a, pd b] (fun th => th.rp a && !th.rp b) s

/-- 05 R116. -/
def execPnot (m : Bool) (d a : BitVec 4) (s : State) : Out := predForm (.pnot m d a) m d [pd a] (fun th => !th.rp a) s

/-- Every predicate a form that names p0 as the whole set reads or writes. -/
def allPreds : List Dest := (List.range 15).map (fun i => .p (i + 1))

/-- 05 R116: one predicate, or the whole set for p0. Its pq is reported after its destination, and of a whole set the lowest-numbered pending
predicate (DESIGN CHOICE, log 17). -/
def execPrd (m : Bool) (d : BitVec 5) (q : BitVec 4) (s : State) : Out :=
  short { i := .prd m d q, m := m, dst := [gd d], src := if q = 0 then allPreds else [pd q] } s
    (fun th => [toG d (if q = 0 then th.p.zeroExtend 64 else if th.rp q then 1 else 0)])

/-- 05 R116: one predicate from rs1[0], or p15 to p1 from rs1[15:1]. Its pq is the destination and reported first, and of a whole set the
lowest-numbered pending predicate (DESIGN CHOICE, log 17). -/
def execPwr (m : Bool) (a : BitVec 5) (q : BitVec 4) (s : State) : Out :=
  short { i := .pwr m a q, m := m, dst := if q = 0 then allPreds else [pd q], src := [gd a] } s
    (fun th =>
      if q = 0 then (List.range 15).map (fun i => .to (.p (i + 1)) (if (th.rg a).getLsbD (i + 1) then 1 else 0))
      else [toP q ((th.rg a).getLsbD 0)])

/-- 05 R116. Its predicate pq, to which R68 gives no place among the registers, is reported last (DESIGN CHOICE, log 17). -/
def execSel (m : Bool) (d a b : BitVec 5) (q : BitVec 4) (s : State) : Out :=
  short { i := .sel m d a b q, m := m, dst := [gd d], src := [gd a, gd b, pd q] } s
    (fun th => [toG d (if th.rp q then th.rg a else th.rg b)])

/-! ## Compact forms (02 R47) -/

/-- C.MV: a takes b. -/
def execCMv (m : Bool) (a b : BitVec 5) (s : State) : Out := aluR (.cMv m a b) m a b (fun b => b) s

/-- 02 R47. -/
def execCAdd (m : Bool) (a b : BitVec 5) (s : State) : Out := aluRR (.cAdd m a b) m a a b (fun a b => a + b) s

/-- 02 R47. -/
def execCSub (m : Bool) (a b : BitVec 5) (s : State) : Out := aluRR (.cSub m a b) m a a b (fun a b => a - b) s

/-- 02 R47. -/
def execCAnd (m : Bool) (a b : BitVec 5) (s : State) : Out := aluRR (.cAnd m a b) m a a b (fun a b => a &&& b) s

/-- 02 R47. -/
def execCOr (m : Bool) (a b : BitVec 5) (s : State) : Out := aluRR (.cOr m a b) m a a b (fun a b => a ||| b) s

/-- 02 R47. -/
def execCXor (m : Bool) (a b : BitVec 5) (s : State) : Out := aluRR (.cXor m a b) m a a b (fun a b => a ^^^ b) s

/-- 02 R47. -/
def execCShli (m : Bool) (a n : BitVec 5) (s : State) : Out := aluR (.cShli m a n) m a a (fun a => Machine.shl a n.toNat) s

/-- 02 R47. -/
def execCShri (m : Bool) (a n : BitVec 5) (s : State) : Out := aluR (.cShri m a n) m a a (fun a => Machine.shr a n.toNat) s

/-- 02 R47. -/
def execCSrai (m : Bool) (a n : BitVec 5) (s : State) : Out := aluR (.cSrai m a n) m a a (fun a => Machine.sra a n.toNat) s

/-- 02 R47. -/
def execCAddi (m : Bool) (a n : BitVec 5) (s : State) : Out := aluR (.cAddi m a n) m a a (fun a => a + imm 5 n) s

/-- 02 R47. -/
def execCLi (m : Bool) (a n : BitVec 5) (s : State) : Out :=
  short { i := .cLi m a n, m := m, dst := [gd a] } s (fun _ => [toG a (imm 5 n)])

/-- 02 R47: into p1. -/
def execCCmpeq (m : Bool) (a b : BitVec 5) (s : State) : Out :=
  predForm (.cCmpeq m a b) m 1 [gd a, gd b] (fun th => th.rg a == th.rg b) s

/-- 02 R47: into p1. -/
def execCCmplt (m : Bool) (a b : BitVec 5) (s : State) : Out :=
  predForm (.cCmplt m a b) m 1 [gd a, gd b] (fun th => (th.rg a).slt (th.rg b)) s

end Sys2Proof.Machine
end

