-- ==== Sys2Proof/Machine/Dispatch.lean ====
section
/-! DEFINITION. One arm per constructor of Instr: each one direct call of its meaning. -/
namespace Sys2Proof.Machine

/-- What an instruction or event does to the machine. -/
def exec (i : Instr) (s : State) : Host.Outcome State Fault Refusal :=
  match i with
  | .add m d a b => Sys2Proof.Machine.execAdd m d a b s
  | .sub m d a b => Sys2Proof.Machine.execSub m d a b s
  | .and m d a b => Sys2Proof.Machine.execAnd m d a b s
  | .or m d a b => Sys2Proof.Machine.execOr m d a b s
  | .xor m d a b => Sys2Proof.Machine.execXor m d a b s
  | .andn m d a b => Sys2Proof.Machine.execAndn m d a b s
  | .orn m d a b => Sys2Proof.Machine.execOrn m d a b s
  | .xnor m d a b => Sys2Proof.Machine.execXnor m d a b s
  | .shl m d a b => Sys2Proof.Machine.execShl m d a b s
  | .shr m d a b => Sys2Proof.Machine.execShr m d a b s
  | .sra m d a b => Sys2Proof.Machine.execSra m d a b s
  | .rol m d a b => Sys2Proof.Machine.execRol m d a b s
  | .ror m d a b => Sys2Proof.Machine.execRor m d a b s
  | .minS m d a b => Sys2Proof.Machine.execMinS m d a b s
  | .minZ m d a b => Sys2Proof.Machine.execMinZ m d a b s
  | .maxS m d a b => Sys2Proof.Machine.execMaxS m d a b s
  | .maxZ m d a b => Sys2Proof.Machine.execMaxZ m d a b s
  | .addW m d a b => Sys2Proof.Machine.execAddW m d a b s
  | .subW m d a b => Sys2Proof.Machine.execSubW m d a b s
  | .shlW m d a b => Sys2Proof.Machine.execShlW m d a b s
  | .shrW m d a b => Sys2Proof.Machine.execShrW m d a b s
  | .sraW m d a b => Sys2Proof.Machine.execSraW m d a b s
  | .mul m d a b => Sys2Proof.Machine.execMul m d a b s
  | .mulhS m d a b => Sys2Proof.Machine.execMulhS m d a b s
  | .mulhZ m d a b => Sys2Proof.Machine.execMulhZ m d a b s
  | .mulhSz m d a b => Sys2Proof.Machine.execMulhSz m d a b s
  | .divS m d a b => Sys2Proof.Machine.execDivS m d a b s
  | .divZ m d a b => Sys2Proof.Machine.execDivZ m d a b s
  | .remS m d a b => Sys2Proof.Machine.execRemS m d a b s
  | .remZ m d a b => Sys2Proof.Machine.execRemZ m d a b s
  | .mulW m d a b => Sys2Proof.Machine.execMulW m d a b s
  | .clz m d a => Sys2Proof.Machine.execClz m d a s
  | .ctz m d a => Sys2Proof.Machine.execCtz m d a s
  | .popc m d a => Sys2Proof.Machine.execPopc m d a s
  | .bswap m d a => Sys2Proof.Machine.execBswap m d a s
  | .brev m d a => Sys2Proof.Machine.execBrev m d a s
  | .sextB m d a => Sys2Proof.Machine.execSextB m d a s
  | .sextH m d a => Sys2Proof.Machine.execSextH m d a s
  | .sextW m d a => Sys2Proof.Machine.execSextW m d a s
  | .zextB m d a => Sys2Proof.Machine.execZextB m d a s
  | .zextH m d a => Sys2Proof.Machine.execZextH m d a s
  | .zextW m d a => Sys2Proof.Machine.execZextW m d a s
  | .addi m d a j_ => Sys2Proof.Machine.execAddi m d a j_ s
  | .andi m d a j_ => Sys2Proof.Machine.execAndi m d a j_ s
  | .ori m d a j_ => Sys2Proof.Machine.execOri m d a j_ s
  | .xori m d a j_ => Sys2Proof.Machine.execXori m d a j_ s
  | .shli m d a n => Sys2Proof.Machine.execShli m d a n s
  | .shri m d a n => Sys2Proof.Machine.execShri m d a n s
  | .srai m d a n => Sys2Proof.Machine.execSrai m d a n s
  | .roli m d a n => Sys2Proof.Machine.execRoli m d a n s
  | .shliW m d a n => Sys2Proof.Machine.execShliW m d a n s
  | .shriW m d a n => Sys2Proof.Machine.execShriW m d a n s
  | .sraiW m d a n => Sys2Proof.Machine.execSraiW m d a n s
  | .lui m d j_ => Sys2Proof.Machine.execLui m d j_ s
  | .auipc m d j_ => Sys2Proof.Machine.execAuipc m d j_ s
  | .lih m d j_ => Sys2Proof.Machine.execLih m d j_ s
  | .bfxZ m d a p l => Sys2Proof.Machine.execBfxZ m d a p l s
  | .bfxS m d a p l => Sys2Proof.Machine.execBfxS m d a p l s
  | .bfi m d a p l => Sys2Proof.Machine.execBfi m d a p l s
  | .cmp m p a b c => Sys2Proof.Machine.execCmp m p a b c s
  | .cmpi m p a c j_ => Sys2Proof.Machine.execCmpi m p a c j_ s
  | .pand m d a b => Sys2Proof.Machine.execPand m d a b s
  | .por m d a b => Sys2Proof.Machine.execPor m d a b s
  | .pxor m d a b => Sys2Proof.Machine.execPxor m d a b s
  | .pandn m d a b => Sys2Proof.Machine.execPandn m d a b s
  | .pnot m d a => Sys2Proof.Machine.execPnot m d a s
  | .prd m d q => Sys2Proof.Machine.execPrd m d q s
  | .pwr m a q => Sys2Proof.Machine.execPwr m a q s
  | .sel m d a b q => Sys2Proof.Machine.execSel m d a b q s
  | .j m j_ => Sys2Proof.Machine.execJ m j_ s
  | .call m j_ => Sys2Proof.Machine.execCall m j_ s
  | .bp m p j_ => Sys2Proof.Machine.execBp m p j_ s
  | .bnp m p j_ => Sys2Proof.Machine.execBnp m p j_ s
  | .jr m a => Sys2Proof.Machine.execJr m a s
  | .callr m a => Sys2Proof.Machine.execCallr m a s
  | .ret m => Sys2Proof.Machine.execRet m s
  | .bz m oLo a o => Sys2Proof.Machine.execBz m oLo a o s
  | .bnz m oLo a o => Sys2Proof.Machine.execBnz m oLo a o s
  | .nop m => Sys2Proof.Machine.execNop m s
  | .yield m => Sys2Proof.Machine.execYield m s
  | .exit m => Sys2Proof.Machine.execExit m s
  | .sleep m a => Sys2Proof.Machine.execSleep m a s
  | .cMv m a b => Sys2Proof.Machine.execCMv m a b s
  | .cAdd m a b => Sys2Proof.Machine.execCAdd m a b s
  | .cSub m a b => Sys2Proof.Machine.execCSub m a b s
  | .cAnd m a b => Sys2Proof.Machine.execCAnd m a b s
  | .cOr m a b => Sys2Proof.Machine.execCOr m a b s
  | .cXor m a b => Sys2Proof.Machine.execCXor m a b s
  | .cShli m a n => Sys2Proof.Machine.execCShli m a n s
  | .cShri m a n => Sys2Proof.Machine.execCShri m a n s
  | .cSrai m a n => Sys2Proof.Machine.execCSrai m a n s
  | .cAddi m a n => Sys2Proof.Machine.execCAddi m a n s
  | .cLi m a n => Sys2Proof.Machine.execCLi m a n s
  | .cLd m a b => Sys2Proof.Machine.execCLd m a b s
  | .cSt m a b => Sys2Proof.Machine.execCSt m a b s
  | .cCmpeq m a b => Sys2Proof.Machine.execCCmpeq m a b s
  | .cCmplt m a b => Sys2Proof.Machine.execCCmplt m a b s
  | .cBp1 m o => Sys2Proof.Machine.execCBp1 m o s
  | .ld m d a f j_ => Sys2Proof.Machine.execLd m d a f j_ s
  | .ldr m d a f j_ => Sys2Proof.Machine.execLdr m d a f j_ s
  | .st m d a f j_ => Sys2Proof.Machine.execSt m d a f j_ s
  | .str m d a f j_ => Sys2Proof.Machine.execStr m d a f j_ s
  | .ldfe m d a j_ => Sys2Proof.Machine.execLdfe m d a j_ s
  | .ldff m d a j_ => Sys2Proof.Machine.execLdff m d a j_ s
  | .stef m d a j_ => Sys2Proof.Machine.execStef m d a j_ s
  | .stff m d a j_ => Sys2Proof.Machine.execStff m d a j_ s
  | .feprobe m d a j_ => Sys2Proof.Machine.execFeprobe m d a j_ s
  | .feset m d a j_ => Sys2Proof.Machine.execFeset m d a j_ s
  | .migrate m a j_ => Sys2Proof.Machine.execMigrate m a j_ s
  | .pin m => Sys2Proof.Machine.execPin m s
  | .unpin m => Sys2Proof.Machine.execUnpin m s
  | .home m => Sys2Proof.Machine.execHome m s
  | .here m d => Sys2Proof.Machine.execHere m d s
  | .ramo m a b p z o => Sys2Proof.Machine.execRamo m a b p z o s
  | .amo m d a b p z o => Sys2Proof.Machine.execAmo m d a b p z o s
  | .cas m d a b c z o => Sys2Proof.Machine.execCas m d a b c z o s
  | .fence m q_ k => Sys2Proof.Machine.execFence m q_ k s
  | .barInit m a b => Sys2Proof.Machine.execBarInit m a b s
  | .barArr m d a b => Sys2Proof.Machine.execBarArr m d a b s
  | .barWait m d a b => Sys2Proof.Machine.execBarWait m d a b s
  | .barArrw m d a b => Sys2Proof.Machine.execBarArrw m d a b s
  | .barCmb m d a b => Sys2Proof.Machine.execBarCmb m d a b s
  | .barCmbw m d a b => Sys2Proof.Machine.execBarCmbw m d a b s
  | .hbar m l => Sys2Proof.Machine.execHbar m l s
  | .hbarCmb m d a l o => Sys2Proof.Machine.execHbarCmb m d a l o s
  | .time m d => Sys2Proof.Machine.execTime m d s
  | .waitt m a => Sys2Proof.Machine.execWaitt m a s
  | .cycle m d => Sys2Proof.Machine.execCycle m d s
  | .fadd m d a b f r => Sys2Proof.Machine.execFadd m d a b f r s
  | .fsub m d a b f r => Sys2Proof.Machine.execFsub m d a b f r s
  | .fmul m d a b f r => Sys2Proof.Machine.execFmul m d a b f r s
  | .fdiv m d a b f r => Sys2Proof.Machine.execFdiv m d a b f r s
  | .fsqrt m d a f r => Sys2Proof.Machine.execFsqrt m d a f r s
  | .fmin m d a b f => Sys2Proof.Machine.execFmin m d a b f s
  | .fmax m d a b f => Sys2Proof.Machine.execFmax m d a b f s
  | .fsgnj m d a b f => Sys2Proof.Machine.execFsgnj m d a b f s
  | .fsgnjn m d a b f => Sys2Proof.Machine.execFsgnjn m d a b f s
  | .fsgnjx m d a b f => Sys2Proof.Machine.execFsgnjx m d a b f s
  | .fclass m d a f => Sys2Proof.Machine.execFclass m d a f s
  | .fma m d a b c f => Sys2Proof.Machine.execFma m d a b c f s
  | .fms m d a b c f => Sys2Proof.Machine.execFms m d a b c f s
  | .fnma m d a b c f => Sys2Proof.Machine.execFnma m d a b c f s
  | .fnms m d a b c f => Sys2Proof.Machine.execFnms m d a b c f s
  | .fcmp m p a b c f => Sys2Proof.Machine.execFcmp m p a b c f s
  | .fcvt m d a f o r u => Sys2Proof.Machine.execFcvt m d a f o r u s
  | .vadd m d k a b t => Sys2Proof.Machine.execVadd m d k a b t s
  | .vsub m d k a b t => Sys2Proof.Machine.execVsub m d k a b t s
  | .vmul m d k a b t => Sys2Proof.Machine.execVmul m d k a b t s
  | .vmulh m d k a b t => Sys2Proof.Machine.execVmulh m d k a b t s
  | .vmin m d k a b t => Sys2Proof.Machine.execVmin m d k a b t s
  | .vmax m d k a b t => Sys2Proof.Machine.execVmax m d k a b t s
  | .vand m d k a b t => Sys2Proof.Machine.execVand m d k a b t s
  | .vor m d k a b t => Sys2Proof.Machine.execVor m d k a b t s
  | .vxor m d k a b t => Sys2Proof.Machine.execVxor m d k a b t s
  | .vshl m d k a b t => Sys2Proof.Machine.execVshl m d k a b t s
  | .vshr m d k a b t => Sys2Proof.Machine.execVshr m d k a b t s
  | .vsra m d k a b t => Sys2Proof.Machine.execVsra m d k a b t s
  | .vabs m d k a t => Sys2Proof.Machine.execVabs m d k a t s
  | .vneg m d k a t => Sys2Proof.Machine.execVneg m d k a t s
  | .vfma m d k a b t => Sys2Proof.Machine.execVfma m d k a b t s
  | .vfms m d k a b t => Sys2Proof.Machine.execVfms m d k a b t s
  | .vfnma m d k a b t => Sys2Proof.Machine.execVfnma m d k a b t s
  | .vcmp m d k a b t c => Sys2Proof.Machine.execVcmp m d k a b t c s
  | .vsel m d k a b t => Sys2Proof.Machine.execVsel m d k a b t s
  | .vperm m d k a b t => Sys2Proof.Machine.execVperm m d k a b t s
  | .vbcast m v k g t => Sys2Proof.Machine.execVbcast m v k g t s
  | .vext m v g h t => Sys2Proof.Machine.execVext m v g h t s
  | .vins m v g h t => Sys2Proof.Machine.execVins m v g h t s
  | .viota m d k t => Sys2Proof.Machine.execViota m d k t s
  | .vrsum m v k g t => Sys2Proof.Machine.execVrsum m v k g t s
  | .vrmax m v k g t => Sys2Proof.Machine.execVrmax m v k g t s
  | .vrmin m v k g t => Sys2Proof.Machine.execVrmin m v k g t s
  | .vrmaxabs m v k g t => Sys2Proof.Machine.execVrmaxabs m v k g t s
  | .vcvt m d k a o f => Sys2Proof.Machine.execVcvt m d k a o f s
  | .vquant m v k g r u t => Sys2Proof.Machine.execVquant m v k g r u t s
  | .vdeq m v k g t => Sys2Proof.Machine.execVdeq m v k g t s
  | .vdot m d k a b t => Sys2Proof.Machine.execVdot m d k a b t s
  | .vdots m d k a b t => Sys2Proof.Machine.execVdots m d k a b t s
  | .vld m v k g j_ => Sys2Proof.Machine.execVld m v k g j_ s
  | .vst m v k g j_ => Sys2Proof.Machine.execVst m v k g j_ s
  | .vlds m v k g h t => Sys2Proof.Machine.execVlds m v k g h t s
  | .vsts m v k g h t => Sys2Proof.Machine.execVsts m v k g h t s
  | .vgth m v k g x t => Sys2Proof.Machine.execVgth m v k g x t s
  | .vsct m v k g x t => Sys2Proof.Machine.execVsct m v k g x t s
  | .kand m d a b => Sys2Proof.Machine.execKand m d a b s
  | .kor m d a b => Sys2Proof.Machine.execKor m d a b s
  | .kxor m d a b => Sys2Proof.Machine.execKxor m d a b s
  | .knot m d a => Sys2Proof.Machine.execKnot m d a s
  | .kmovGk m v g => Sys2Proof.Machine.execKmovGk m v g s
  | .kmovKg m v g => Sys2Proof.Machine.execKmovKg m v g s
  | .kpop m v g => Sys2Proof.Machine.execKpop m v g s
  | .ktest m v k g => Sys2Proof.Machine.execKtest m v k g s
  | .vfree m d => Sys2Proof.Machine.execVfree m d s
  | .vmov m d k a => Sys2Proof.Machine.execVmov m d k a s
  | .mlease m => Sys2Proof.Machine.execMlease m s
  | .mtryl m d => Sys2Proof.Machine.execMtryl m d s
  | .mrel m a => Sys2Proof.Machine.execMrel m a s
  | .missue m d a => Sys2Proof.Machine.execMissue m d a s
  | .mwait m d a => Sys2Proof.Machine.execMwait m d a s
  | .mseq m d a => Sys2Proof.Machine.execMseq m d a s
  | .maccv m v a => Sys2Proof.Machine.execMaccv m v a s
  | .maccw m v a => Sys2Proof.Machine.execMaccw m v a s
  | .spawn m d b c => Sys2Proof.Machine.execSpawn m d b c s
  | .spawnat m d b c => Sys2Proof.Machine.execSpawnat m d b c s
  | .spawnany m d b c => Sys2Proof.Machine.execSpawnany m d b c s
  | .tid m d => Sys2Proof.Machine.execTid m d s
  | .prio m a => Sys2Proof.Machine.execPrio m a s
  | .qsend m g h => Sys2Proof.Machine.execQsend m g h s
  | .qrecv m g h c => Sys2Proof.Machine.execQrecv m g h c s
  | .qeos m h => Sys2Proof.Machine.execQeos m h s
  | .qstat m d h => Sys2Proof.Machine.execQstat m d h s
  | .dsend m g h => Sys2Proof.Machine.execDsend m g h s
  | .drecv m g h c => Sys2Proof.Machine.execDrecv m g h c s
  | .dseal m h c => Sys2Proof.Machine.execDseal m h c s
  | .dquiet m d h => Sys2Proof.Machine.execDquiet m d h s
  | .xupd m d h c => Sys2Proof.Machine.execXupd m d h c s
  | .xscan m g h => Sys2Proof.Machine.execXscan m g h s
  | .xcnt m d h c => Sys2Proof.Machine.execXcnt m d h c s
  | .cpy m a b c l => Sys2Proof.Machine.execCpy m a b c l s
  | .cpy2d m a b => Sys2Proof.Machine.execCpy2d m a b s
  | .awinit m d b c => Sys2Proof.Machine.execAwinit m d b c s
  | .awwait m d b c => Sys2Proof.Machine.execAwwait m d b c s
  | .scstart m d b c => Sys2Proof.Machine.execScstart m d b c s
  | .scmail m d b c => Sys2Proof.Machine.execScmail m d b c s
  | .scwait m d c => Sys2Proof.Machine.execScwait m d c s
  | .sysr m d j_ => Sys2Proof.Machine.execSysr m d j_ s
  | .sysw m a j_ => Sys2Proof.Machine.execSysw m a j_ s
  | .trap m j_ => Sys2Proof.Machine.execTrap m j_ s
  | .syscall m => Sys2Proof.Machine.execSyscall m s
  | .eret m => Sys2Proof.Machine.execEret m s
  | .brk m => Sys2Proof.Machine.execBrk m s
  | .wake m a b => Sys2Proof.Machine.execWake m a b s
  | .inval m b => Sys2Proof.Machine.execInval m b s
  | .segld m b => Sys2Proof.Machine.execSegld m b s
  | .bkRd d a => Sys2Proof.Machine.execBkRd d a s
  | .bkWr a b => Sys2Proof.Machine.execBkWr a b s
  | .bkGet d a b c => Sys2Proof.Machine.execBkGet d a b c s
  | .bkPut d a b c => Sys2Proof.Machine.execBkPut d a b c s
  | .bkWait d a b => Sys2Proof.Machine.execBkWait d a b s
  | .bkSig a b => Sys2Proof.Machine.execBkSig a b s
  | .bookendBaseInstruction w => Sys2Proof.Machine.execBookendBaseInstruction w s
  | .longResultReturn t c k n => Sys2Proof.Machine.execLongResultReturn t c k n s
  | .normaliserServiceEnd t => Sys2Proof.Machine.execNormaliserServiceEnd t s
  | .sleepDeadline t c k => Sys2Proof.Machine.execSleepDeadline t c k s
  | .vectorBind t => Sys2Proof.Machine.execVectorBind t s
  | .storeBufferDrain t c bad => Sys2Proof.Machine.execStoreBufferDrain t c bad s
  | .migrationCommit t c k => Sys2Proof.Machine.execMigrationCommit t c k s
  | .departureConvert t c k => Sys2Proof.Machine.execDepartureConvert t c k s
  | .hutchAdmit n => Sys2Proof.Machine.execHutchAdmit n s
  | .hutchDispatch t => Sys2Proof.Machine.execHutchDispatch t s
  | .contextLoadDone t c k => Sys2Proof.Machine.execContextLoadDone t c k s
  | .idleDonationRequest t => Sys2Proof.Machine.execIdleDonationRequest t s
  | .donationShip n => Sys2Proof.Machine.execDonationShip n s
  | .parkMove t c k => Sys2Proof.Machine.execParkMove t c k s
  | .wakeMessage n => Sys2Proof.Machine.execWakeMessage n s
  | .retireNote n => Sys2Proof.Machine.execRetireNote n s
  | .quotaIncrement n => Sys2Proof.Machine.execQuotaIncrement n s
  | .quotaDecrement n => Sys2Proof.Machine.execQuotaDecrement n s
  | .remoteRequest n => Sys2Proof.Machine.execRemoteRequest n s
  | .remoteResponse n => Sys2Proof.Machine.execRemoteResponse n s
  | .postedOp n => Sys2Proof.Machine.execPostedOp n s
  | .postedAck n => Sys2Proof.Machine.execPostedAck n s
  | .waiterRetry t c k => Sys2Proof.Machine.execWaiterRetry t c k s
  | .feBudgetExpire t c k => Sys2Proof.Machine.execFeBudgetExpire t c k s
  | .feWithdrawAck n => Sys2Proof.Machine.execFeWithdrawAck n s
  | .barWaitTimeout t c k => Sys2Proof.Machine.execBarWaitTimeout t c k s
  | .hbarTreeArrive n => Sys2Proof.Machine.execHbarTreeArrive n s
  | .hbarTreeRelease n => Sys2Proof.Machine.execHbarTreeRelease n s
  | .hbarTimeout t c k => Sys2Proof.Machine.execHbarTimeout t c k s
  | .queueRecordAppend n => Sys2Proof.Machine.execQueueRecordAppend n s
  | .resendRetry t => Sys2Proof.Machine.execResendRetry t s
  | .dresserRecordApply n => Sys2Proof.Machine.execDresserRecordApply n s
  | .dresserNote n => Sys2Proof.Machine.execDresserNote n s
  | .bandPass t q => Sys2Proof.Machine.execBandPass t q s
  | .trestleCommandStart t => Sys2Proof.Machine.execTrestleCommandStart t s
  | .trestleStep t => Sys2Proof.Machine.execTrestleStep t s
  | .trestleCommandComplete t => Sys2Proof.Machine.execTrestleCommandComplete t s
  | .operandLineRequest n => Sys2Proof.Machine.execOperandLineRequest n s
  | .mcastWindowExpire t n => Sys2Proof.Machine.execMcastWindowExpire t n s
  | .operandLineArrive n => Sys2Proof.Machine.execOperandLineArrive n s
  | .leaseExpireTime t => Sys2Proof.Machine.execLeaseExpireTime t s
  | .copyPieceIssue t => Sys2Proof.Machine.execCopyPieceIssue t s
  | .copyRead n => Sys2Proof.Machine.execCopyRead n s
  | .copyWrite n => Sys2Proof.Machine.execCopyWrite n s
  | .arrivalCount n => Sys2Proof.Machine.execArrivalCount n s
  | .pageWalkComplete t n => Sys2Proof.Machine.execPageWalkComplete t n s
  | .faultRecordWrite t => Sys2Proof.Machine.execFaultRecordWrite t s
  | .invalCommand n => Sys2Proof.Machine.execInvalCommand n s
  | .sysBroadcastAck n => Sys2Proof.Machine.execSysBroadcastAck n s
  | .segldTable n => Sys2Proof.Machine.execSegldTable n s
  | .rtClassUpdate n => Sys2Proof.Machine.execRtClassUpdate n s
  | .classSwitchTake t => Sys2Proof.Machine.execClassSwitchTake t s
  | .vaultFillReturn t n errs => Sys2Proof.Machine.execVaultFillReturn t n errs s
  | .writebackEntryFree t n => Sys2Proof.Machine.execWritebackEntryFree t n s
  | .prefetchIssue t n => Sys2Proof.Machine.execPrefetchIssue t n s
  | .scrubRead t line seen => Sys2Proof.Machine.execScrubRead t line seen s
  | .routerHop n => Sys2Proof.Machine.execRouterHop n s
  | .ageTick md => Sys2Proof.Machine.execAgeTick md s
  | .periodicDrain md => Sys2Proof.Machine.execPeriodicDrain md s
  | .linkFailure md site port => Sys2Proof.Machine.execLinkFailure md site port s
  | .routerFailure md site plane => Sys2Proof.Machine.execRouterFailure md site plane s
  | .nameTableSwitch md => Sys2Proof.Machine.execNameTableSwitch md s
  | .tileReset t => Sys2Proof.Machine.execTileReset t s
  | .nonresidentSpill n => Sys2Proof.Machine.execNonresidentSpill n s
  | .gangStop t => Sys2Proof.Machine.execGangStop t s
  | .gangSave t => Sys2Proof.Machine.execGangSave t s
  | .gangResume asid => Sys2Proof.Machine.execGangResume asid s
  | .powerOnReset md => Sys2Proof.Machine.execPowerOnReset md s
  | .recoveryInstall md => Sys2Proof.Machine.execRecoveryInstall md s
  | .recoveryLogReset md => Sys2Proof.Machine.execRecoveryLogReset md s
  | .hostRegisterWrite md port off val => Sys2Proof.Machine.execHostRegisterWrite md port off val s
  | .mgSemRead md port n => Sys2Proof.Machine.execMgSemRead md port n s
  | .mgSemWrite md port n val => Sys2Proof.Machine.execMgSemWrite md port n val s
  | .mgLqtail md port val => Sys2Proof.Machine.execMgLqtail md port val s
  | .launchValidate md => Sys2Proof.Machine.execLaunchValidate md s
  | .launchPlace md lid => Sys2Proof.Machine.execLaunchPlace md lid s
  | .backfillFence md => Sys2Proof.Machine.execBackfillFence md s
  | .launchComplete md lid => Sys2Proof.Machine.execLaunchComplete md lid s
  | .mgRetire md port val => Sys2Proof.Machine.execMgRetire md port val s
  | .mgAbort md port val => Sys2Proof.Machine.execMgAbort md port val s
  | .mgCtx md port off val => Sys2Proof.Machine.execMgCtx md port off val s
  | .dbgHalt md pod => Sys2Proof.Machine.execDbgHalt md pod s
  | .dbgResume md pod => Sys2Proof.Machine.execDbgResume md pod s
  | .dbgFreeze md => Sys2Proof.Machine.execDbgFreeze md s
  | .dbgBrkhalt md on => Sys2Proof.Machine.execDbgBrkhalt md on s
  | .mgDbgstep md val => Sys2Proof.Machine.execMgDbgstep md val s
  | .debugHaltTake md => Sys2Proof.Machine.execDebugHaltTake md s
  | .debugResumeTake md => Sys2Proof.Machine.execDebugResumeTake md s
  | .stepEnd md => Sys2Proof.Machine.execStepEnd md s
  | .apertureRead md port off size => Sys2Proof.Machine.execApertureRead md port off size s
  | .apertureWrite md port off bytes => Sys2Proof.Machine.execApertureWrite md port off bytes s
  | .portLinkDown md port => Sys2Proof.Machine.execPortLinkDown md port s
  | .hostCompletionTimeout n => Sys2Proof.Machine.execHostCompletionTimeout n s
  | .getVersion md port => Sys2Proof.Machine.execGetVersion md port s
  | .getCapabilities md port => Sys2Proof.Machine.execGetCapabilities md port s
  | .negotiateAlgorithms md port => Sys2Proof.Machine.execNegotiateAlgorithms md port s
  | .getDigests md port => Sys2Proof.Machine.execGetDigests md port s
  | .getCertificate md port => Sys2Proof.Machine.execGetCertificate md port s
  | .challenge md port nonce => Sys2Proof.Machine.execChallenge md port nonce s
  | .getMeasurements md port n => Sys2Proof.Machine.execGetMeasurements md port n s
  | .powerExcursion md => Sys2Proof.Machine.execPowerExcursion md s
  | .powerRestored md => Sys2Proof.Machine.execPowerRestored md s
  | .thermalShutdown md => Sys2Proof.Machine.execThermalShutdown md s
  | .illegalEncoding w => Sys2Proof.Machine.execIllegalEncoding w s
  | .fetchFault cause => Sys2Proof.Machine.execFetchFault cause s
  | .hostLinkUp md port => Sys2Proof.Machine.execHostLinkUp md port s
  | .ejectionPortReopen t => Sys2Proof.Machine.execEjectionPortReopen t s

end Sys2Proof.Machine
end

