-- ==== Sys2Proof/Machine/Turn.lean ====
section
/-! DEFINITION. A thread's turn: what it begins with, when it is not taken, and a fetch that must wait (15 R324, R325). -/
namespace Sys2Proof.Machine

/-- The slot becomes the executing one (15 R324). -/
def State.beginTurn (s : State) (t c k : Nat) : State := { s with cur := (t, c, k) }

/-- The turn is taken: the rotation pointer moves to the slot, the core issues no more in this cycle, the thread's next turn is at least
8 cycles away (15 R324, R330). -/
def State.turnTaken (s : State) (t c k : Nat) : State :=
  s.mapTile t (fun tl =>
    let co := tl.core c
    let th := co.slots.get {} k
    { tl.setCore c { co with
        rot := k, nextTurn := s.time + 1, slots := co.slots.set k { th with nextTurn := s.time + 8 } } with
      turns := tl.turns + 1 })

/-- The executing thread resumes issue: a slot of the Trestle that its stop left ORPHANED is so no more (10 R221). -/
def State.reclaims (s : State) : State :=
  let mine := fun (a : Acc) => a.orphaned && a.owner == some s.me.tid
  if s.myTile.accs.any (fun e => mine e.2) then
    s.mapTile s.here (fun tl => { tl with accs := tl.accs.map (fun e => (e.1, if mine e.2 then { e.2 with orphaned := false } else e.2)) })
  else s

/-- A YIELD defers its thread while another slot of the core is READY (05 R124). One whose access or fetch is in a page walk takes no turn
(13 R281) and does not count as READY (DESIGN CHOICE, log 13). -/
def State.deferred (s : State) (th : Thread) : Bool :=
  decide (s.time < th.yieldUntil) && s.myTile.threads.any (fun e => e.1 == s.cur.2.1 && e.2.1 != s.cur.2.2 &&
    (e.2.2.runs || e.2.2.resumes))

/-- Issue is stopped by a gang stop, a debug halt, a BRK or a machine-check stop (16 R349, 19 R409, R410, 16 R332). -/
def State.stopped (s : State) : Bool :=
  let m := s.module (Config.nameM s.here)
  !s.unitsRun s.here || s.myCore.stopped || ((m.halted || s.myCore.brkStopped) && m.stepTid != some s.me.tid)

/-- A thread that steps issues one instruction (19 R411). -/
def State.stepDone (s : State) : Bool :=
  let m := s.module (Config.nameM s.here)
  m.stepping && m.stepTid == some s.me.tid && m.stepIssued

/-- The 8 cycles after the thread's last turn are over, and its core has not issued in this cycle (15 R324). -/
def State.spaced (s : State) : Bool := decide (s.me.nextTurn ≤ s.time) && decide (s.myCore.nextTurn ≤ s.time)

def State.takesTurn (s : State) : Bool :=
  ((s.me.runs && !s.stepDone) || s.me.resumes) && s.spaced && !s.stopped && !s.deferred s.me

/-- The slot whose turn it is on a core: the first after the rotation pointer that may take one (15 R324). -/
def State.chosen (s : State) (t c : Nat) : Option Nat :=
  let rot := ((s.tile t).core c).rot
  ((List.range 16).map (fun i => (rot + 1 + i) % 16)).find? (fun k => (s.beginTurn t c k).takesTurn)

/-- A fetch whose page is not present waits as an access of its thread would: a walk finds the page absent, unless it has come meanwhile;
with 32 walks active it is tried again (16 R338, R339; log 13). -/
def State.fetchMiss (s : State) (va : Dword) : State :=
  let t := s.here
  let seg := vaSeg va
  let d := s.myTile.seg seg
  match s.startWalk t s.me.asid.toNat seg d.mapping (vaOff va) va false (.fetch s.cur.2.1 s.cur.2.2) with
  | some s' => s'.setMe { s'.me with walking := true }
  | none => s

end Sys2Proof.Machine
end

