-- ==== Sys2Proof/Machine/Agents.lean ====
section
/-! DEFINITION. The turns of threads and Bookends: fetch, decode, execute (02 R63, 15 R324, 12 R262), and the step of one thread that a
halted module makes (19 R411). -/
namespace Sys2Proof.Machine

/-- The instruction at PC is fetched, decoded and executed (02 R63). Bits that are no instruction trap ILLEGAL (02 R61). -/
def State.fetchExec (s : State) : Out :=
  match s.fetch s.here s.me.asid.toNat s.me.scratch s.me.pc with
  | .bits w =>
    match decodeWord w with
    | .ok i => exec i s
    | .error _ => execIllegalEncoding (BitVec.ofNat 32 w) s
  | .fault c _ => execFetchFault c s
  | .miss va => .next (s.fetchMiss va)

/-- A read of code decodes the lines of tile memory that hold it (14 R298). -/
def State.decodeCode (s : State) : State :=
  if s.myTile.errs.isEmpty then s
  else
    let half := fun (s : State) (pc : CodeAddr) =>
      let va := codeVA pc
      match s.codeAt s.here s.me.asid.toNat (vaSeg va) (s.myTile.seg (vaSeg va)) (vaOff va) with
      | some a => s.decodeRange a 2
      | none => s
    let s := half s s.me.pc
    match s.fetchHalf s.here s.me.asid.toNat s.me.scratch s.me.pc with
    | .bits lo => if isFull lo then half s (s.me.pc + 2) else s
    | _ => s

/-- The thread in `after` has issued the instruction that it had yet to issue in `before`: it counts, or it traps. -/
def State.hasIssued (before after : State) : Bool :=
  let t := before.here
  (before.tile t).ct.get 0 0x260 != (after.tile t).ct.get 0 0x260 || before.me.pc != after.me.pc || before.me.cause != after.me.cause ||
  after.me.st == .halted ||
  (match after.me.hold with
    | .trap _ _ _ => after.me.st == .markWait
    | _ => false)

/-- The thread notes when it issued an instruction (07 R145), its tile that it is not idle (15 R323), and a step of one thread that its
instruction has issued (19 R411). -/
def State.noteStep (before after : State) : State :=
  let md := Config.nameM before.here
  let m := after.module md
  let after := if before.hasIssued after then
    after.mapTile before.here (fun tl => { tl with idleSince := before.residentCycles before.here }) else after
  let after := if before.hasIssued after && after.me.st != .free then after.setMe { after.me with issuedAt := before.time } else after
  if m.stepping && m.stepTid == some before.me.tid && before.hasIssued after then after.setModule md { m with stepIssued := true }
  else after

/-- A thread that only begins to wait takes no turn (15 R326). -/
def State.onlyWaits (before after : State) : Bool :=
  (after.me.walking || after.me.st == .markWait) && !before.hasIssued after

/-- The thread in a slot takes its turn (15 R324), where the turn is its: it presents an access that has not been accepted, or executes
an instruction. -/
def turn (t c k : Nat) (s : State) : Out :=
  let mine := s.chosen t c == some k
  let s := s.beginTurn t c k
  if !mine then .next s
  else if s.me.resumes then .next ((s.turnTaken t c k).acceptOwn t c k)
  else
    match s.reclaims.decodeCode.fetchExec with
    | .next s' => .next (if s.onlyWaits s' then s' else (s.noteStep s').turnTaken t c k)
    | .fault e => .fault e
    | .refused r => .refused r

/-- A Bookend executes one instruction: a custom-0 word of its own six, or a base instruction (12 R262, R265). -/
def bookendTurn (t b : Nat) (s : State) : Out :=
  let s := { s with curBk := (t, b) }
  if !s.bookendRuns then .next s
  else
    match (if s.bk.pc.toNat + 4 ≤ imemBytes then decodeBookend s.bookendWord else .error .selector) with
    | .ok i => exec i s
    | .error _ => execBookendBaseInstruction (BitVec.ofNat 32 s.bookendWord) s

end Sys2Proof.Machine
end

