-- ==== Sys2Proof/Machine/Fetch.lean ====
section
/-! DEFINITION. What an agent does when its moment comes, and how an instruction is placed for a thread or a Bookend that the next step
runs (log 11). -/
namespace Sys2Proof.Machine

namespace State

/-- A flit that a router sends arrives in error, and its retry succeeds: CT_LINKRETRY of the tile at the router counts it (18 R390, R397). -/
def linkRetry (s : State) (md r : Nat) : State :=
  match s.nameAt md (routerCol r) (routerRow r) with
  | some t => if (s.module md).routerUp r && s.powered md then s.count t 0x283 else s
  | none => s

/-- The host answers a record that a tile has forwarded, with the effect of a WAKE (16 R343). -/
def answer (s : State) (t : Nat) (tid : BitVec 32) (refuse : Bool) : State :=
  let fwd := (s.dword (sramAt t (s.tile t).faultq.toNat)).getLsbD 32
  if fwd && s.unitsRun t && (s.module (Config.nameM t)).records.any (fun e => e.1 == t && e.2.tid == tid) then s.wake t tid refuse else s

/-- A parity error in a core's vector queue or rotation state stops the core (16 R332). -/
def coreError (s : State) (t c : Nat) : State :=
  let co := (s.tile t).core c
  if co.stopped || (s.tile t).coreSlots c = 0 || !s.unitsRun t then s else s.machineCheckStop t c

/-- A soft error comes to a line of a tile's memory (14 R298, R301). -/
def softError (s : State) (t line : Nat) (e : SoftError) : State :=
  if line < 393216 && e.seen.length ≤ 5 && s.powered (Config.nameM t) then s.strike t line e else s

/-- A unit of a module fails; the boot test will find it (20 R414, R417). -/
def unitFault (s : State) (md col row unit idx : Nat) : State :=
  let m := s.module md
  let names := if unit = 0 then decide (idx < 16) else if unit = 1 || unit = 2 then decide (idx < 4)
    else if unit = 5 then decide (idx < 2) else if unit = 6 then decide (idx < 18) else decide (unit < 5)
  if names && decide (col < 96) && decide (row < 63) then s.setModule md { m with faulty := m.faulty ++ [(col, row, unit, idx)] } else s

/-- The host writes an entry of a port's MSI-X table (19 R398). -/
def writeMsix (s : State) (md port n : Nat) (addr : Dword) (data : Word) (mask : Bool) : State :=
  let m := s.module md
  if port < 2 && n < 8 && !m.frozen && !m.poweredOff then
    s.setModule md { m with ports := m.ports.set port ((m.ports.get {} port).writeMsix n addr data mask) }
  else s

end State

/-- What an agent does. An encoded instruction is executed only by a thread's or a Bookend's turn. -/
def act (a : Agent) (s : State) : Out :=
  match a with
  | .turn t c k => turn t c k s
  | .bookend t b => bookendTurn t b s
  | .event i => if (encode i).isNone then exec i s else .next s
  | .upset t c k d =>
    .next (s.setThread t c k { s.thread t c k with parity := d :: (s.thread t c k).parity.filter (· != d) })
  | .linkRetry md r => .next (s.linkRetry md r)
  | .coreError t c => .next (s.coreError t c)
  | .msixWrite md port n addr data mask => .next (s.writeMsix md port n addr data mask)
  | .answer t tid refuse => .next (s.answer t tid refuse)
  | .unitFault md col row unit idx => .next (s.unitFault md col row unit idx)
  | .softError t line e => .next (s.softError t line e)
  | .transferError t n sector errs => .next (s.transferError t n sector errs)

namespace State

/-- Code of segment 2 at offset 0. -/
def codeStart : CodeAddr := 0x400000000000

/-- A kind 2 segment of one page that may be read and executed. -/
def codeSegment : Segment := { kind := 2, rd := true, x := true, limit := 4096 }

/-- Its page, at offset 0 of tile memory. -/
def codePage (asid : Nat) : TlbEntry :=
  { asid := asid, seg := 2, page := 0, psize := 0, frame := 0, vault := false, wp := false, dirty := false }

/-- Tile (0, 0, 0) of a module that has booted holds a partition that runs. -/
def openTile (s : State) : State :=
  let m := s.module 0
  let s := s.setModule 0 { m with booted := true, recovery := false, frozen := false, poweredOff := false, halted := false }
  s.mapTile 0 (fun tl => { tl with segValid := true, gang := .running })

/-- Slot 0 of core 0 of tile (0, 0, 0) holds a READY thread at the first code address, and it moves next. -/
def withThreadWord (s : State) (w : Nat) : State :=
  let s := (s.openTile).store (sramAt 0 0) (leBytes 4 w)
  let s := s.mapTile 0 (fun tl =>
    let co := tl.core 0
    let th := tl.thread 0 0
    { tl.setCore 0 { co with
        stopped := false, brkStopped := false
        rot := 15, nextTurn := 0
        slots := co.slots.set 0 { th with
          st := .ready, pc := codeStart, asid := tl.asid, pending := [], wait := none, walking := false, yieldUntil := 0
          nextTurn := 0 } } with
      pipe := {}
      segs := tl.segs.set 2 codeSegment
      tlb := codePage tl.asid.toNat :: tl.tlb })
  { s with agenda := (1, .turn 0 0 0) :: s.agenda }

/-- Bookend 0 of tile (0, 0, 0) runs at address 0 of its instruction store, and it moves next. -/
def withBookendWord (s : State) (w : Nat) : State :=
  let s := s.openTile.mapTile 0 (fun tl =>
    let b := tl.bookends.get {} 0
    { tl with bookends := tl.bookends.set 0 { b with
        mode := 1, pc := 0, reading := none, imem := ((leBytes 4 w).zipIdx).foldl (fun x e => x.set e.2 e.1) b.imem } })
  { s with agenda := (1, .bookend 0 0) :: s.agenda }

end State

end Sys2Proof.Machine
end

