-- ==== Sys2Proof/Machine/Clock.lean ====
section
/-! DEFINITION. What time alone brings about: the ticks that no step passes (18 R388, R389, 06 R140), the tile memory pipeline's requests of one
cycle (14 R296), and reads of a semaphore in one cycle (19 R401). -/
namespace Sys2Proof.Machine

abbrev Move := State → Out

/-- The outcome of a move that does something. -/
def Move.effect (f : Move) (s : State) : Option Out :=
  match f s with
  | .next s' => if s' = s then none else some (.next s')
  | o => some o

/-! ## Ticks -/

/-- The first multiple of n from a time on. -/
def nextTick (n now : Nat) : Nat := (now + n - 1) / n * n

namespace State

/-- A module's packets age at this time (18 R388). -/
def agesAt (s : State) (t : Nat) : Bool :=
  s.net.any (fun p => (s.module p.md).agedAt != t && s.powered p.md)

/-- A module drains at this time (18 R389). -/
def drainsAt (s : State) (t : Nat) : Bool :=
  s.mods.any (fun e => e.2.booted && e.2.drainedAt != t && s.powered e.1)

/-- The time at which a tile's partition will have been resident for n cycles. -/
def timeOf (s : State) (t n : Nat) : Nat := s.time + (n - s.residentCycles t)

/-- What a module does at a set time, before anything else in that cycle: its tables switch, retirements that nothing delays take effect,
a halt begins or ends, a saved partition resumes (18 R392, 20 R419, 19 R409, 16 R352). -/
def moduleDeadlines (e : Nat × Module) : List (Nat × Move) :=
  (e.2.nameSwitch.map (fun x => (x.1, execNameTableSwitch e.1))).toList ++
  (e.2.repairAt.map (fun r => (r, execNameTableSwitch e.1))).toList ++
  (if e.2.retiring.isEmpty then [] else [(0, fun s => .next (if s.powered e.1 then s.applyDue e.1 else s))]) ++
  (e.2.haltAt.map (fun x => (x.1, execDebugHaltTake e.1))).toList ++
  (e.2.resumeAt.map (fun r => (r, execDebugResumeTake e.1))).toList ++
  e.2.launches.filterMap (fun l => l.resumeAt.map (fun r => (r, execGangResume l.asid)))

/-- The first cycle after the budget of a thread that waits (06 R134, 07 R161, R167). -/
def waitDeadline (s : State) (t c k : Nat) (th : Thread) : List (Nat × Move) :=
  match th.wait with
  | some w =>
    if th.few = 15 || !(th.st == .feWait || th.st == .barWait || c == 4) then []
    else
      let at_ := s.timeOf t (w.since + 2 ^ (10 + th.few.toNat) + 1)
      [(at_, execFeBudgetExpire t c k), (at_, execBarWaitTimeout t c k), (at_, execHbarTimeout t c k)]
  | none => []

/-- What a tile does at a set time, before anything else in that cycle: a gang stop, a class switch, a wait that ends (16 R349, 18 R378); and in
every cycle it presents again what is reissued from its fault buffer (16 R340), or, resumed, starts once its fall-out has left (R352). -/
def tileDeadlines (s : State) (t : Nat) (tl : Tile) : List (Nat × Move) :=
  (if tl.segValid && tl.gang == .running then [(tl.gangstop.toNat, execGangStop t)] else []) ++
  tl.classSwitch.map (fun e => (e.2.1, execClassSwitchTake t)) ++
  (if tl.faultBuf.any (fun e => e.fault.isNone && !e.walking) then
    [(s.time, fun s => .next (if s.unitsTake t then s.pumpTile t else s))] else []) ++
  (if tl.gang == .resuming then [(s.time, fun s => .next (s.startTile t))] else []) ++
  tl.threads.flatMap (fun e => s.waitDeadline t e.1 e.2.1 e.2.2) ++ tl.parkedArea.flatMap (fun e => s.waitDeadline t 4 e.1 e.2)

/-- What happens at a set time before anything else in that cycle. -/
def deadlines (s : State) : List (Nat × Move) :=
  s.mods.flatMap moduleDeadlines ++ s.tiles.flatMap (fun e => s.tileDeadlines e.1 e.2)

/-- What happens at a set time after all else in that cycle: a departure that is still held at 2,048 cycles converts (06 R137). -/
def lateDeadlines (s : State) : List (Nat × Move) :=
  s.tiles.flatMap (fun e => e.2.threads.filterMap (fun x => if x.2.2.st == .departing then x.2.2.departAt.map (fun since =>
    (since + 2048, execDepartureConvert e.1 x.1 x.2.1)) else none))

/-- The times, up to one, at which some of these will do something. -/
def dueBy (s : State) (upTo : Nat) (ds : List (Nat × Move)) : List Nat :=
  ((ds.map (fun d => (max s.time d.1, d.2))).filter (fun d =>
    decide (d.1 ≤ upTo) && (Move.effect d.2 { s with time := d.1 }).isSome)).map (·.1)

/-- The earliest time from now on, up to the target, at which something is due: an age tick, a drain, the clearing of forwarding
registers, or what has a set time; what goes last in its cycle, before the target. -/
def owed (s : State) (target : Nat) : Option Nat :=
  let age := nextTick 256 s.time
  let drain := nextTick 65536 s.time
  let clears := s.mods.filterMap (fun e =>
    let at_ := max s.time (e.2.drainedAt + 32)
    if State.forwardsDone { s with time := at_ } e.1 then some at_ else none)
  let due := ((if s.agesAt age then [age] else []) ++ (if s.drainsAt drain then [drain] else []) ++ clears).filter
    (fun t => decide (t ≤ target)) ++ s.dueBy target s.deadlines ++ (if target = 0 then [] else s.dueBy (target - 1) s.lateDeadlines)
  due.find? (fun t => due.all (fun x => decide (t ≤ x)))

/-- Of some deadlines, those whose time has come. -/
def meet (s : State) (ds : List (Nat × Move)) : State :=
  (ds.filter (fun d => decide (d.1 ≤ s.time))).foldl (fun s d =>
    match d.2 s with
    | .next s' => s'
    | _ => s) s

/-- Another agent of the agenda acts in this cycle. -/
def actsNow (s : State) : Bool :=
  match s.agenda with
  | (0, _) :: _ => true
  | _ => false

/-- What is due at the present time happens in every module; what goes last, when nothing else acts in this cycle. -/
def tick (s : State) : State :=
  let s := (s.mods.map (·.1) ++ s.net.map (·.md)).eraseDups.foldl (fun s md =>
    let s := if s.drainDue md then s.drainTick md else s
    let s := if s.ageDue md then s.ageTick md else s
    if s.forwardsDone md then s.clearForwards md else s) s
  let s := s.meet s.deadlines
  if s.actsNow then s else s.meet s.lateDeadlines

end State

/-! ## The tile memory pipeline (14 R296) -/

namespace Pipe

/-- A requester's place in the ranking. -/
def rank (p : Pipe) (r : Nat) : Nat := (r + 8 - p.ptr % 8) % 8

/-- The pipeline at a cycle: in a new one the pointer stands after the requester served last. -/
def at_ (p : Pipe) (now : Nat) : Pipe :=
  if p.cycle = now then p
  else
    match p.served.getLast? with
    | some r => { ptr := (r + 1) % 8, cycle := now, served := [] }
    | none => { p with cycle := now }

/-- One of the 4 ports takes a request in this cycle: its requester has not presented one, and ranks after those served. -/
def takes (p : Pipe) (now r : Nat) : Bool :=
  let q := p.at_ now
  decide (q.served.length < 4) &&
  match q.served.getLast? with
  | some l => decide (q.rank l < q.rank r)
  | none => true

def serve (p : Pipe) (now r : Nat) : Pipe := { p.at_ now with served := (p.at_ now).served ++ [r] }

end Pipe

/-- The tile and requester of a packet that reads or writes there. -/
def State.netRequest (s : State) (n : Nat) : Option (Nat × Nat) := (s.net[n]?).map (fun p => (p.dst, p.requester))

/-- The tile and requester of an event that reads or writes tile memory or the vault there (log 71): 0 to 3 the cores, 4 NET, 5 ENG, 6 BK and 7
HUT. -/
def eventRequest (s : State) (i : Instr) : Option (Nat × Nat) :=
  match i with
  | .storeBufferDrain t c _ => some (t, c % 4)
  | .waiterRetry t c _ => if c < 4 then some (t, c) else none
  | .remoteRequest n => s.netRequest n
  | .postedOp n => s.netRequest n
  | .quotaIncrement n => s.netRequest n
  | .quotaDecrement n => s.netRequest n
  | .queueRecordAppend n => s.netRequest n
  | .dresserRecordApply n => s.netRequest n
  | .dresserNote n => s.netRequest n
  | .operandLineRequest n => s.netRequest n
  | .copyRead n => s.netRequest n
  | .copyWrite n => s.netRequest n
  | .arrivalCount n => s.netRequest n
  | .hutchAdmit n => s.netRequest n
  | .mcastWindowExpire t _ => some (t, 4)
  | .hutchDispatch t => some (t, 7)
  | .contextLoadDone t _ _ => some (t, 7)
  | .parkMove t _ _ => some (t, 7)
  | .bandPass t _ => some (t, 7)
  | .vaultFillReturn t _ _ => some (t, 7)
  | .scrubRead t _ _ => some (t, 7)
  | .pageWalkComplete t _ => some (t, 7)
  | .faultRecordWrite t => some (t, 7)
  | _ => none

/-- Forms that read or write tile memory in their own turn where its address is their tile's. A buffered store does so as it drains. -/
def Instr.mayAsk (i : Instr) : Bool :=
  match i with
  | .ld _ _ _ _ _ | .ldr _ _ _ _ _ | .str _ _ _ _ _ | .cLd _ _ _ => true
  | .ldfe _ _ _ _ | .ldff _ _ _ _ | .stef _ _ _ _ | .stff _ _ _ _ | .feprobe _ _ _ _ | .feset _ _ _ _ => true
  | .ramo _ _ _ _ _ _ | .amo _ _ _ _ _ _ _ | .cas _ _ _ _ _ _ _ => true
  | .barInit _ _ _ | .barArr _ _ _ _ | .barWait _ _ _ _ | .barArrw _ _ _ _ | .barCmb _ _ _ _ | .barCmbw _ _ _ _ => true
  | .vld _ _ _ _ _ | .vlds _ _ _ _ _ _ | .vsts _ _ _ _ _ _ | .vgth _ _ _ _ _ _ | .vsct _ _ _ _ _ _ => true
  | .missue _ _ _ | .cpy2d _ _ _ | .scstart _ _ _ _ => true
  | .spawn _ _ _ _ | .spawnat _ _ _ _ | .spawnany _ _ _ _ => true
  | .qsend _ _ _ | .qrecv _ _ _ _ | .qeos _ _ | .dsend _ _ _ | .drecv _ _ _ _ | .dseal _ _ _ => true
  | .xupd _ _ _ _ | .xscan _ _ _ | .xcnt _ _ _ _ | .awinit _ _ _ _ | .awwait _ _ _ _ => true
  | .sysw _ _ n => n == 0x107
  | _ => false

/-- A turn presents a request to the pipeline: it presents its access again, or its instruction accesses tile memory here, and so sends
nothing, and has gone on or waits for the access. -/
def State.turnAsks (s : State) (t c k : Nat) : Bool :=
  s.chosen t c == some k &&
  (let s := s.beginTurn t c k
   s.me.resumes || (match s.fetch s.here s.me.asid.toNat s.me.scratch s.me.pc with
    | .bits w => (match decodeWord w with
      | .ok i => Instr.mayAsk i && (match exec i s with
        | .next u => u.sent == s.sent && u.me.st != .departing && (u.me.wait.isSome || u.me.pc == s.me.nextPc i || u.me.imaged != s.me.imaged)
        | _ => false)
      | .error _ => false)
    | _ => false))

def Agent.request (s : State) (a : Agent) : Option (Nat × Nat) :=
  match a with
  | .turn t c k => if s.turnAsks t c k then some (t, c) else none
  | .event i => eventRequest s i
  | _ => none

/-- The Bookend whose request an agent presents. -/
def Agent.bookend? (s : State) (a : Agent) : Option Nat :=
  let of := fun (n : Nat) => match s.net[n]? with
    | some p => if p.src ≠ p.dst then none else
      match p.body with
      | .request op => op.origin.bookend?
      | .posted op => op.origin.bookend?
      | .copyRead x => x.origin.bookend?
      | .copyData x => x.origin.bookend?
      | _ => none
    | none => none
  match a with
  | .event (.remoteRequest n) => of n
  | .event (.postedOp n) => of n
  | .event (.copyRead n) => of n
  | .event (.copyWrite n) => of n
  | _ => none

/-- The agents of the agenda that act in the present cycle. -/
def thisCycle : List (Nat × Agent) → List Agent
  | [] => []
  | (d, a) :: rest => if d = 0 then a :: thisCycle rest else []

/-- BK has served this Bookend last, and the other one's request stands in the same cycle: the two are taken alternately. -/
def State.otherFirst (s : State) (t : Nat) (a : Agent) : Bool :=
  match a.bookend? s with
  | some b => (s.tile t).pipe.bk == b && (thisCycle s.agenda).any (fun x =>
      (x.request s).map (·.1) == some t && (match x.bookend? s with
        | some b' => b' != b
        | none => false))
  | none => false

/-- Whether an agent's request finds a port in this cycle. -/
def State.portFree (s : State) (a : Agent) : Bool :=
  match a.request s with
  | some (t, r) => (s.tile t).pipe.takes s.time r && !s.otherFirst t a
  | none => true

/-- The port is taken. -/
def State.takePort (s : State) (a : Agent) : State :=
  match a.request s with
  | some (t, r) => s.mapTile t (fun tl => { tl with pipe := { tl.pipe.serve s.time r with bk := (a.bookend? s).getD tl.pipe.bk } })
  | none => s

/-- An agent is put off to the next cycle, after those of the present one. -/
def putOff (a : Agent) : List (Nat × Agent) → List (Nat × Agent)
  | [] => [(1, a)]
  | (d, x) :: rest => if d = 0 then (0, x) :: putOff a rest else (1, a) :: (d - 1, x) :: rest

/-! ## Semaphores (19 R401) -/

/-- A host's read of a semaphore by port A. -/
def Agent.readsA (a : Agent) (md n : Nat) : Bool :=
  match a with
  | .event (.mgSemRead md' p' n') => md' == md && p' == 0 && n' == n
  | _ => false

/-- The read of a semaphore by port A that the same cycle brings after one by port B, and the agenda with the two exchanged. -/
def portFirst (b : Agent) (md n : Nat) : List (Nat × Agent) → Option (Agent × List (Nat × Agent))
  | [] => none
  | (d, a) :: rest =>
    if d ≠ 0 then none
    else if a.readsA md n then some (a, (0, b) :: rest)
    else (portFirst b md n rest).map (fun r => (r.1, (0, a) :: r.2))

/-! ## Who goes first in a cycle -/

/-- What a thread meets from the next cycle on: a result that is written, a wait that ends, a request of the same cycle that the normaliser
serves (02 R66, R67, 04 R99, 15 R326). The turns of that cycle go before it. -/
def endsWait (i : Instr) : Bool :=
  match i with
  | .longResultReturn _ _ _ _ => true
  | .normaliserServiceEnd _ => true
  | .sleepDeadline _ _ _ => true
  | .remoteRequest _ => true
  | .remoteResponse _ => true
  | .postedOp _ => true
  | .postedAck _ => true
  | .feWithdrawAck _ => true
  | .feBudgetExpire _ _ _ => true
  | .barWaitTimeout _ _ _ => true
  | .hbarTimeout _ _ _ => true
  | .hbarTreeRelease _ => true
  | .sysBroadcastAck _ => true
  | .wakeMessage _ => true
  | .trestleCommandStart _ => true
  | .trestleCommandComplete _ => true
  | .leaseExpireTime _ => true
  | .vaultFillReturn _ _ _ => true
  | .storeBufferDrain _ _ _ => true
  | .queueRecordAppend _ => true
  | .dresserRecordApply _ => true
  | .dresserNote _ => true
  | .bandPass _ _ => true
  | .arrivalCount _ => true
  | .resendRetry _ => true
  | .waiterRetry _ _ _ => true
  | .pageWalkComplete _ _ => true
  | .contextLoadDone _ _ _ => true
  | .vectorBind _ => true
  | .classSwitchTake _ => true
  | _ => false

/-- An agent goes before another of its cycle that stands before it on the agenda: a turn before what ends a wait, the commit of a departure
before its conversion (06 R137). -/
def Agent.precedes (a b : Agent) : Bool :=
  match a, b with
  | .turn _ _ _, .event i => endsWait i
  | .event (.migrationCommit t c k), .event (.departureConvert t' c' k') => t == t' && c == c' && k == k'
  | _, _ => false

/-- The first agent of the same cycle that goes before this one, and the agenda without it. -/
def firstBefore (b : Agent) : List (Nat × Agent) → Option (Agent × List (Nat × Agent))
  | [] => none
  | (d, a) :: rest =>
    if d ≠ 0 then none
    else if a.precedes b then some (a, (0, b) :: rest)
    else (firstBefore b rest).map (fun r => (r.1, (0, a) :: r.2))

/-- The agenda after its first agent, and who moves: that agent, or one of the same cycle that goes before it. -/
def firstOf (a : Agent) (rest : List (Nat × Agent)) : Agent × List (Nat × Agent) :=
  match a with
  | .event (.mgSemRead md 1 n) => (portFirst a md n rest).getD (a, rest)
  | .event _ => (firstBefore a rest).getD (a, rest)
  | _ => (a, rest)

end Sys2Proof.Machine
end

