-- ==== Sys2Proof/Machine/Policy.lean ====
section
/-! DEFINITION. The machine's own order of agents, used when the agenda is empty (log 1): of all that could happen, beginning at a place
that moves on with the timebase, the first thing that changes the state. -/
namespace Sys2Proof.Machine

/-- A move, and the tile and requester whose place at the pipeline it takes (14 R296). -/
abbrev Asking := Move × Option (Nat × Nat)

/-- Moves that ask the pipeline for nothing. -/
def quiet (ms : List Move) : List Asking := ms.map (fun f => (f, none))
/-- Moves of a requester of a tile. -/
def asking (t r : Nat) (ms : List Move) : List Asking := ms.map (fun f => (f, some (t, r)))

/-- What the Bureau and the routers of a module may do. -/
def moduleMoves (s : State) (md : Nat) : List Move :=
  let m := s.module md
  (if m.booted || m.recovery || m.frozen || m.poweredOff then [] else [execPowerOnReset md]) ++
  [execRecoveryInstall md, execRecoveryLogReset md, execLaunchValidate md, execBackfillFence md, execNameTableSwitch md, execAgeTick md,
   execPeriodicDrain md, execDebugHaltTake md, execDebugResumeTake md, execStepEnd md] ++
  m.launches.flatMap (fun l => [execLaunchPlace md l.lid, execLaunchComplete md l.lid, execGangResume l.asid])

/-- What may happen to the thread in a slot, or in place k of the parked area for c = 4. -/
def threadMoves (t c k : Nat) (th : Thread) : List Asking :=
  quiet ([execSleepDeadline t c k, execMigrationCommit t c k, execDepartureConvert t c k, execFeBudgetExpire t c k,
    execBarWaitTimeout t c k, execHbarTimeout t c k] ++
    (List.range (th.pending.length + th.silent.length)).map (fun n => execLongResultReturn t c k n)) ++
  asking t 7 [execParkMove t c k] ++ (if c < 4 then asking t c [execWaiterRetry t c k] else quiet [execWaiterRetry t c k])

/-- The turn of the slot whose turn it is on a core. -/
def turnMove (s : State) (t c : Nat) : List Asking :=
  match s.chosen t c with
  | some k => [(turn t c k, if s.turnAsks t c k then some (t, c) else none)]
  | none => []

def coreMoves (s : State) (t c : Nat) (co : Core) : List Asking :=
  turnMove s t c ++ asking t (c % 4) [execStoreBufferDrain t c false] ++
  (match co.loading with
    | some (k, _) => asking t 7 [execContextLoadDone t c k]
    | none => []) ++
  co.slots.flatMap (fun e => threadMoves t c e.1 e.2)

def tileMoves (s : State) (t : Nat) (tl : Tile) : List Asking :=
  quiet ((if tl.cores.all (fun e => e.2.vq.isEmpty) then [] else [execVectorBind t]) ++
    [execNormaliserServiceEnd t, execIdleDonationRequest t, execResendRetry t, execTrestleCommandStart t, execTrestleStep t,
     execTrestleCommandComplete t, execLeaseExpireTime t, execCopyPieceIssue t, execClassSwitchTake t, execGangStop t, execGangSave t] ++
    (tl.bookends.filter (fun e => State.bookendRuns { s with curBk := (t, e.1) })).map (fun e => bookendTurn t e.1) ++
    (List.range tl.vc.writeback.length).map (fun n => execWritebackEntryFree t n) ++
    (List.range tl.vc.streams.length).map (fun n => execPrefetchIssue t n)) ++
  asking t 7 ([execHutchDispatch t, execFaultRecordWrite t, execScrubRead t tl.scrubPos []] ++
    tl.dqueues.map (fun e => execBandPass t e.1) ++
    (List.range tl.walks.length).map (fun n => execPageWalkComplete t n) ++
    (List.range tl.vc.misses.length).map (fun n => execVaultFillReturn t n 0)) ++
  asking t 4 ((List.range tl.windows.length).map (fun n => execMcastWindowExpire t n)) ++
  tl.cores.flatMap (fun e => coreMoves s t e.1 e.2) ++
  tl.parkedArea.flatMap (fun e => threadMoves t 4 e.1 e.2)

/-- What may happen to a packet, or to an operation that waits for the host. -/
def packetMoves (s : State) (n : Nat) : List Asking :=
  let at_ := s.netRequest n
  let hut := at_.map (fun e => (e.1, 7))
  [execRemoteRequest n, execPostedOp n, execQuotaIncrement n, execQuotaDecrement n, execQueueRecordAppend n, execOperandLineRequest n,
   execCopyRead n, execCopyWrite n, execArrivalCount n].map (fun f => (f, at_)) ++
  [execHutchAdmit n, execDresserRecordApply n, execDresserNote n].map (fun f => (f, hut)) ++
  quiet [execDonationShip n, execWakeMessage n, execRetireNote n, execRemoteResponse n, execPostedAck n, execFeWithdrawAck n,
    execHbarTreeArrive n, execHbarTreeRelease n, execOperandLineArrive n, execInvalCommand n, execSysBroadcastAck n, execSegldTable n,
    execRtClassUpdate n, execRouterHop n, execNonresidentSpill n]

/-- All that could happen. -/
def moves (s : State) : List Asking :=
  quiet ((List.range s.podSize).flatMap (fun md => moduleMoves s md)) ++
  s.tiles.flatMap (fun e => tileMoves s e.1 e.2) ++
  (List.range (s.net.length + s.hostWait.length)).flatMap (packetMoves s)

/-- The outcome of a move that does something, its place at the pipeline taken. -/
def Asking.effect (x : Asking) (s : State) : Option Out :=
  (Move.effect x.1 s).map (fun _ => x.1 (match x.2 with
    | some (t, r) => s.mapTile t (fun tl => { tl with pipe := tl.pipe.serve s.time r })
    | none => s))

/-- What happens next when nothing on the agenda says so; nothing, when nothing can. -/
def ownStep (s : State) : Out :=
  let ms := moves s
  let at_ := s.time % (ms.length + 1)
  ((ms.drop at_ ++ ms.take at_).findSome? (fun x => x.effect s)).getD (.next s)

end Sys2Proof.Machine
end

