-- ==== Sys2Proof/Machine/Step.lean ====
section
/-! DEFINITION. One step of the machine: who moves, and what it does. -/
namespace Sys2Proof.Machine

/-- The agenda's first agent moves: at its time, when nothing is owed before it and a port of the pipeline takes its request, and else in a later
step. -/
def agendaStep (s : State) (n : Nat) (a : Agent) (rest : List (Nat × Agent)) : Out :=
  match s.owed (s.time + n) with
  | some t => .next (({ s with time := t, agenda := (s.time + n - t, a) :: rest } : State).tick)
  | none =>
    let s := { s with time := s.time + n, agenda := rest }
    if s.portFree a then act a (s.takePort a) else .next { s with agenda := putOff a rest }

/-- One step: the agenda's first agent moves, or, when it is empty, the agent of the machine's own order (log 1). -/
def step (s : State) : Host.Outcome State Fault Refusal :=
  match s.agenda with
  | (n, a) :: rest => agendaStep s n (firstOf a rest).1 (firstOf a rest).2
  | [] =>
    match s.owed (s.time + 1) with
    | some t => .next (({ s with time := t } : State).tick)
    | none => ownStep { s with time := s.time + 1 }

/-- The state with an instruction placed where the next step fetches it: of a thread, or, for the six words of the Bookend's own, of a
Bookend (log 11). -/
def State.withFetchWord (s : State) (nbits w : Nat) : State :=
  match decodeBookend (w % 2 ^ nbits) with
  | .ok _ => s.withBookendWord (w % 2 ^ nbits)
  | .error _ => s.withThreadWord (w % 2 ^ nbits)

end Sys2Proof.Machine
end

