-- ==== Sys2Proof/Safety.lean ====
section
/-! DEFINITION. What a safe run is, and the terms the statements use: when a form passes the checks before its own part (02 R63),
what an instruction that only writes registers leaves, and which parts of the machine two states agree on. -/
namespace Sys2Proof

open Machine

/-- Memory keeps its canonical form. -/
def Machine.State.memorySafe (s : State) : Prop := Memory.wf s.mem = true

/-- A step neither faults nor is refused. -/
def Proceeds (s : State) : Prop := ∃ t, step s = .next t

namespace Machine

/-- The executing thread passes steps 4 to 6 of 02 R63 for an instruction with marker `m` that writes `dst` and reads `src`: it is
READY with no access in progress; marked, or one that waits as if marked, it has no result pending (R66); a `long` form finds room among
16 pending results (R65); a form that touches memory waits for no acquire (07 R151); with HZ set no register it names is pending (R68);
no register it reads has bad parity (16 R332); and a form under the dynamic rounding mode finds a legal one (01 R18). -/
structure State.Clear (s : State) (m : Bool) (dst src : List Dest) (long mem waits dyn : Bool := false) : Prop where
  ready : s.me.st = .ready
  notWalking : s.me.walking = false
  noWait : s.me.wait = none
  marked : m = true ∨ waits = true → s.me.pending = []
  room : long = true → (Sys2Proof.Machine.live dst).length = 0 ∨ s.me.awaited + (Sys2Proof.Machine.live dst).length ≤ 16
  acquired : mem = true → (∀ p ∈ s.me.pending ++ s.me.silent, p.acq = false) ∧ ∀ p ∈ s.me.posted, p.acq = false
  noHazard : s.me.hz = true → m = false → waits = false → ∀ d ∈ dst ++ src, d.void = false → ∀ p ∈ s.me.pending, d ∉ p.dests
  noParity : ∀ d ∈ src, d.void = false → d ∉ s.me.parity
  rounding : dyn = true → s.me.frm.toNat < 5

/-- The executing thread is left as given with its PC past n bytes, and its instruction counts as issued (02 R63, 15 R330). -/
def State.retire (s : State) (n : Nat) (th : Thread) : State := s.issued { th with pc := s.me.pc + BitVec.ofNat 48 n }

/-- A result pends: the registers of `ds` that hold something will take `ws`, and the flags are ORed in as it returns (02 R64). -/
def Thread.pends (th : Thread) (ready : Bool) (ds : List Dest) (ws : List RegWrite) (flags : BitVec 5 := 0) : Thread :=
  th.await { tag := 0, dests := Sys2Proof.Machine.live ds, ready := ready, writes := ws, flags := flags }

/-- A local access was taken and the PC is past its instruction: its result pends for the registers of `ds` that hold something, a passing
access has counted PINCNT down, and no store waits in the g0 slot (06 R130, R138, 01 R20). -/
def Thread.took (th : Thread) (size : Nat) (ds : List Dest) (ws : List RegWrite) (mem acq : Bool := false)
    (pin : Bool := true) : Thread :=
  { ({ th.unpin pin with tags := th.tags + 1, g0slot := 0 } : Thread).await
      { tag := 0, dests := Sys2Proof.Machine.live ds, ready := true, writes := ws, mem := mem, acq := acq, pc := th.pc } with
    pc := th.pc + BitVec.ofNat 48 size }

/-- With no wait of a release left to make: no result, posted operation or store of the thread is outstanding, and it has no denial to
take (07 R151). -/
structure State.Released (s : State) : Prop where
  results : s.me.pending = []
  silent : s.me.silent = []
  posted : s.me.posted = []
  drained : s.myCore.drained s.me.mark = true
  denial : s.me.denial = none

/-- Everything outside the tiles but memory and its tags is the same in both states: packets, timebase, modules, saved partitions, what
has gone to the host and waits for it, and the turn. -/
structure State.SameBeyond (s t : State) : Prop where
  net : t.net = s.net
  time : t.time = s.time
  mods : t.mods = s.mods
  podSize : t.podSize = s.podSize
  saved : t.saved = s.saved
  episodes : t.episodes = s.episodes
  hostOut : t.hostOut = s.hostOut
  hostWait : t.hostWait = s.hostWait
  cur : t.cur = s.cur
  curBk : t.curBk = s.curBk
  agenda : t.agenda = s.agenda
  fresh : t.fresh = s.fresh
  sent : t.sent = s.sent

/-- Every byte of memory and every tag is the same in both states. -/
structure State.SameMemory (s t : State) : Prop where
  mem : t.mem = s.mem
  empties : t.empties = s.empties
  poison : t.poison = s.poison

/-- Memory is as it was but for some words at a device address, whose poison is cleared; no full-empty tag changes. -/
structure State.Wrote (s t : State) (a : Nat) (ws : List Dword) : Prop where
  mem : t.mem = (s.putWords a ws).mem
  poison : t.poison = (s.putWords a ws).poison
  empties : t.empties = s.empties

/-- No line of any tile's memory has a soft error (14 R298). -/
def State.Sound (s : State) : Prop := ∀ n, (s.tile n).errs = []

/-- Every tile but one, and every thread but the executing one, is the same in both states, and the executing thread's tile differs at
most in that thread, in its counters and in the replacement bits of its TLB. -/
structure State.OnlyMe (s t : State) : Prop where
  tiles : ∀ n, n ≠ s.here → t.tile n = s.tile n
  threads : ∀ c k, (c, k) ≠ s.cur.2 → (t.tile s.here).thread c k = (s.tile s.here).thread c k
  rest : ∃ slots ct tree, t.tile s.here =
    { s.myTile.setCore s.cur.2.1 { s.myCore with slots := slots } with ct := ct, tlbTree := tree }

/-- Memory and its tags aside, the step leaves the executing thread as given and nothing else changed. -/
structure State.Leaves (s t : State) (th : Thread) : Prop where
  me : t.me = th
  beyond : s.SameBeyond t
  only : s.OnlyMe t

/-- An access of `size` bytes of the executing thread at `va` names memory of its own tile and can be taken at once, at device address
`a`: its segment allows it (01 R32), the tile owns the address (01 R33), the offset is a scratch offset or is in the TLB (16 R334), `a`
is in tile memory, no store of its core's buffer to these bytes is undrained (13 R282), no request of its core stalls (14 R303), and the tile's
memory has no soft error (14 R298). -/
structure State.Hits (s : State) (n : Need) (write : Bool) (size : Nat) (va : Dword) (a : Nat) : Prop where
  allowed : n.check (s.myTile.seg (vaSeg va)) s.me.scratch (vaOff va) = none
  mine : (s.myTile.seg (vaSeg va)).owner s.here (vaOff va) = some s.here
  found : ∃ u, s.translate s.here s.me.asid.toNat (vaSeg va) (s.myTile.seg (vaSeg va)).mapping.scratch write
    (s.myTile.seg (vaSeg va)).mapping.psize ((s.myTile.seg (vaSeg va)).localOffset s.me.scratch (vaOff va)) = .at_ a u
  tileMemory : devVault a = false
  drained : ∀ e ∈ s.myCore.sb, ∀ i < size, e.at_ (a + i) = none
  noStall : s.myCore.stalled = none
  sound : (s.tile (devTile a)).errs = []

/-- An access of the executing thread at `va` is allowed and another tile, which has a site, owns the address (01 R32, R33, 06 R142). -/
structure State.Away (s : State) (n : Need) (va : Dword) (own : Nat) : Prop where
  allowed : n.check (s.myTile.seg (vaSeg va)) s.me.scratch (vaOff va) = none
  theirs : (s.myTile.seg (vaSeg va)).owner s.here (vaOff va) = some own
  other : own ≠ s.here
  sited : s.reachable own = true

/-- The operation that the executing thread's access makes for an owner. -/
def State.asks (s : State) (kind : OpKind) (path : Path) (va : Dword) (own : Nat) : Op :=
  { kind := kind, path := path, origin := .thread s.here s.me.tid s.me.tags, asid := s.me.asid.toNat, seg := vaSeg va, va := va
    lo := (s.myTile.seg (vaSeg va)).localOffset s.me.scratch (vaOff va), owner := own, src := s.here
    map := (s.myTile.seg (vaSeg va)).mapping }

/-- One packet has been sent from the executing thread's tile, and nothing else outside the tiles has changed. -/
structure State.Sent (s t : State) (cls dst asid : Nat) (body : Payload) : Prop where
  packet : ∃ p, t.net = s.net ++ [p] ∧ p.cls = cls ∧ p.src = s.here ∧ p.dst = dst ∧ p.asid = asid ∧ p.body = body
  memory : s.SameMemory t
  only : s.OnlyMe t

/-- The executing thread's operation has left as a remote one: the thread waits for its response at its instruction, with no register
changed (06 R129). -/
def State.Requests (s t : State) (op : Op) (ds : List Dest) : Prop :=
  s.Sent t clsREQ op.owner op.asid (.request op) ∧
  ∃ w, w.op = op ∧ w.dests = ds ∧
    t.me = { s.me with st := op.kind.waitState, wait := some w, tags := s.me.tags + 1 }

/-- The executing thread's operation has left as a posted one: the thread is past its instruction and counts it as unacknowledged until
its acknowledgement (06 R129, 07 R146). -/
def State.Posts (s t : State) (op : Op) (size : Nat) (acq : Bool := false) : Prop :=
  s.Sent t clsPOST op.owner op.asid (.posted op) ∧
  t.me = { s.me.unpin true with
    pc := s.me.pc + BitVec.ofNat 48 size
    posted := s.me.posted ++ [{ tag := s.me.tags, owner := op.owner, acq := acq, undo := some (s.me.pc, s.me.pincnt, s.time) }]
    tags := s.me.tags + 1 }

/-- The executing thread departs to another tile with an access to complete there, as soon as nothing of it is outstanding; it keeps its
registers and memory is as it was (06 R135). -/
def State.Departs (s t : State) (kind : OpKind) (va : Dword) (dest : Nat) : Prop :=
  s.SameMemory t ∧ t.net = s.net ∧ t.cur = s.cur ∧
  t.me.depart = some dest ∧ (∃ w, t.me.wait = some w ∧ w.op.kind = kind ∧ w.op.va = va ∧ w.op.owner = dest) ∧
  (s.Released → t.me.st = .departing ∧ t.me.departAt = some s.time) ∧
  t.me.pc = s.me.pc ∧ t.me.g = s.me.g ∧ t.me.p = s.me.p ∧ t.me.v = s.me.v ∧ t.me.tid = s.me.tid

/-! ## Events -/

/-- What a packet is and carries. -/
def Packet.Is (q : Packet) (cls src dst : Nat) (body : Payload) : Prop :=
  q.cls = cls ∧ q.src = src ∧ q.dst = dst ∧ q.body = body

/-- The packet at place `n` stands at its destination, heads its channel there, comes after none of its stream (18 R380, 16 R340), and the
tile's partition is resident and runs. -/
structure State.Delivers (s : State) (n : Nat) (p : Packet) : Prop where
  takes : s.takes n = some p
  first : s.comesAfter p = false
  held : (s.tile p.dst).streamHeld p = false
  walks : (s.tile p.dst).streamWalks p = false

/-- A local offset of a segment at a tile is found, under a mapping, at device address `a` without a walk, in tile memory without a soft error,
and no packet's request stalls there (16 R334, 14 R298, R303). -/
structure State.Finds (s : State) (t asid seg : Nat) (m : Mapping) (lo : Nat) (write : Bool) (a : Nat) : Prop where
  found : ∃ u, s.translate t asid seg m.scratch write m.psize lo = .at_ a u
  tileMemory : devVault a = false
  sound : (s.tile (devTile a)).errs = []
  noStall : (s.tile t).stalls = []

/-- The step ends with one packet put at the net's end, which is otherwise as given. -/
def State.Ends (u : State) (net : List Packet) (cls src dst : Nat) (body : Payload) : Prop :=
  ∃ q, u.net = net ++ [q] ∧ q.Is cls src dst body

/-- A thread has entered a trap: what 12 R273 saves and sets, for one below machine privilege. -/
structure State.Trapped (s u : State) (t c k : Nat) (cause : BitVec 8) (value : Dword) : Prop where
  st : (u.thread t c k).st = .ready
  cause : (u.thread t c k).cause = cause
  value : (u.thread t c k).ava = value
  epc : (u.thread t c k).epc = (s.thread t c k).pc
  pc : (u.thread t c k).pc = (s.tile t).vector
  priv : (u.thread t c k).priv = 1
  wait : (u.thread t c k).wait = none
  g : (u.thread t c k).g = (s.thread t c k).g

end Machine

end Sys2Proof
end

