-- ==== Sys2Proof/Certificates/Slice0/Obligations.lean ====
section
/-! DEFINITION. The statements, from the numbered rules of the spec. In a statement about an instruction `State.Clear` says that the
executing thread passes the checks before the instruction's own part, and the conclusion is the next state itself, so that it says what the
instruction does and that all else is left. -/
section

open Sys2Proof Sys2Proof.Machine

/-! ## Integer instructions -/

/-- 05 R107, and the short forms of R108: the register-register forms with a short result. -/
def Obligations.IntegerRegisterForms : Prop :=
  ∀ (s : State) (m : Bool) (d a b : BitVec 5), s.Clear m [gd d] [gd a, gd b] →
    let x := s.me.rg a
    let y := s.me.rg b
    let n := y.toNat % 64
    let n5 := y.toNat % 32
    let low := fun (z : Dword) => z.truncate 32
    let put := fun (v : Dword) => (.next (s.retire 4 (s.me.setG d.toNat v)) : Out)
    exec (.add m d a b) s = put (x + y) ∧
    exec (.sub m d a b) s = put (x - y) ∧
    exec (.and m d a b) s = put (x &&& y) ∧
    exec (.or m d a b) s = put (x ||| y) ∧
    exec (.xor m d a b) s = put (x ^^^ y) ∧
    exec (.andn m d a b) s = put (x &&& ~~~ y) ∧
    exec (.orn m d a b) s = put (x ||| ~~~ y) ∧
    exec (.xnor m d a b) s = put (~~~ (x ^^^ y)) ∧
    exec (.shl m d a b) s = put (x <<< n) ∧
    exec (.shr m d a b) s = put (x >>> n) ∧
    exec (.sra m d a b) s = put (x.sshiftRight n) ∧
    exec (.rol m d a b) s = put (x.rotateLeft n) ∧
    exec (.ror m d a b) s = put (x.rotateRight n) ∧
    exec (.minS m d a b) s = put (if y.slt x then y else x) ∧
    exec (.minZ m d a b) s = put (if y.ult x then y else x) ∧
    exec (.maxS m d a b) s = put (if x.slt y then y else x) ∧
    exec (.maxZ m d a b) s = put (if x.ult y then y else x) ∧
    exec (.addW m d a b) s = put ((low x + low y).signExtend 64) ∧
    exec (.subW m d a b) s = put ((low x - low y).signExtend 64) ∧
    exec (.shlW m d a b) s = put ((low x <<< n5).signExtend 64) ∧
    exec (.shrW m d a b) s = put ((low x >>> n5).signExtend 64) ∧
    exec (.sraW m d a b) s = put (((low x).sshiftRight n5).signExtend 64) ∧
    exec (.mul m d a b) s = put (x * y) ∧
    exec (.mulW m d a b) s = put ((low x * low y).signExtend 64)

/-- 05 R110, and of R114 the values: counts, reversals and extensions, and the field forms. A count is said by what its value means: the leading zeros are n
when bit 63 - n is the first that is set. A field of `l + 1` bits at `p` is taken with zeros or with its sign, or replaced. -/
def Obligations.BitForms : Prop :=
  (∀ (s : State) (m : Bool) (d a : BitVec 5), s.Clear m [gd d] [gd a] →
     let x := s.me.rg a
     let put := fun (v : Dword) => (.next (s.retire 4 (s.me.setG d.toNat v)) : Out)
     (∃ n ≤ 64, exec (.clz m d a) s = put (BitVec.ofNat 64 n) ∧ (n < 64 → x.getLsbD (63 - n) = true) ∧
       ∀ i < n, x.getLsbD (63 - i) = false) ∧
     (∃ n ≤ 64, exec (.ctz m d a) s = put (BitVec.ofNat 64 n) ∧ (n < 64 → x.getLsbD n = true) ∧ ∀ i < n, x.getLsbD i = false) ∧
     exec (.popc m d a) s = put (BitVec.ofNat 64 ((List.range 64).filter (fun i => x.getLsbD i)).length) ∧
     (∃ v : Dword, exec (.bswap m d a) s = put v ∧ ∀ i < 8, ∀ j < 8, v.getLsbD (8 * i + j) = x.getLsbD (8 * (7 - i) + j)) ∧
     (∃ v : Dword, exec (.brev m d a) s = put v ∧ ∀ i < 64, v.getLsbD i = x.getLsbD (63 - i)) ∧
     exec (.sextB m d a) s = put ((x.truncate 8).signExtend 64) ∧
     exec (.sextH m d a) s = put ((x.truncate 16).signExtend 64) ∧
     exec (.sextW m d a) s = put ((x.truncate 32).signExtend 64) ∧
     exec (.zextB m d a) s = put ((x.truncate 8).zeroExtend 64) ∧
     exec (.zextH m d a) s = put ((x.truncate 16).zeroExtend 64) ∧
     exec (.zextW m d a) s = put ((x.truncate 32).zeroExtend 64)) ∧
  (∀ (s : State) (m : Bool) (d a : BitVec 5) (p l : BitVec 6), p.toNat + l.toNat + 1 ≤ 64 →
     let x := s.me.rg a
     let r := s.me.rg d
     let n := l.toNat + 1
     let put := fun (v : Dword) => (.next (s.retire 4 (s.me.setG d.toNat v)) : Out)
     (s.Clear m [gd d] [gd a] →
       (∃ v : Dword, exec (.bfxZ m d a p l) s = put v ∧ ∀ i < 64, v.getLsbD i = (decide (i < n) && x.getLsbD (p.toNat + i))) ∧
       (∃ v : Dword, exec (.bfxS m d a p l) s = put v ∧ ∀ i < 64, v.getLsbD i = x.getLsbD (p.toNat + min i l.toNat))) ∧
     (s.Clear m [gd d] [gd d, gd a] →
       ∃ v : Dword, exec (.bfi m d a p l) s = put v ∧ ∀ i < 64, v.getLsbD i =
         if p.toNat ≤ i ∧ i < p.toNat + n then x.getLsbD (i - p.toNat) else r.getLsbD i))

/-- 05 R111 and R113, and of R112 the values: immediates, shifts by an immediate, LUI, AUIPC and LIH. -/
def Obligations.IntegerImmediateForms : Prop :=
  ∀ (s : State) (m : Bool) (d a : BitVec 5) (i : BitVec 14) (n : BitVec 6) (u : BitVec 19),
    let x := s.me.rg a
    let low := x.truncate 32
    let put := fun (v : Dword) => (.next (s.retire 4 (s.me.setG d.toNat v)) : Out)
    (s.Clear m [gd d] [gd a] →
      exec (.addi m d a i) s = put (x + i.signExtend 64) ∧
      exec (.andi m d a i) s = put (x &&& i.signExtend 64) ∧
      exec (.ori m d a i) s = put (x ||| i.signExtend 64) ∧
      exec (.xori m d a i) s = put (x ^^^ i.signExtend 64) ∧
      exec (.shli m d a n) s = put (x <<< n.toNat) ∧
      exec (.shri m d a n) s = put (x >>> n.toNat) ∧
      exec (.srai m d a n) s = put (x.sshiftRight n.toNat) ∧
      exec (.roli m d a n) s = put (x.rotateLeft n.toNat) ∧
      exec (.shliW m d a n) s = put ((low <<< n.toNat).signExtend 64) ∧
      exec (.shriW m d a n) s = put ((low >>> n.toNat).signExtend 64) ∧
      exec (.sraiW m d a n) s = put ((low.sshiftRight n.toNat).signExtend 64)) ∧
    (s.Clear m [gd d] [] →
      exec (.lui m d u) s = put ((u ++ (0 : BitVec 13)).signExtend 64) ∧
      ∀ target : CodeAddr, target = s.me.pc + (u ++ (0 : BitVec 13)).signExtend 48 →
        exec (.auipc m d u) s = put ((target.extractLsb' 45 3 ++ (0 : BitVec 16) ++ target.extractLsb' 0 45).setWidth 64)) ∧
    (s.Clear m [gd d] [gd d] →
      exec (.lih m d u) s = put (u.signExtend 32 ++ (s.me.rg d).truncate 32))

/-- 05 R116, and of R115 the conditions 0 to 10 of CMP and CMPI by code: comparisons, predicate logic, PRD, PWR and SEL, where p0 names the whole set in PRD
and PWR. -/
def Obligations.CompareAndPredicateForms : Prop :=
  (∀ (s : State) (m : Bool) (q : BitVec 4) (a b : BitVec 5) (i : BitVec 10),
     let holds := fun (x y : Dword) =>
       [x == y, x != y, x.slt y, x.ult y, x.sle y, x.ule y, y.slt x, y.ult x, y.sle x, y.ule x, x &&& y != 0]
     let put := fun (v : Bool) => (.next (s.retire 4 (s.me.setP q.toNat v)) : Out)
     ∀ c, c ≤ 10 →
       (s.Clear m [pd q] [gd a, gd b] →
         exec (.cmp m q a b (BitVec.ofNat 9 c)) s = put ((holds (s.me.rg a) (s.me.rg b)).getD c false)) ∧
       (s.Clear m [pd q] [gd a] →
         exec (.cmpi m q a (BitVec.ofNat 4 c) i) s = put ((holds (s.me.rg a) (i.signExtend 64)).getD c false))) ∧
  (∀ (s : State) (m : Bool) (d a b q : BitVec 4) (g h k : BitVec 5),
     let put := fun (v : Bool) => (.next (s.retire 4 (s.me.setP d.toNat v)) : Out)
     let putG := fun (v : Dword) => (.next (s.retire 4 (s.me.setG g.toNat v)) : Out)
     (s.Clear m [pd d] [pd a, pd b] →
       exec (.pand m d a b) s = put (s.me.rp a && s.me.rp b) ∧
       exec (.por m d a b) s = put (s.me.rp a || s.me.rp b) ∧
       exec (.pxor m d a b) s = put (s.me.rp a != s.me.rp b) ∧
       exec (.pandn m d a b) s = put (s.me.rp a && !s.me.rp b)) ∧
     (s.Clear m [pd d] [pd a] → exec (.pnot m d a) s = put (!s.me.rp a)) ∧
     (q ≠ 0 → s.Clear m [gd g] [pd q] → exec (.prd m g q) s = putG (if s.me.rp q then 1 else 0)) ∧
     (s.Clear m [gd g] allPreds → exec (.prd m g 0) s = putG (s.me.p.zeroExtend 64)) ∧
     (q ≠ 0 → s.Clear m [pd q] [gd g] →
       exec (.pwr m g q) s = .next (s.retire 4 (s.me.setP q.toNat ((s.me.rg g).getLsbD 0)))) ∧
     (s.Clear m allPreds [gd g] → ∃ th : Thread,
       exec (.pwr m g 0) s = .next (s.retire 4 th) ∧
       (∀ i < 16, th.p.getLsbD i = if i = 0 then s.me.p.getLsbD 0 else (s.me.rg g).getLsbD i) ∧
       th = { s.me with p := th.p, parity := th.parity }) ∧
     (s.Clear m [gd g] [gd h, gd k, pd q] → exec (.sel m g h k q) s = putG (if s.me.rp q then s.me.rg h else s.me.rg k)))

/-- 02 R47: each compact form does what its full form does, and moves the PC past 2 bytes. -/
def Obligations.CompactForms : Prop :=
  ∀ (s : State) (m : Bool) (a b : BitVec 5) (o : BitVec 10),
    let x := s.me.rg a
    let y := s.me.rg b
    let put := fun (v : Dword) => (.next (s.retire 2 (s.me.setG a.toNat v)) : Out)
    let putP := fun (v : Bool) => (.next (s.retire 2 (s.me.setP 1 v)) : Out)
    (s.Clear m [gd a] [gd b] → exec (.cMv m a b) s = put y) ∧
    (s.Clear m [gd a] [gd a, gd b] →
      exec (.cAdd m a b) s = put (x + y) ∧
      exec (.cSub m a b) s = put (x - y) ∧
      exec (.cAnd m a b) s = put (x &&& y) ∧
      exec (.cOr m a b) s = put (x ||| y) ∧
      exec (.cXor m a b) s = put (x ^^^ y)) ∧
    (s.Clear m [gd a] [gd a] →
      exec (.cShli m a b) s = put (x <<< b.toNat) ∧
      exec (.cShri m a b) s = put (x >>> b.toNat) ∧
      exec (.cSrai m a b) s = put (x.sshiftRight b.toNat) ∧
      exec (.cAddi m a b) s = put (x + b.signExtend 64)) ∧
    (s.Clear m [gd a] [] → exec (.cLi m a b) s = put (b.signExtend 64)) ∧
    (s.Clear m [pd 1] [gd a, gd b] → exec (.cCmpeq m a b) s = putP (x == y) ∧ exec (.cCmplt m a b) s = putP (x.slt y)) ∧
    (s.Clear m [] [pd 1] → exec (.cBp1 m o) s =
      .next (if s.me.rp 1 then s.issued { s.me with pc := s.me.pc + (o ++ (0 : BitVec 1)).signExtend 48 } else s.retire 2 s.me))

/-- 05 R109, and the long forms of R108: the result pends with its value fixed at issue. Division by
zero and the overflow of a signed division have the results the rule gives. -/
def Obligations.MultiplyDivideForms : Prop :=
  ∀ (s : State) (m : Bool) (d a b : BitVec 5), s.Clear m [gd d] [gd a, gd b] (long := true) →
    let x := s.me.rg a
    let y := s.me.rg b
    let put := fun (v : Dword) => (.next (s.retire 4 (s.me.pends true [gd d] [toG d v])) : Out)
    exec (.mulhS m d a b) s = put (BitVec.ofInt 64 (x.toInt * y.toInt / 2 ^ 64)) ∧
    exec (.mulhZ m d a b) s = put (BitVec.ofNat 64 (x.toNat * y.toNat / 2 ^ 64)) ∧
    exec (.mulhSz m d a b) s = put (BitVec.ofInt 64 (x.toInt * y.toNat / 2 ^ 64)) ∧
    (y = 0 → exec (.divS m d a b) s = put (BitVec.allOnes 64) ∧ exec (.divZ m d a b) s = put (BitVec.allOnes 64) ∧
      exec (.remS m d a b) s = put x ∧ exec (.remZ m d a b) s = put x) ∧
    (y ≠ 0 →
      exec (.divZ m d a b) s = put (x.udiv y) ∧ exec (.remZ m d a b) s = put (x.umod y) ∧
      exec (.divS m d a b) s = put (x.sdiv y) ∧ exec (.remS m d a b) s = put (x.srem y))

/-- The events of a core. 02 R64: LONG_RESULT_RETURN writes a result that has come, takes it from those that pend, ORs in its flags and looks
at the core's waits again. 05 R126, 07 R168: a sleeping thread is READY once the timebase has reached its deadline; a SLEEP whose deadline
is all ones waits for a WAKE, and before its deadline nothing happens. 04 R99: the normaliser serves its requests in order: the first one's
thread is READY, where its core has not stopped, and its result pends. 13 R282: the oldest entry of a core's store buffer drains from the
cycle after its entry on: memory takes its bytes, no other byte changes, and the younger entries stay in order. 15 R329, 09 R183: the arbiter
of a tile with one vector instruction waiting at the head of a core's queue, issued in an earlier cycle, and a lane group free and credit for
it: it is bound, its result is on its way, the group is busy for its cost, and P has moved by one for each cycle since it last did. -/
def Obligations.CoreEvents : Prop :=
  (∀ (s : State) (t c k n : Nat) (p : Pending), (s.thread t c k).pending[n]? = some p → p.ready = true → p.gates = [] →
     let th := s.thread t c k
     exec (.longResultReturn t c k n) s = .next ((s.setThread t c k { th.writes p.writes with
       pending := th.pending.eraseIdx n, flags := th.flags ||| p.flags }).refreshCore t c)) ∧
  (∀ (s : State) (t c k : Nat), (s.thread t c k).st = .sleeping →
     let th := s.thread t c k
     (th.ava.toNat ≤ s.time → (th.waitt = true ∨ th.ava ≠ BitVec.allOnes 64) →
       exec (.sleepDeadline t c k) s = .next (s.setThread t c k { th with st := .ready })) ∧
     (s.time < th.ava.toNat ∨ (th.waitt = false ∧ th.ava = BitVec.allOnes 64) → exec (.sleepDeadline t c k) s = .next s)) ∧
  (∀ (s : State) (t : Nat) (q : NormReq) (rest : List NormReq), (s.tile t).norm = q :: rest →
     (s.thread t q.core q.slot).st = .normalise → s.coreHalted t q.core (s.thread t q.core q.slot) = false →
     ∃ u, exec (.normaliserServiceEnd t) s = .next u ∧ (u.tile t).norm = rest ∧ (u.thread t q.core q.slot).st = .ready ∧
       u.thread t q.core q.slot = { (s.thread t q.core q.slot).await q.result with st := .ready } ∧ s.SameMemory u ∧
       ∀ i j l, (i, j, l) ≠ (t, q.core, q.slot) → u.thread i j l = s.thread i j l) ∧
  (∀ (s : State) (t c : Nat) (e : SbEntry) (rest : List SbEntry) (bs : List Byte),
     ((s.tile t).core c).sb = e :: rest → e.bytes = bs.map some → bs.length ≤ 8 → devVault e.addr = false →
     s.isPoisoned e.addr bs.length = false → e.entered < s.time → ((s.tile t).core c).stalled = none →
     (s.tile (devTile e.addr)).errs = [] →
     ∃ u, exec (.storeBufferDrain t c false) s = .next u ∧ ((u.tile t).core c).sb = rest ∧
       (∀ x, u.byte x = if e.addr ≤ x ∧ x < e.addr + bs.length then bs.getD (x - e.addr) 0 else s.byte x) ∧
       (∀ q, q ≠ t → u.tile q = s.tile q) ∧ u.empties = s.empties ∧ u.net = s.net) ∧
  (∀ (s : State) (t c g : Nat) (e : VqEntry) (rest : List VqEntry), c < 4 →
     ((s.tile t).core c).vq = e :: rest → e.at_ < s.time → e.cost ≤ ((s.tile t).core c).credit →
     (s.tile t).laneGroups = [g] → (s.tile t).groupBusy.get 0 g ≤ s.time →
     (∀ i < 4, i ≠ c → ((s.tile t).core i).vq = []) → 0 < e.cost → (s.tile t).arbAt ≤ s.time → (s.thread t c e.slot).wait = none →
     let comes := fun (p : Pending) => if p.tag == e.tag || p.bind == some e.tag then { p with ready := true, bind := none } else p
     ∃ u, exec (.vectorBind t) s = .next u ∧ ((u.tile t).core c).vq = rest ∧ (u.tile t).groupBusy.get 0 g = s.time + e.cost ∧
       (u.tile t).arbP = ((s.tile t).arbP + (s.time - (s.tile t).arbAt) + 1) % 4 ∧ (u.tile t).arbAt = s.time + 1 ∧
       u.thread t c e.slot = { s.thread t c e.slot with
         pending := (s.thread t c e.slot).pending.map comes, silent := (s.thread t c e.slot).silent.map comes } ∧
       s.SameMemory u ∧ u.net = s.net)
/-! ## Control transfer and waiting -/

/-- 05 R117 to R121: a transfer that is taken puts its target into the PC, one that is not moves it past the instruction; offsets count
halfwords from the instruction's own address. A call pushes the address after it on the return-address store, and RET goes to the entry it
pops and leaves that entry 0: calls where the store is not full, RET where it is not empty. A bad code address, a call on a full store, which loses
its oldest entry, and RET on an empty one trap (05 R118, R120 to R122). -/
def Obligations.TransferForms : Prop :=
  (∀ (s : State) (m : Bool) (a lo : BitVec 5) (q : BitVec 4) (i : BitVec 24) (o : BitVec 19) (hi : BitVec 14),
     let goTo := fun (c : CodeAddr) => (.next (s.issued { s.me with pc := c }) : Out)
     let past : Out := .next (s.retire 4 s.me)
     let near := s.me.pc + (o ++ (0 : BitVec 1)).signExtend 48
     let close := s.me.pc + (hi ++ lo ++ (0 : BitVec 1)).signExtend 48
     (s.Clear m [] [] → exec (.j m i) s = goTo (s.me.pc + (i ++ (0 : BitVec 1)).signExtend 48)) ∧
     (s.Clear m [] [pd q] →
       exec (.bp m q o) s = (if s.me.rp q then goTo near else past) ∧
       exec (.bnp m q o) s = (if s.me.rp q then past else goTo near)) ∧
     (s.Clear m [] [gd a] →
       exec (.bz m lo a hi) s = (if s.me.rg a = 0 then goTo close else past) ∧
       exec (.bnz m lo a hi) s = (if s.me.rg a = 0 then past else goTo close) ∧
       ((s.me.rg a).getLsbD 0 = false → (s.me.rg a).extractLsb' 45 16 = 0 →
         exec (.jr m a) s = goTo ((s.me.rg a).extractLsb' 61 3 ++ (s.me.rg a).extractLsb' 0 45)))) ∧
  (∀ (s : State) (m : Bool) (a : BitVec 5) (i : BitVec 24),
     let pushed := fun (c : CodeAddr) => (.next (s.issued { s.me with
       pc := c, links := s.me.links.set s.me.ldepth.toNat (s.me.pc + 4), ldepth := s.me.ldepth + 1 }) : Out)
     (s.Clear m [] [] → s.me.ldepth ≠ 3 → exec (.call m i) s = pushed (s.me.pc + (i ++ (0 : BitVec 1)).signExtend 48)) ∧
     (s.Clear m [] [gd a] → s.me.ldepth ≠ 3 → (s.me.rg a).getLsbD 0 = false → (s.me.rg a).extractLsb' 45 16 = 0 →
       exec (.callr m a) s = pushed ((s.me.rg a).extractLsb' 61 3 ++ (s.me.rg a).extractLsb' 0 45)) ∧
     (s.Clear m [] [] → s.me.ldepth ≠ 0 → exec (.ret m) s = .next (s.issued { s.me with
       pc := s.me.links.get 0 (s.me.ldepth.toNat - 1)
       links := s.me.links.set (s.me.ldepth.toNat - 1) 0
       ldepth := s.me.ldepth - 1 }))) ∧
  (∀ (s : State) (m : Bool) (a : BitVec 5) (i : BitVec 24),
       (s.Clear m [] [gd a] → (s.me.rg a).getLsbD 0 = true →
         exec (.jr m a) s = .next (s.trap Cause.misaligned (s.me.rg a)) ∧
         exec (.callr m a) s = .next (s.trap Cause.misaligned (s.me.rg a))) ∧
       (s.Clear m [] [gd a] → (s.me.rg a).getLsbD 0 = false → (s.me.rg a).extractLsb' 45 16 ≠ 0 →
         exec (.jr m a) s = .next (s.trap Cause.segBounds (s.me.rg a)) ∧
         exec (.callr m a) s = .next (s.trap Cause.segBounds (s.me.rg a))) ∧
       (s.me.ldepth = 3 →
         (s.Clear m [] [] → exec (.call m i) s = .next (s.trap Cause.linkOverflow 0)) ∧
         (s.Clear m [] [gd a] → (s.me.rg a).getLsbD 0 = false → (s.me.rg a).extractLsb' 45 16 = 0 →
           exec (.callr m a) s = .next (s.trap Cause.linkOverflow 0)) ∧
         (s.me.pending = [] → let u := (s.trap Cause.linkOverflow 0).me
           u.cause = 0x08 ∧ u.epc = s.me.pc ∧ u.ava = (s.me.links.get 0 0).zeroExtend 64 ∧ u.ldepth = 2 ∧
           u.links.get 0 0 = s.me.links.get 0 1 ∧ u.links.get 0 1 = s.me.links.get 0 2 ∧ u.links.get 0 2 = 0)) ∧
       (s.Clear m [] [] → s.me.ldepth = 0 →
         exec (.ret m) s = .next (s.trap (if s.me.linkcnt = 0 then Cause.returnEmpty else Cause.linkUnderflow) 0)))

/-- 05 R124, R126, 07 R168, 06 R138, R141, 11 R230: the forms that only move the PC, wait, or read a register of the machine. Each wait
of 0 or until a time already reached has no effect. -/
def Obligations.WaitAndReadForms : Prop :=
  ∀ (s : State) (m : Bool) (d a : BitVec 5),
    let put := fun (v : Dword) => (.next (s.retire 4 (s.me.setG d.toNat v)) : Out)
    let x := s.me.rg a
    (s.Clear m [] [] →
      exec (.nop m) s = .next (s.retire 4 s.me) ∧
      exec (.yield m) s = .next (s.retire 4 { s.me with yieldUntil := s.time + 16 }) ∧
      exec (.pin m) s = .next (s.retire 4 { s.me with pincnt := 63 }) ∧
      exec (.unpin m) s = .next (s.retire 4 { s.me with pincnt := 0, bounce := 0 })) ∧
    (s.Clear m [gd d] [] →
      exec (.time m d) s = put (BitVec.ofNat 64 s.time) ∧
      exec (.cycle m d) s = put (BitVec.ofNat 64 (s.residentCycles s.here)) ∧
      exec (.here m d) s = put (s.myTile.name.zeroExtend 64) ∧
      exec (.tid m d) s = put (s.me.tid.zeroExtend 64)) ∧
    (s.Clear m [] [gd a] →
      exec (.sleep m a) s = .next (s.retire 4 (if x = 0 then s.me else { s.me with
        st := .sleeping, waitt := false
        ava := if 2 ^ 64 ≤ s.time + x.toNat then BitVec.allOnes 64 else BitVec.ofNat 64 (s.time + x.toNat) })) ∧
      exec (.waitt m a) s = .next (s.retire 4 (if x.toNat ≤ s.time then s.me else
        { s.me with st := .sleeping, waitt := true, ava := x })) ∧
      ((s.me.priv = 0 → (x.truncate 2 : BitVec 2).toNat ≤ s.me.prio.toNat) →
        exec (.prio m a) s = .next (s.retire 4 { s.me with prio := x.truncate 2 })) ∧
      (s.me.priv = 0 → s.me.prio.toNat < (x.truncate 2 : BitVec 2).toNat →
        exec (.prio m a) s = .next (s.trap Cause.privilege x)))

/-! ## Traps, return and the system registers -/

/-- 12 R273, 02 R66: what taking a trap does. With no result pending the thread is READY at its tile's vector, a machine-privilege one at
the firmware's, with EPC, cause, previous privilege and value saved and supervisor privilege; no register it computes with changes.
With results pending it waits in MARKWAIT to enter the same trap; a thread that already waits for a trap's entry takes that one (log 69). -/
def Obligations.TrapEntry : Prop :=
  ∀ (s : State) (t c k : Nat) (cause : BitVec 8) (value : Dword) (epc : CodeAddr), cause ≠ Cause.linkOverflow →
    let th := s.thread t c k
    let u := (s.trapAt t c k cause value epc).thread t c k
    (th.pending = [] →
      u.st = .ready ∧ u.epc = epc ∧ u.cause = cause ∧ u.ppriv = th.priv ∧ u.ava = value ∧
      u.priv = (if th.priv = 3 then 3 else 1) ∧
      u.pc = (if th.priv = 3 then (s.module (Config.nameM t)).firmwareVector else (s.tile t).vector) ∧
      u.g = th.g ∧ u.p = th.p ∧ u.k1 = th.k1 ∧ u.k2 = th.k2 ∧ u.k3 = th.k3 ∧ u.v = th.v ∧ u.vlive = th.vlive ∧
      u.links = th.links ∧ u.ldepth = th.ldepth ∧ u.flags = th.flags ∧ u.frm = th.frm ∧ u.tid = th.tid ∧ u.asid = th.asid) ∧
    (th.pending ≠ [] → th.st = .markWait → th.hold.isTrap = true → s.trapAt t c k cause value epc = s) ∧
    (th.pending ≠ [] → (th.st = .markWait → th.hold.isTrap = false) → u.st = .markWait ∧ u.hold = .trap cause value epc ∧ u.pc = th.pc ∧ u.epc = th.epc ∧ u.cause = th.cause ∧
      u.priv = th.priv ∧ u.g = th.g ∧ u.pending = th.pending) ∧
    (∀ a, (s.trapAt t c k cause value epc).byte a = s.byte a) ∧
    (∀ i j l, (i, j, l) ≠ (t, c, k) → (s.trapAt t c k cause value epc).thread i j l = s.thread i j l)

/-- 12 R274: SYSCALL and TRAP trap with EPC at the next instruction, BRK with EPC at itself; where the host has set BRKHALT, BRK stops
its core instead (19 R410; that the PC too stays at the BRK, which R410 does not say, is the model's choice, log 55). 12 R275: ERET takes its privilege from PPRIV and its PC from EPC, with bit 0 of the PC clear; at user privilege,
with PPRIV 2, or with PPRIV 3 below machine privilege it traps PRIVILEGE with its bits. (Bit 0 of the PC: log 18; what counts as
issued: log 15.) -/
def Obligations.TrapForms : Prop :=
  (∀ (s : State) (m : Bool) (i : BitVec 11), s.Clear m [] [] →
     let (t, c, k) := s.cur
     let md := s.module (Config.nameM t)
     exec (.syscall m) s = .next ((s.trapAt t c k 0x15 0 (s.me.pc + 4)).count t 0x260) ∧
     exec (.trap m i) s = .next ((s.trapAt t c k 0x16 (i.zeroExtend 64) (s.me.pc + 4)).count t 0x260) ∧
     (md.brkhalt = false → exec (.brk m) s = .next ((s.trapAt t c k 0x14 0 s.me.pc).count t 0x260)) ∧
     (md.brkhalt = true → exec (.brk m) s = .next
       ((((s.issued { s.me with epc := s.me.pc }).haltCore t c).mapTile t (fun tl =>
         tl.setCore c { tl.core c with brkStopped := true })).signal (Config.nameM t) 3))) ∧
  (∀ (s : State) (m : Bool), s.Clear m [] [] →
     (s.me.priv ≠ 0 → s.me.ppriv ≠ 2 → (s.me.ppriv = 3 → s.me.priv = 3) →
       exec (.eret m) s = .next (s.issued { s.me with
         priv := s.me.ppriv, ppriv := 0, pc := s.me.epc &&& 0xFFFFFFFFFFFE })) ∧
     (s.me.priv = 0 ∨ s.me.ppriv = 2 ∨ (s.me.ppriv = 3 ∧ s.me.priv ≠ 3) →
       exec (.eret m) s = .next (s.trap Cause.privilege (if m then 0x002C00FB else 0x002C00F9))))

/-- 01 R36, R37, R17, R19: SYSR and SYSW of the thread's own registers. TH_IDW, TH_PINCNT and TH_LINKCNT may be read at any privilege, the
trap registers only above user privilege; the bits of TH_CAUSE that hold no field read zero. Of TH_IDW the fields HZ, FEW, FRM and the flags are
written, at any privilege; the others only above user privilege. An access at user privilege to one that it may not use traps PRIVILEGE, and so
does a write at any privilege to TH_PIN, which is read only. -/
def Obligations.ThreadRegisters : Prop :=
  (∀ (s : State) (m : Bool) (d : BitVec 5), s.Clear m [gd d] [] (waits := true) →
     let th := s.me
     let put := fun (v : Dword) => (.next (s.retire 4 (th.setG d.toNat v)) : Out)
     (∃ v : Dword, exec (.sysr m d 0x000) s = put v ∧ v.extractLsb' 0 32 = th.tid ∧ v.extractLsb' 32 8 = th.asid ∧
       v.extractLsb' 40 8 = th.vlive ∧ v.extractLsb' 48 5 = th.flags ∧ v.extractLsb' 53 3 = th.frm ∧ v.extractLsb' 56 4 = th.few ∧
       v.extractLsb' 60 2 = th.ldepth ∧ v.getLsbD 62 = th.hz ∧ v.getLsbD 63 = false) ∧
     exec (.sysr m d 0x004) s = put (th.pincnt.zeroExtend 64) ∧
     exec (.sysr m d 0x005) s = put (th.linkcnt.zeroExtend 64) ∧
     (th.priv ≠ 0 →
       exec (.sysr m d 0x001) s = put (th.epc.zeroExtend 64) ∧
       (∃ v : Dword, exec (.sysr m d 0x002) s = put v ∧ v.extractLsb' 0 8 = th.cause ∧ v.extractLsb' 8 2 = th.ppriv ∧
         v.extractLsb' 10 54 = 0) ∧
       exec (.sysr m d 0x003) s = put th.ava) ∧
     (th.priv = 0 → ∀ n : BitVec 11, n = 1 ∨ n = 2 ∨ n = 3 →
       exec (.sysr m d n) s = .next (s.trap Cause.privilege (Instr.word (.sysr m d n))))) ∧
  (∀ (s : State) (m : Bool) (a : BitVec 5), s.Clear m [] [gd a] (waits := true) →
     let th := s.me
     let x := th.rg a
     exec (.sysw m a 0x000) s = .next (s.retire 4 { th with
       hz := x.getLsbD 62, few := x.extractLsb' 56 4, frm := x.extractLsb' 53 3, flags := x.extractLsb' 48 5 }) ∧
     (th.priv ≠ 0 →
       exec (.sysw m a 0x001) s = .next (s.retire 4 { th with epc := x.truncate 48 }) ∧
       exec (.sysw m a 0x002) s = .next (s.retire 4 { th with ppriv := x.extractLsb' 8 2, cause := x.truncate 8 }) ∧
       exec (.sysw m a 0x003) s = .next (s.retire 4 { th with ava := x }) ∧
       exec (.sysw m a 0x005) s = .next (s.retire 4 { th with linkcnt := x.truncate 8 })) ∧
     exec (.sysw m a 0x004) s = .next (s.trap Cause.privilege (Instr.word (.sysw m a 0x004))) ∧
     (th.priv = 0 → ∀ n : BitVec 11, n = 1 ∨ n = 2 ∨ n = 3 ∨ n = 5 →
       exec (.sysw m a n) s = .next (s.trap Cause.privilege (Instr.word (.sysw m a n)))))

/-! ## Memory at the thread's own tile -/

/-- 06 R127, R130, R131: loads at the thread's own tile. The value pends for the destination, extended as the form says, and memory,
its tags and every other thread are as before. -/
def Obligations.LocalLoads : Prop :=
  ∀ (s : State) (m : Bool) (d a : BitVec 5) (f : BitVec 3) (i : BitVec 11) (n p : Nat) (sg : Bool) (va : Dword),
    let value := fun (x : Nat) => if sg then (BitVec.ofNat (8 * n) x).signExtend 64 else BitVec.ofNat 64 x
    let loads := fun (size : Nat) (out : Out) => ∃ t, out = .next t ∧ s.SameMemory t ∧
      s.Leaves t (s.me.took size [gd d] [toG d (value (s.num p n))] (mem := true))
    s.Clear m [gd d] [gd a] (long := true) (mem := true) → s.Hits { size := n, align := n, right := .rd } false n va p →
    s.isPoisoned p n = false →
    ((f.toNat, n, sg) ∈ [(0, 1, true), (1, 1, false), (2, 2, true), (3, 2, false), (4, 4, true), (5, 4, false), (6, 8, false)] →
      va = s.me.rg a + i.signExtend 64 * BitVec.ofNat 64 n →
      loads 4 (exec (.ld m d a f i) s) ∧ loads 4 (exec (.ldr m d a f i) s)) ∧
    (n = 8 → sg = false → va = s.me.rg a → loads 2 (exec (.cLd m d a) s))

/-- 06 R130, 13 R282: a local ST or C.ST enters its core's store buffer as the youngest entry and is not yet in memory; with 16
undrained entries the turn is forfeited and nothing else happens. 06 R131, 14 R299: STR at the thread's own tile writes memory itself: the
bytes it names and no other. -/
def Obligations.LocalStores : Prop :=
  (∀ (s : State) (m : Bool) (d a : BitVec 5) (f : BitVec 3) (i : BitVec 11) (n p : Nat) (va : Dword),
     let (_, c, k) := s.cur
     let entry : SbEntry :=
       { pos := s.myCore.sbNext, addr := p, bytes := (leBytes n (s.me.rg d).toNat).map some, asid := s.me.asid.toNat, seg := vaSeg va
         lo := (s.myTile.seg (vaSeg va)).localOffset s.me.scratch (vaOff va), va := va, tid := s.me.tid, entered := s.time }
     let after := fun (size : Nat) => { s.me.took size [] [] with mark := s.myCore.sbNext + 1 }
     let stores := fun (size : Nat) (out : Out) =>
       (s.myCore.sb.length < 16 → ∃ t, out = .next t ∧ s.SameMemory t ∧ s.SameBeyond t ∧ (∀ q, q ≠ s.here → t.tile q = s.tile q) ∧
         ∃ ct tree, t.tile s.here = { s.myTile.setCore c { s.myCore with
           slots := s.myCore.slots.set k (after size), sb := s.myCore.sb ++ [entry], sbNext := s.myCore.sbNext + 1 } with
             ct := ct, tlbTree := tree }) ∧
       (16 ≤ s.myCore.sb.length → out = .next s.forfeit)
     s.Clear m [] [gd d, gd a] (mem := true) → s.Hits { size := n, align := n, right := .w } true n va p →
     ((f.toNat, n) ∈ [(0, 1), (1, 2), (2, 4), (3, 8)] → va = s.me.rg a + i.signExtend 64 * BitVec.ofNat 64 n →
       stores 4 (exec (.st m d a f i) s)) ∧
     (n = 8 → va = s.me.rg a → stores 2 (exec (.cSt m d a) s))) ∧
  (∀ (s : State) (m : Bool) (d a : BitVec 5) (f : BitVec 3) (i : BitVec 11) (n p : Nat) (va : Dword),
     (f.toNat, n) ∈ [(0, 1), (1, 2), (2, 4), (3, 8)] → va = s.me.rg a + i.signExtend 64 * BitVec.ofNat 64 n →
     s.Clear m [] [gd d, gd a] (mem := true) → s.Hits { size := n, align := n, right := .w } true n va p →
     s.isPoisoned p n = false →
     ∃ t, exec (.str m d a f i) s = .next t ∧ s.Leaves t (s.me.took 4 [] []) ∧ t.empties = s.empties ∧
       t.poison = s.poison ∧ ∀ x, t.byte x = if p ≤ x ∧ x < p + n then (s.me.rg d).extractLsb' (8 * (x - p)) 8 else s.byte x)

/-- 06 R132, R133: the full-empty forms on a word of tile memory. A form whose word is in its state is performed in one step with the
word's tag; one whose word is not waits at the owner, its thread in FEWAIT, and nothing of the word changes. -/
def Obligations.FullEmptyForms : Prop :=
  ∀ (s : State) (m : Bool) (d a : BitVec 5) (i : BitVec 11) (p : Nat) (va : Dword),
    va = s.me.rg a + i.signExtend 64 * 8 → p % 8 = 0 → s.isPoisoned p 8 = false → (s.tile s.here).waitersAt p = [] →
    let empty := s.empties.contains p
    let loads := fun (v : Dword) (e : List Nat) (acq : Bool) (out : Out) => ∃ t, out = .next t ∧
      s.Leaves t (s.me.took 4 [gd d] [toG d v] (mem := true) (acq := acq)) ∧ t.mem = s.mem ∧ t.empties = e ∧ t.poison = s.poison
    let stores := fun (w : Bool) (e : List Nat) (out : Out) => ∃ t, out = .next t ∧ s.Leaves t (s.me.took 4 [] []) ∧
      t.empties = e ∧ t.poison = s.poison ∧ ∀ x, t.byte x = if w ∧ p ≤ x ∧ x < p + 8 then (s.me.rg d).extractLsb' (8 * (x - p)) 8 else s.byte x
    let waits := fun (out : Out) => (s.tile s.here).waiterCount < 4096 → ∃ t, out = .next t ∧ t.me.st = .feWait ∧
      t.me.pc = s.me.pc ∧ t.me.g = s.me.g ∧ s.SameMemory t ∧
      ∃ w, (t.tile s.here).waiters = (s.tile s.here).waiters ++ [w] ∧ w.addr = p ∧ w.op.origin = .thread s.here s.me.tid s.me.tags
    (s.Clear m [gd d] [gd a] (long := true) (mem := true) →
      (s.Hits { size := 8, align := 8, right := .fe, host := false } true 8 va p →
        (empty = false → loads (s.dword p) (addTo p s.empties) true (exec (.ldfe m d a i) s)) ∧
        (empty = true → waits (exec (.ldfe m d a i) s))) ∧
      (s.Hits { size := 8, align := 8, right := .fe, host := false } false 8 va p →
        (empty = false → loads (s.dword p) s.empties true (exec (.ldff m d a i) s)) ∧
        (empty = true → waits (exec (.ldff m d a i) s)) ∧
        loads (if empty then 0 else 1) s.empties false (exec (.feprobe m d a i) s))) ∧
    (s.Clear m [] [gd d, gd a] (mem := true) → s.Released →
      s.Hits { size := 8, align := 8, right := .feW, host := false } true 8 va p →
        (empty = true → stores true (dropFrom p s.empties) (exec (.stef m d a i) s)) ∧
        (empty = false → waits (exec (.stef m d a i) s)) ∧
        stores true (dropFrom p s.empties) (exec (.stff m d a i) s) ∧
        stores false (if (s.me.rg d).getLsbD 0 then dropFrom p s.empties else addTo p s.empties) (exec (.feset m d a i) s))

/-- 07 R149, R151, R155: the atomics at the thread's own tile: the word's new value by code, the old one sign-extended as result of AMO
and CAS, none for RAMO. The order field's release waits first, and its acquire makes later accesses wait. 07 R150: FADD and FMAX, the sum
rounded to nearest even and the maximum, with the old bits as result. -/
def Obligations.LocalAtomics : Prop :=
  (∀ (s : State) (m : Bool) (d a b c : BitVec 5) (code : BitVec 4) (z : BitVec 2) (zc : BitVec 1) (o : BitVec 3) (oc : BitVec 2)
     (n p : Nat), p % n = 0 →
     let va := s.me.rg a
     let x : BitVec (8 * n) := BitVec.ofNat _ (s.num p n)
     let v : BitVec (8 * n) := (s.me.rg b).setWidth _
     let new := [x + v, x &&& v, x ||| v, x ^^^ v, if v.slt x then v else x, if v.ult x then v else x, if x.slt v then v else x,
       if x.ult v then v else x, v].getD code.toNat 0
     let puts := fun (t : State) (y : BitVec (8 * n)) => ∀ q, t.byte q = if p ≤ q ∧ q < p + n then y.extractLsb' (8 * (q - p)) 8 else s.byte q
     let reads := fun (acq : Bool) => s.me.took 4 [gd d] [toG d (x.signExtend 64)] (mem := true) (acq := acq)
     s.isPoisoned p n = false →
     (s.Hits { size := n, align := n, right := .a, host := code = 0 ∨ code = 8 } true n va p → code.toNat ≤ 8 →
       (z = 0 ∧ n = 4 ∨ z = 1 ∧ n = 8) → (o.getLsbD 1 = true → s.Released) →
       (s.Clear m [gd d] [gd a, gd b] (long := true) (mem := true) →
         ∃ t, exec (.amo m d a b code z o) s = .next t ∧ s.Leaves t (reads (o.getLsbD 0)) ∧ puts t new ∧ t.empties = s.empties ∧
           t.poison = s.poison) ∧
       (s.Clear m [] [gd a, gd b] (mem := true) →
         ∃ t, exec (.ramo m a b code z o) s = .next t ∧ s.Leaves t (s.me.took 4 [] []) ∧ puts t new ∧ t.empties = s.empties ∧
           t.poison = s.poison)) ∧
     (s.Hits { size := n, align := n, right := .a } true n va p → (zc = 0 ∧ n = 4 ∨ zc = 1 ∧ n = 8) →
       (oc.getLsbD 1 = true → s.Released) → s.Clear m [gd d] [gd a, gd b, gd c] (long := true) (mem := true) →
       ∃ t, exec (.cas m d a b c zc oc) s = .next t ∧ s.Leaves t (reads (oc.getLsbD 0)) ∧
         puts t (if x = v then (s.me.rg c).setWidth _ else x) ∧ t.empties = s.empties ∧ t.poison = s.poison)) ∧
  (∀ (s : State) (m : Bool) (d a b : BitVec 5) (z : BitVec 2) (o : BitVec 3) (n p : Nat) (f : Fmt), p % n = 0 →
     s.isPoisoned p n = false → (z = 0 ∧ n = 4 ∧ f = f32 ∨ z = 1 ∧ n = 8 ∧ f = f64) → (o.getLsbD 1 = true → s.Released) →
     s.Hits { size := n, align := n, right := .a, host := false } true n (s.me.rg a) p →
     s.Clear m [gd d] [gd a, gd b] (long := true) (mem := true) →
     let x := s.num p n
     let v := (s.me.rg b).toNat % 2 ^ (8 * n)
     ∀ code new, (code, new) ∈ [(9, (f.add 0 x v).bits), (10, (f.minMax true x v).bits)] →
       ∃ t, exec (.amo m d a b code z o) s = .next t ∧
         s.Leaves t (s.me.took 4 [gd d] [toG d (BitVec.ofNat 64 x)] (mem := true) (acq := o.getLsbD 0)) ∧
         t.num p n = new ∧ ∀ q, q < p ∨ p + n ≤ q → t.byte q = s.byte q)

/-! ## Checks and paths of an access -/

/-- 01 R32, 06 R130 to R132, 07 R149: what the segment checks of an access trap with, in their order, and the right each form needs. The
value is the address and EPC the instruction's own. -/
def Obligations.AccessTraps : Prop :=
  ∀ (s : State) (m : Bool) (d a b c : BitVec 5) (i : BitVec 11) (o : BitVec 3) (oc : BitVec 2) (code : BitVec 4),
    let trapped := fun (va : Dword) (n : Nat) (right : Segment → Bool) (out : Out) =>
      let g := s.myTile.seg (vaSeg va)
      (g.kind = 0 → out = .next (s.trap Cause.segInvalid va)) ∧
      (g.kind ≠ 0 → vaOff va % n ≠ 0 → out = .next (s.trap Cause.misaligned va)) ∧
      (g.kind ≠ 0 → vaOff va % n = 0 → g.size s.me.scratch < vaOff va + n → out = .next (s.trap Cause.segBounds va)) ∧
      (g.kind ≠ 0 → vaOff va % n = 0 → vaOff va + n ≤ g.size s.me.scratch → right g = false →
        out = .next (s.trap Cause.segRights va))
    let at8 := s.me.rg a + i.signExtend 64 * 8
    let x := s.me.rg a
    (s.Clear m [gd d] [gd a] (long := true) (mem := true) →
      trapped at8 8 (·.rd) (exec (.ld m d a 6 i) s) ∧ trapped at8 8 (·.rd) (exec (.ldr m d a 6 i) s) ∧
      trapped x 8 (·.rd) (exec (.cLd m d a) s) ∧
      trapped at8 8 (fun g => g.f && g.rd) (exec (.ldfe m d a i) s) ∧ trapped at8 8 (fun g => g.f && g.rd) (exec (.ldff m d a i) s) ∧
      trapped at8 8 (fun g => g.f && g.rd) (exec (.feprobe m d a i) s)) ∧
    (s.Clear m [] [gd d, gd a] (mem := true) →
      trapped at8 8 (·.w) (exec (.st m d a 3 i) s) ∧ trapped at8 8 (·.w) (exec (.str m d a 3 i) s) ∧
      trapped x 8 (·.w) (exec (.cSt m d a) s) ∧
      (s.Released →
        trapped at8 8 (fun g => g.f && g.rd && g.w) (exec (.stef m d a i) s) ∧
        trapped at8 8 (fun g => g.f && g.rd && g.w) (exec (.stff m d a i) s) ∧
        trapped at8 8 (fun g => g.f && g.rd && g.w) (exec (.feset m d a i) s))) ∧
    (s.Released →
      (s.Clear m [gd d] [gd a, gd b] (long := true) (mem := true) → trapped x 8 (·.a) (exec (.amo m d a b code 1 o) s)) ∧
      (s.Clear m [] [gd a, gd b] (mem := true) → trapped x 8 (·.a) (exec (.ramo m a b code 1 o) s)) ∧
      (s.Clear m [gd d] [gd a, gd b, gd c] (long := true) (mem := true) → trapped x 8 (·.a) (exec (.cas m d a b c 1 oc) s)))

/-- 06 R128, R129, R131, 07 R149, R159: the path of an access whose owner is another tile. LDR and the barrier and arrival-word forms go
as remote operations, STR and RAMO as posted ones; the others depart to the owner, unless the thread stays, being seated or pinned: then stores
are posted and the rest are remote operations. That a form which departs waits in MARKWAIT for its pending results, before it is DEPARTING, is the
model's choice between 02 R66 and the DEPARTING of 06 R135 from step 1 on (log 68). A posted operation behind a refused record that it follows
stands in the resend buffer with it: the model's choice for 11 R234 and 13 R285 (log 39). -/
def Obligations.PathsToAnotherTile : Prop :=
  ∀ (s : State) (m : Bool) (d a b c : BitVec 5) (i : BitVec 11) (o : BitVec 3) (oc : BitVec 2) (va : Dword) (own : Nat),
    let stays := s.stays s.me
    let asks := fun (k : OpKind) (ds : List Dest) (out : Out) => ∃ t, out = .next t ∧ s.Requests t (s.asks k .remote va own) ds
    let posts := fun (k : OpKind) (size : Nat) (acq : Bool) (out : Out) =>
      let op := s.asks k .posted va own
      let behind := s.myTile.resend.any (fun x => op.follows x.2)
      (behind = false → ∃ t, out = .next t ∧ s.Posts t op size acq) ∧
      (behind = true → ∃ t, out = .next t ∧ t.net = s.net ∧ s.SameMemory t ∧
        (t.tile s.here).resend = s.myTile.resend ++ [(s.residentCycles s.here, op)] ∧
        t.me = { s.me.unpin true with
          pc := s.me.pc + BitVec.ofNat 48 size
          posted := s.me.posted ++ [{ tag := s.me.tags, owner := own, acq := acq, undo := some (s.me.pc, s.me.pincnt, s.time) }]
          tags := s.me.tags + 1 })
    let departs := fun (k : OpKind) (out : Out) => ∃ t, out = .next t ∧ s.Departs t k va own
    let leaves := fun (k : OpKind) (out : Out) =>
      (s.me.pending = [] → departs k out) ∧ (s.me.pending ≠ [] → out = .next (s.hold .results))
    let follows := fun (k : OpKind) (ds : List Dest) (out : Out) =>
      (stays = true → asks k ds out) ∧ (stays = false → leaves k out)
    let stores := fun (k : OpKind) (size : Nat) (out : Out) =>
      (stays = true → posts k size false out) ∧ (stays = false → leaves k out)
    let load : OpKind := .load ⟨8, false⟩
    let store : OpKind := .store 8 (s.me.rg d)
    s.me.denial = none → s.me.posted.length < 255 →
    (va = s.me.rg a + i.signExtend 64 * 8 →
      (s.Away { size := 8, align := 8, right := .rd } va own → s.Clear m [gd d] [gd a] (long := true) (mem := true) →
        follows load [gd d] (exec (.ld m d a 6 i) s) ∧ asks load [gd d] (exec (.ldr m d a 6 i) s)) ∧
      (s.Away { size := 8, align := 8, right := .w } va own → s.Clear m [] [gd d, gd a] (mem := true) →
        stores store 4 (exec (.st m d a 3 i) s) ∧ posts store 4 false (exec (.str m d a 3 i) s)) ∧
      (s.Away { size := 8, align := 8, right := .fe, host := false } va own →
        s.Clear m [gd d] [gd a] (long := true) (mem := true) →
        follows (.fe .ldfe 0) [gd d] (exec (.ldfe m d a i) s) ∧ follows (.fe .ldff 0) [gd d] (exec (.ldff m d a i) s) ∧
        follows (.fe .feprobe 0) [gd d] (exec (.feprobe m d a i) s)) ∧
      (s.Away { size := 8, align := 8, right := .feW, host := false } va own → s.Clear m [] [gd d, gd a] (mem := true) →
        s.Released →
        follows (.fe .stef (s.me.rg d)) [] (exec (.stef m d a i) s) ∧ follows (.fe .stff (s.me.rg d)) [] (exec (.stff m d a i) s) ∧
        follows (.fe .feset (s.me.rg d)) [] (exec (.feset m d a i) s))) ∧
    (va = s.me.rg a →
      (s.Away { size := 8, align := 8, right := .rd } va own → s.Clear m [gd d] [gd a] (long := true) (mem := true) →
        follows load [gd d] (exec (.cLd m d a) s)) ∧
      (s.Away { size := 8, align := 8, right := .w } va own → s.Clear m [] [gd d, gd a] (mem := true) →
        stores store 2 (exec (.cSt m d a) s)) ∧
      (s.Away { size := 8, align := 8, right := .a } va own →
        (s.Clear m [gd d] [gd a, gd b] (long := true) (mem := true) → o.getLsbD 1 = false →
          follows (.amo .add 8 (s.me.rg b) true) [gd d] (exec (.amo m d a b 0 1 o) s)) ∧
        (s.Clear m [] [gd a, gd b] (mem := true) → o.getLsbD 1 = false →
          posts (.amo .add 8 (s.me.rg b) false) 4 (o.getLsbD 0) (exec (.ramo m a b 0 1 o) s)) ∧
        (s.Clear m [gd d] [gd a, gd b, gd c] (long := true) (mem := true) → oc.getLsbD 1 = false →
          follows (.cas 8 (s.me.rg b) (s.me.rg c)) [gd d] (exec (.cas m d a b c 1 oc) s))) ∧
      (s.Away { size := 16, align := 16, right := .rdWA, host := false, sramOnly := true } va own → s.Released →
        (s.Clear m [] [gd a, gd b] (mem := true) → asks (.bar .init (s.me.rg b)) [] (exec (.barInit m a b) s)) ∧
        (s.Clear m [gd d] [gd a, gd b] (long := true) (mem := true) →
          asks (.bar .arr (s.me.rg b)) [gd d] (exec (.barArr m d a b) s) ∧
          asks (.bar .wait (s.me.rg b)) [gd d] (exec (.barWait m d a b) s) ∧
          asks (.bar .arrw (s.me.rg b)) [gd d] (exec (.barArrw m d a b) s) ∧
          asks (.bar .cmb (s.me.rg b)) [gd d] (exec (.barCmb m d a b) s) ∧
          asks (.bar .cmbw (s.me.rg b)) [gd d] (exec (.barCmbw m d a b) s))) ∧
      (s.Away { size := 16, align := 16, right := .rdWA, host := false, sramOnly := true, kind13 := true } va own → s.Released →
        s.Clear m [gd d] [gd a, gd b] (long := true) (mem := true) →
        asks (.awInit (s.me.rg b)) [gd d] (exec (.awinit m d a b) s) ∧
        asks (.awWait ((s.me.rg b).truncate 16)) [gd d] (exec (.awwait m d a b) s)))

/-- 06 R141, 02 R66: MIGRATE departs to the owner of its address and HOME to the tile that the TID names; both only move past themselves where
they name the current tile, or the thread is seated or pinned. Both wait as if marked, HOME where it migrates: with a result pending they hold
their thread in MARKWAIT. That they do so before the thread is DEPARTING is the model's choice between 02 R66 and the DEPARTING of 06 R135 from
step 1 on (log 68). 06 R135, R137, R139, 01 R22: as the port accepts a departing thread's packet, at the latest in the cycle in which the hold reaches
2,048, the slot is FREE, and the context that travels has shifted its departure names and counted its bounce, its other registers as they
were; after that cycle the packet is withdrawn and none leaves. -/
def Obligations.MigrationForms : Prop :=
  (∀ (s : State) (m : Bool) (a : BitVec 5) (i : BitVec 11) (own : Nat),
     let va := s.me.rg a + i.signExtend 64 * 8
     let home := s.me.tid.toNat / 4096
     let past : Out := .next (s.retire 4 s.me)
     s.me.denial = none →
     (s.me.st = .ready → s.me.walking = false → s.me.wait = none → s.me.pending ≠ [] →
       exec (.migrate m a i) s = .next (s.hold .results)) ∧
     (s.Clear m [] [gd a] (mem := true) (waits := true) →
       (s.Away { size := 1, align := 1, right := .none, host := false } va own → s.stays s.me = false →
         ∃ t, exec (.migrate m a i) s = .next t ∧ s.Departs t .arrive va own) ∧
       (s.Away { size := 1, align := 1, right := .none, host := false } va own → s.stays s.me = true →
         exec (.migrate m a i) s = past) ∧
       ((({ size := 1, align := 1, right := .none, host := false } : Need).check (s.myTile.seg (vaSeg va)) s.me.scratch (vaOff va) = none) →
         (s.myTile.seg (vaSeg va)).owner s.here (vaOff va) = some s.here → exec (.migrate m a i) s = past)) ∧
     (s.Clear m [] [] (mem := true) →
       (home = s.here ∨ s.stays s.me = true → exec (.home m) s = past) ∧
       (home ≠ s.here → s.stays s.me = false → s.reachable home = true → s.me.pending ≠ [] → exec (.home m) s = .next (s.hold .results)) ∧
       (home ≠ s.here → s.stays s.me = false → s.reachable home = true → s.me.pending = [] →
         ∃ t, exec (.home m) s = .next t ∧ s.Departs t .arrive s.me.ava home) ∧
       (home ≠ s.here → s.stays s.me = false → s.reachable home = false →
         exec (.home m) s = .next (s.trap Cause.isolated (BitVec.ofNat 64 home))))) ∧
  (∀ (s : State) (t c k dest : Nat) (w : WaitRec) (at_ : Nat),
     let th := s.thread t c k
     th.st = .departing → th.depart = some dest → th.departAt = some at_ → th.wait = some w → s.unitsRun t = true →
     (at_ + 2048 < s.time → exec (.migrationCommit t c k) s = .next s) ∧
     (s.time ≤ at_ + 2048 → ∃ u p x, exec (.migrationCommit t c k) s = .next u ∧ (u.thread t c k).st = .free ∧ s.SameMemory u ∧ u.net = s.net ++ [p] ∧
       p.cls = clsMIG ∧ p.src = t ∧ p.dst = dest ∧ p.body = .context { th := x } .migrated ∧
       x.d1 = BitVec.ofNat 20 t ∧ x.d2 = th.d1 ∧
       (th.d1.toNat ≠ dest → x.bounce = 0 ∧ x.pincnt = th.pincnt) ∧
       (th.d1.toNat = dest → th.bounce.toNat ≠ 3 → x.bounce = th.bounce + 1 ∧ x.pincnt = th.pincnt) ∧
       (th.d1.toNat = dest → th.bounce.toNat = 3 → x.bounce = 0 ∧ x.pincnt = 32) ∧
       x.pc = th.pc ∧ x.g = th.g ∧ x.p = th.p ∧ x.v = th.v ∧ x.tid = th.tid ∧ x.asid = th.asid ∧ x.ava = w.op.va))

/-- 07 R156, R157: a fence goes on when its conditions hold and else holds its thread in MARKWAIT; it writes no register and no memory. -/
def Obligations.FenceForm : Prop :=
  ∀ (s : State) (m : Bool) (sc k : BitVec 3), sc.toNat ≤ 2 → k.toNat ≤ 3 → s.Clear m [] [] (mem := true) →
    let loads := ∀ p ∈ s.me.pending ++ s.me.silent, p.mem = false
    let drained := ∀ e ∈ s.myCore.sb, s.me.mark ≤ e.pos
    let mine := ∀ p ∈ s.me.posted, p.owner ≠ s.here
    let all := s.me.posted = []
    let goes := (k.toNat = 1 ∧ loads) ∨ (k.toNat = 3 ∧ sc.toNat = 2 ∧ all) ∨ (k.toNat = 3 ∧ sc.toNat ≠ 2 ∧ mine) ∨
      ((k.toNat = 0 ∨ k.toNat = 2) ∧ loads ∧ (sc.toNat = 0 ∨ drained ∧ (sc.toNat = 1 ∧ mine ∨ sc.toNat = 2 ∧ all)))
    (goes → s.me.denial = none → exec (.fence m sc k) s = .next (s.retire 4 s.me)) ∧
    (¬ goes → exec (.fence m sc k) s = .next (s.setMe { s.me with st := .markWait, hold := .fence k.toNat sc.toNat }))

/-! ## Barriers and arrival words -/

/-- 07 R160: an arrival of `c` at an object. Below EXPECTED it is counted; at EXPECTED the phase advances and ARRIVED is cleared; beyond it
or for a stale phase it marks OVERRUN. 07 R159 to R162: the barrier forms at an object of the thread's own tile on which nobody waits. -/
def Obligations.BarrierForms : Prop :=
  (∀ (b : BarObj) (c ph : Nat) (chk : Bool) (v : Option Dword),
     let e := if field b.w0 0 16 = 0 then 65536 else field b.w0 0 16
     let r := b.arrive c chk ph v
     let sum := field b.w0 16 16 + c
     let word := match v with
       | some x => if field b.w0 40 4 ≤ 5 then combine (field b.w0 40 4) b.w1 x else b.w1
       | none => b.w1
     let kept := fun (w : Dword) => field w 0 16 = field b.w0 0 16 ∧ field w 37 27 = field b.w0 37 27
     (chk = true → ph ≠ field b.w0 32 4 → r.1.w1 = b.w1 ∧ r.1.w0 = b.w0 ||| 0x1000000000 ∧ r.2.1 = true ∧ r.2.2 = none) ∧
     ((chk = true → ph = field b.w0 32 4) →
       (sum < e → r.1.w1 = word ∧ field r.1.w0 16 16 = sum ∧ field r.1.w0 32 5 = field b.w0 32 5 ∧ kept r.1.w0 ∧ r.2.1 = false ∧
         r.2.2 = none) ∧
       (e ≤ sum → r.1.w1 = combineIdentity (field b.w0 40 4) ∧ field r.1.w0 16 16 = 0 ∧
         field r.1.w0 32 4 = (field b.w0 32 4 + 1) % 16 ∧ kept r.1.w0 ∧ r.2.2 = some word ∧
         (sum = e → r.2.1 = false ∧ field r.1.w0 36 1 = field b.w0 36 1) ∧ (e < sum → r.2.1 = true ∧ field r.1.w0 36 1 = 1)))) ∧
  (∀ (s : State) (m : Bool) (d a b : BitVec 5) (p : Nat), s.Released →
     s.isPoisoned p 16 = false → (s.tile s.here).waitersAt p = [] →
     let va := s.me.rg a
     let x := s.me.rg b
     let need : Need := { size := 16, align := 16, right := .rdWA, host := false, sramOnly := true }
     let old : BarObj := { w0 := s.dword p, w1 := s.dword (p + 8) }
     let counted := old.arrive (field x 0 16) (x.getLsbD 20) (field x 16 4) none
     let combined := old.arrive 1 false 0 (some x)
     let holds := fun (t : State) (w : BarObj) => t.mem = ((s.setDword p w.w0).setDword (p + 8) w.w1).mem ∧ t.empties = s.empties ∧
       t.poison = s.poison
     let puts := fun (acq : Bool) (w : BarObj) (v : Dword) (out : Out) => ∃ t, out = .next t ∧
       s.Leaves t (s.me.took 4 [gd d] [toG d v] (mem := true) (acq := acq) (pin := false)) ∧ holds t w
     let waits := fun (w : BarObj) (out : Out) => (s.tile s.here).waiterCount < 4096 → ∃ t, out = .next t ∧ t.me.st = .barWait ∧
       t.me.pc = s.me.pc ∧ t.me.g = s.me.g ∧ holds t w ∧
       ∃ r, (t.tile s.here).waiters = (s.tile s.here).waiters ++ [r] ∧ r.addr = p ∧ r.op.origin = .thread s.here s.me.tid s.me.tags ∧
         r.phase = old.phase
     (s.Clear m [] [gd a, gd b] (mem := true) → s.Hits need true 16 va p →
       ∃ t, exec (.barInit m a b) s = .next t ∧ s.Leaves t (s.me.took 4 [] [] (pin := false)) ∧ t.empties = s.empties ∧
         t.poison = s.poison ∧ t.dword (p + 8) = combineIdentity (field x 20 4) ∧
         field (t.dword p) 0 16 = field x 0 16 ∧ field (t.dword p) 32 4 = field x 16 4 ∧ field (t.dword p) 40 4 = field x 20 4 ∧
         field (t.dword p) 44 1 = field x 24 1 ∧ field (t.dword p) 16 16 = 0 ∧ field (t.dword p) 36 2 = 0 ∧
         ∀ q, q < p ∨ p + 16 ≤ q → t.byte q = s.byte q) ∧
     (s.Clear m [gd d] [gd a, gd b] (long := true) (mem := true) →
       (s.Hits need false 16 va p →
         (field x 0 4 ≠ old.phase → puts true old old.w0 (exec (.barWait m d a b) s)) ∧
         (field x 0 4 = old.phase → waits old (exec (.barWait m d a b) s))) ∧
       (s.Hits need true 16 va p →
         (counted.2.1 = false → puts false counted.1 counted.1.w0 (exec (.barArr m d a b) s)) ∧
         (counted.2.1 = true → old.w0.getLsbD 44 = false →
           puts false counted.1 (counted.1.w0 ||| 0x8000000000000000) (exec (.barArr m d a b) s) ∧
           puts true counted.1 (counted.1.w0 ||| 0x8000000000000000) (exec (.barArrw m d a b) s)) ∧
         (counted.2.1 = false → counted.2.2 ≠ none → puts true counted.1 counted.1.w0 (exec (.barArrw m d a b) s)) ∧
         (counted.2.1 = false → counted.2.2 = none → waits counted.1 (exec (.barArrw m d a b) s)) ∧
         (combined.2.1 = false → puts false combined.1 combined.1.w0 (exec (.barCmb m d a b) s)) ∧
         (combined.2.1 = false → ∀ v, combined.2.2 = some v → puts true combined.1 v (exec (.barCmbw m d a b) s)) ∧
         (combined.2.1 = false → combined.2.2 = none → waits combined.1 (exec (.barCmbw m d a b) s)))))

/-- 12 R251 to R254: arrival words. `n` more bytes are counted against the target; each time the target is reached the generation counts
up and the target is taken off. AWINIT sets the target, clearing count and marks where rs2 bit 32 asks; AWWAIT returns word 1 once the
generation is another. -/
def Obligations.ArrivalWordForms : Prop :=
  (∀ (w0 w1 : Dword) (n : Nat), n < 2 ^ 31 →
    let cnt := field w0 32 32 + n
    let tgt := field w0 0 31
    let r := arriveWords w0 w1 n false
    field r.1 0 32 = field w0 0 32 ∧
    (tgt = 0 ∨ cnt < tgt → field r.1 32 32 = cnt % 2 ^ 32 ∧ field r.2.1 0 16 = field w1 0 16 ∧ r.2.2 = false) ∧
    (tgt ≠ 0 → tgt ≤ cnt → field r.1 32 32 = cnt % tgt ∧ field r.2.1 0 16 = (field w1 0 16 + cnt / tgt) % 2 ^ 16 ∧ r.2.2 = true)) ∧
  ∀ (s : State) (m : Bool) (d a b : BitVec 5) (p : Nat),
    let va := s.me.rg a
    let x := s.me.rg b
    let need : Need := { size := 16, align := 16, right := .rdWA, host := false, sramOnly := true, kind13 := true }
    let w0 := s.dword p
    let w1 := s.dword (p + 8)
    let r := arriveWords (putField (if x.getLsbD 32 then putField w0 32 32 0 else w0) 0 31 (field x 0 31))
      (if x.getLsbD 32 then putField w1 16 2 0 else w1) 0 false
    s.isPoisoned p 16 = false → (s.tile s.here).waitersAt p = [] →
    s.Clear m [gd d] [gd a, gd b] (long := true) (mem := true) →
    (s.Released → s.Hits need true 16 va p → ∃ t, exec (.awinit m d a b) s = .next t ∧
      s.Leaves t (s.me.took 4 [gd d] [toG d r.2.1] (pin := false)) ∧ t.empties = s.empties ∧
      t.poison = s.poison ∧ t.mem = ((s.setDword p r.1).setDword (p + 8) r.2.1).mem) ∧
    (s.Hits need false 16 va p → field w1 0 16 ≠ field x 0 16 → ∃ t, exec (.awwait m d a b) s = .next t ∧
      s.Leaves t (s.me.took 4 [gd d] [toG d w1] (acq := true) (pin := false)) ∧ s.SameMemory t) ∧
    (s.Hits need false 16 va p → field w1 0 16 = field x 0 16 → (s.tile s.here).waiterCount < 4096 →
      ∃ t, exec (.awwait m d a b) s = .next t ∧ t.me.st = .feWait ∧ t.me.pc = s.me.pc ∧ s.SameMemory t)

/-- 07 R164 to R166: a hierarchical barrier of one tile, with none open elsewhere. The last of the tile's threads to arrive goes on at once, HBAR.CMB with the
combined value, begun with the identity (log 40); one that is not the last waits in BARWAIT as the episode's participant; with
TL_HBARCNT 0 an arrival traps. -/
def Obligations.TileBarrierForms : Prop :=
  ∀ (s : State) (m : Bool) (d a : BitVec 5) (o : BitVec 3), s.Released → (∀ t, (s.tile t).hbar = none) → s.episodes = [] → o.toNat ≤ 5 →
    s.cur.2.1 < 4 → s.cur.2.2 < 16 →
    let (_, c, k) := s.cur
    let arrival := fun (v : Dword) => ({ core := c, slot := k, tid := s.me.tid, value := v } : HArrival)
    let joins := fun (l op : Nat) (cmb : Bool) (v : Dword) (out : Out) => ∃ t, out = .next t ∧ t.me.st = .barWait ∧
      t.me.pc = s.me.pc ∧ t.me.g = s.me.g ∧ s.SameMemory t ∧ t.net = s.net ∧
      (t.tile s.here).hbar =
        some { level := l, cmb := cmb, op := op, count := s.myTile.hbarcnt.toNat, arrivals := [arrival v] }
    (s.Clear m [] [] (mem := true) →
      (s.myTile.hbarcnt = 1 → s.myTile.hbarExtra = [] → ∃ t, exec (.hbar m 1) s = .next t ∧
        t.me = { s.me with pc := s.me.pc + 4, tags := s.me.tags + 1, g0slot := 0 } ∧ s.SameMemory t ∧ t.net = s.net ∧ (t.tile s.here).hbar = none) ∧
      (∀ l : BitVec 3, 2 ≤ s.myTile.hbarcnt.toNat → joins l.toNat 0 false 0 (exec (.hbar m l) s)) ∧
      (∀ l : BitVec 3, s.myTile.hbarcnt = 0 → exec (.hbar m l) s = .next (s.trap Cause.barrierOverrun 0))) ∧
    (s.Clear m [gd d] [gd a] (long := true) (mem := true) →
      (s.myTile.hbarcnt = 1 → s.myTile.hbarExtra = [] → ∃ t, exec (.hbarCmb m d a 1 o) s = .next t ∧
        t.me = { s.me.setG d.toNat (combine o.toNat (combineIdentity o.toNat) (s.me.rg a)) with
          pc := s.me.pc + 4, tags := s.me.tags + 1, g0slot := 0 } ∧ s.SameMemory t ∧ t.net = s.net ∧ (t.tile s.here).hbar = none) ∧
      (∀ l : BitVec 3, 2 ≤ s.myTile.hbarcnt.toNat → joins l.toNat o.toNat true (s.me.rg a) (exec (.hbarCmb m d a l o) s)))

/-! ## Floating-point forms -/

/-- 08 R169 to R179, 04 R86, R92, R95, R98: the scalar forms. The result of the operation on the exact values, rounded once under the mode
of the form, pends with its flags. Where a source or the result is subnormal the request goes to the tile's normaliser, and the thread waits
in NORMALISE; FCLASS, FMIN, FMAX, the sign injections and FCMP never do, nor does a conversion between integer types. FCMP writes a predicate
and NV, FCVT the converted value, a signed narrow integer sign-extended. -/
def Obligations.ScalarFloatForms : Prop :=
  (∀ (s : State) (m : Bool) (d a b c : BitVec 5) (f : BitVec 2) (r : BitVec 3) (fm : Fmt),
     (f.toNat, fm) ∈ [(0, f64), (1, f32), (2, f16), (3, bf16)] →
     let x := (s.me.rg a).toNat
     let y := (s.me.rg b).toNat
     let z := (s.me.rg c).toNat
     let rm := if r = 7 then s.me.frm.toNat else r.toNat
     let dynamic := s.me.frm.toNat
     let here := fun (o : FOut) => (.next (s.retire 4 (s.me.pends true [gd d] [toG d (BitVec.ofNat 64 o.bits)] o.flags)) : Out)
     let normalised := fun (o : FOut) => (.next ((s.retire 4 { s.me with st := .normalise }).mapTile s.here (fun tl =>
       { tl with norm := NormReq.queue { core := s.cur.2.1, slot := s.cur.2.2, at_ := s.time, result :=
         { tag := 0, dests := live [gd d], ready := true, writes := [toG d (BitVec.ofNat 64 o.bits)], flags := o.flags } } tl.norm })) : Out)
     let result := fun (sub : Bool) (o : FOut) => if sub = true ∨ o.tiny = true then normalised o else here o
     let sx := fm.subnormal x
     let sy := fm.subnormal y
     let sz := fm.subnormal z
     (s.Clear m [gd d] [gd a, gd b] (long := true) (dyn := r == 7) →
       exec (.fadd m d a b f r) s = result (sx || sy) (fm.add rm x y) ∧
       exec (.fsub m d a b f r) s = result (sx || sy) (fm.sub rm x y) ∧
       exec (.fmul m d a b f r) s = result (sx || sy) (fm.mul rm x y) ∧
       exec (.fdiv m d a b f r) s = result (sx || sy) (fm.div rm x y)) ∧
     (s.Clear m [gd d] [gd a] (long := true) (dyn := r == 7) → exec (.fsqrt m d a f r) s = result sx (fm.sqrt rm x)) ∧
     (s.Clear m [gd d] [gd a, gd b] (long := true) →
       exec (.fmin m d a b f) s = here (fm.minMax false x y) ∧ exec (.fmax m d a b f) s = here (fm.minMax true x y) ∧
       (let sign := fun v => v / fm.signBit % 2
        let join := fun v => ({ bits := v * fm.signBit + x % fm.signBit } : FOut)
        exec (.fsgnj m d a b f) s = here (join (sign y)) ∧ exec (.fsgnjn m d a b f) s = here (join (1 - sign y)) ∧
        exec (.fsgnjx m d a b f) s = here (join ((sign x + sign y) % 2)))) ∧
     (s.Clear m [gd d] [gd a] (long := true) → exec (.fclass m d a f) s = here { bits := fm.classify x }) ∧
     (s.Clear m [gd d] [gd a, gd b, gd c] (long := true) (dyn := true) →
       exec (.fma m d a b c f) s = result (sx || sy || sz) (fm.fma dynamic false false x y z) ∧
       exec (.fms m d a b c f) s = result (sx || sy || sz) (fm.fma dynamic false true x y z) ∧
       exec (.fnma m d a b c f) s = result (sx || sy || sz) (fm.fma dynamic true true x y z) ∧
       exec (.fnms m d a b c f) s = result (sx || sy || sz) (fm.fma dynamic true false x y z))) ∧
  (∀ (s : State) (m : Bool) (q : BitVec 4) (d a b : BitVec 5) (code : BitVec 4) (f : BitVec 2) (from_ into : BitVec 4) (r : BitVec 3)
     (u : BitVec 1) (fm : Fmt), (f.toNat, fm) ∈ [(0, f64), (1, f32), (2, f16), (3, bf16)] →
     let x := s.me.rg a
     let cmp := fm.compare code.toNat x.toNat (s.me.rg b).toNat
     (s.Clear m [pd q] [gd a, gd b] (long := true) →
       exec (.fcmp m q a b code f) s = .next (s.retire 4 (s.me.pends true [pd q] [toP q cmp.1] cmp.2))) ∧
     (s.Clear m [gd d] [gd a] (long := true) (dyn := r == 7) →
       let res := convert (scalarTy from_.toNat) (scalarTy into.toNat) (if r = 7 then s.me.frm.toNat else r.toNat) (u == 1) x.toNat
       let v : Dword := if into = 0 then BitVec.ofNat 64 res.bits else if into = 2 then (BitVec.ofNat 32 res.bits).signExtend 64
         else BitVec.ofNat 64 res.bits
       let floating := 4 ≤ from_.toNat ∨ 4 ≤ into.toNat
       let sub := match scalarTy from_.toNat with
         | .flt g => g.subnormal x.toNat
         | .int _ _ => false
       (¬ (floating ∧ (sub = true ∨ res.tiny = true)) →
         exec (.fcvt m d a from_ into r u) s = .next (s.retire 4 (s.me.pends true [gd d] [toG d v] res.flags))) ∧
       (floating ∧ (sub = true ∨ res.tiny = true) → ∃ t, exec (.fcvt m d a from_ into r u) s = .next t ∧ t.me.st = .normalise ∧
         t.me.pc = s.me.pc + 4 ∧ t.me.g = s.me.g ∧ s.SameMemory t)))

/-! ## Vector forms -/

/-- 09 R181, R185: the element-wise forms on integer types: each active element is computed modulo the type's width, the others keep the
destination's. The instruction enters its core's vector queue with cost 1 and its result pends. -/
def Obligations.VectorIntegerForms : Prop :=
  ∀ (s : State) (m : Bool) (d a b : BitVec 3) (k : BitVec 2) (t : BitVec 4) (w : Nat) (sg : Bool),
    (t.toNat, w, sg) ∈ [(0, 32, true), (1, 32, false), (5, 16, true), (6, 16, false), (7, 8, true), (8, 8, false)] →
    d.toNat < s.me.vregs → a.toNat < s.me.vregs → s.myTile.laneGroups ≠ [] → s.myCore.vq.length < 8 →
    let val := fun (x : Nat) => if sg then (BitVec.ofNat w x).toInt else (x : Int)
    let wrap := fun (v : Int) => (v % 2 ^ w).toNat
    let computes := fun (out : Out) (f : Nat → Nat → Nat) => ∃ r : Line,
      out = .next ((s.retire 4 (s.me.pends false [vd d] [toV d r])).enqueue s.me.tags 1) ∧
      ∀ j < 512 / w, elem w r j = if (s.me.rk k.toNat).getLsbD (w * j / 32)
        then f (elem w (s.me.rv a.toNat) j) (elem w (s.me.rv b.toNat) j) else elem w (s.me.rv d.toNat) j
    (b.toNat < s.me.vregs → s.Clear m [vd d] [vd d, vd a, vd b, kd k] (long := true) →
      computes (exec (.vadd m d k a b t) s) (fun x y => (x + y) % 2 ^ w) ∧
      computes (exec (.vsub m d k a b t) s) (fun x y => (x + (2 ^ w - y)) % 2 ^ w) ∧
      computes (exec (.vmul m d k a b t) s) (fun x y => x * y % 2 ^ w) ∧
      computes (exec (.vmulh m d k a b t) s) (fun x y => wrap (val x * val y / 2 ^ w)) ∧
      computes (exec (.vmin m d k a b t) s) (fun x y => if val x ≤ val y then x else y) ∧
      computes (exec (.vmax m d k a b t) s) (fun x y => if val y ≤ val x then x else y) ∧
      computes (exec (.vand m d k a b t) s) (fun x y => x &&& y) ∧
      computes (exec (.vor m d k a b t) s) (fun x y => x ||| y) ∧
      computes (exec (.vxor m d k a b t) s) (fun x y => x ^^^ y) ∧
      computes (exec (.vshl m d k a b t) s) (fun x y => x * 2 ^ (y % w) % 2 ^ w) ∧
      computes (exec (.vshr m d k a b t) s) (fun x y => x / 2 ^ (y % w)) ∧
      computes (exec (.vsra m d k a b t) s) (fun x y => wrap ((BitVec.ofNat w x).toInt / 2 ^ (y % w)))) ∧
    (sg = true → s.Clear m [vd d] [vd d, vd a, kd k] (long := true) →
      computes (exec (.vabs m d k a t) s) (fun x _ => if 2 ^ (w - 1) ≤ x then (2 ^ w - x) % 2 ^ w else x) ∧
      computes (exec (.vneg m d k a t) s) (fun x _ => (2 ^ w - x) % 2 ^ w))

/-- 09 R181, R185, R186, 04 R96: the element-wise forms on floating-point types: each active element is rounded once to nearest even, and
the flags of the active elements are ORed in. -/
def Obligations.VectorFloatForms : Prop :=
  ∀ (s : State) (m : Bool) (d a b : BitVec 3) (k : BitVec 2) (t : BitVec 4) (fm : Fmt),
    (t.toNat, fm) ∈ [(2, f32), (3, bf16), (4, f16)] →
    d.toNat < s.me.vregs → a.toNat < s.me.vregs → s.myTile.laneGroups ≠ [] → s.myCore.vq.length < 8 →
    let w := fm.width
    let old := s.me.rv d.toNat
    let computes := fun (out : Out) (f : Nat → Nat → Nat → FOut) => ∃ (r : Line) (fl : BitVec 5),
      out = .next ((s.retire 4 (s.me.pends false [vd d] [toV d r] fl)).enqueue s.me.tags 1) ∧
      (∀ j < 512 / w, elem w r j = if (s.me.rk k.toNat).getLsbD (w * j / 32)
        then (f (elem w (s.me.rv a.toNat) j) (elem w (s.me.rv b.toNat) j) (elem w old j)).bits % 2 ^ w else elem w old j) ∧
      ∀ n < 5, fl.getLsbD n = true ↔ ∃ j < 512 / w, (s.me.rk k.toNat).getLsbD (w * j / 32) = true ∧
        (f (elem w (s.me.rv a.toNat) j) (elem w (s.me.rv b.toNat) j) (elem w old j)).flags.getLsbD n = true
    (b.toNat < s.me.vregs → s.Clear m [vd d] [vd d, vd a, vd b, kd k] (long := true) →
      computes (exec (.vadd m d k a b t) s) (fun x y _ => fm.add 0 x y) ∧
      computes (exec (.vsub m d k a b t) s) (fun x y _ => fm.sub 0 x y) ∧
      computes (exec (.vmul m d k a b t) s) (fun x y _ => fm.mul 0 x y) ∧
      computes (exec (.vmin m d k a b t) s) (fun x y _ => fm.minMax false x y) ∧
      computes (exec (.vmax m d k a b t) s) (fun x y _ => fm.minMax true x y) ∧
      computes (exec (.vfma m d k a b t) s) (fun x y z => fm.fma 0 false false x y z) ∧
      computes (exec (.vfms m d k a b t) s) (fun x y z => fm.fma 0 false true x y z) ∧
      computes (exec (.vfnma m d k a b t) s) (fun x y z => fm.fma 0 true true x y z)) ∧
    (s.Clear m [vd d] [vd d, vd a, kd k] (long := true) →
      computes (exec (.vabs m d k a t) s) (fun x _ _ => { bits := x % 2 ^ (w - 1) }) ∧
      computes (exec (.vneg m d k a t) s) (fun x _ _ => { bits := (x + 2 ^ (w - 1)) % 2 ^ w }))

/-- 09 R187 to R192, R197: the other forms that run in a lane group: comparisons, selection and permutation, elements to and from general
registers, reductions, conversions, quantisation and dot products, with the cost each has in the queue. The lanes' values stand beside: VPERM
takes the element its index element names, whatever the mask, VSEL one of two; VDOT adds a lane's four 8-bit products to the lane modulo 2^32,
VDOTS clamps the sum; VCMP sets a bit where the condition holds of every element of an active lane; VRSUM adds the active elements modulo
2^64, or in FP32 from the lowest index up, each sum rounded. -/
def Obligations.VectorOtherForms : Prop :=
  ∀ (s : State) (m : Bool) (d a b v kd3 : BitVec 3) (k : BitVec 2) (g h : BitVec 5) (t into : BitVec 4) (c : BitVec 5) (r : BitVec 3)
    (u : BitVec 1), s.me.vregs = 8 → s.myTile.laneGroups ≠ [] → s.myCore.vq.length < 8 →
    let th := s.me
    let ty := vecTy t.toNat
    let w := ty.width
    let mask := th.rk k.toNat
    let queued := fun (cost : Nat) (d : Dest) (x : RegWrite) (fl : BitVec 5) =>
      (.next ((s.retire 4 (th.pends false [d] [x] fl)).enqueue th.tags cost) : Out)
    let lanes := fun (cost : Nat) (x : VOut) => queued cost (vd d) (toV d x.1) x.2
    let lanes' := fun (cost : Nat) (x : VOut) => queued cost (vd v) (toV v x.1) x.2
    let on := fun (n j : Nat) => mask.getLsbD (n * j / 32)
    let ints := [((0 : Nat), (32 : Nat), true), (1, 32, false), (5, 16, true), (6, 16, false), (7, 8, true), (8, 8, false)]
    let val := fun (n : Nat) (sg : Bool) (x : Nat) => if sg then (BitVec.ofNat n x).toInt else (x : Int)
    (s.Clear m [vd d] [vd d, vd a, vd b, kd k] (long := true) →
      (∃ x : Line, exec (.vperm m d k a b t) s = lanes 2 (x, 0) ∧ ∀ j < 512 / w, elem w x j =
        if on w j then elem w (th.rv a.toNat) (elem w (th.rv b.toNat) j % (512 / w)) else elem w (th.rv d.toNat) j) ∧
      ∀ sg, (t.toNat, 8, sg) ∈ ints →
        let sum := fun (i : Nat) => (elem 32 (th.rv d.toNat) i |> BitVec.ofNat 32).toInt +
          ((List.range 4).map (fun e => val 8 sg (elem 8 (th.rv a.toNat) (4 * i + e)) * val 8 sg (elem 8 (th.rv b.toNat) (4 * i + e)))).sum
        ∃ x y : Line, exec (.vdot m d k a b t) s = lanes 2 (x, 0) ∧ exec (.vdots m d k a b t) s = lanes 2 (y, 0) ∧
          ∀ i < 16, elem 32 x i = (if mask.getLsbD i then (sum i % 2 ^ 32).toNat else elem 32 (th.rv d.toNat) i) ∧
            elem 32 y i = if mask.getLsbD i then (max (-2 ^ 31) (min (2 ^ 31 - 1) (sum i)) % 2 ^ 32).toNat
              else elem 32 (th.rv d.toNat) i) ∧
    (s.Clear m [vd d] [vd a, vd b, kd k] (long := true) →
      ∃ x : Line, exec (.vsel m d k a b t) s = lanes 1 (x, 0) ∧
        ∀ j < 512 / w, elem w x j = elem w (if on w j then th.rv a.toNat else th.rv b.toNat) j) ∧
    (s.Clear m [.k kd3.toNat] [vd a, vd b, kd k] (long := true) →
      let sets := fun (n : Nat) (holds : Nat → Nat → Prop) => ∃ (x : BitVec 16) (fl : BitVec 5),
        exec (.vcmp m kd3 k a b t c) s = queued 1 (.k kd3.toNat) (toK kd3 x) fl ∧ (fl = 0 ∨ fl = fNV) ∧
        ∀ i < 16, x.getLsbD i = true ↔ mask.getLsbD i = true ∧
          ∀ j < 512 / n, n * j / 32 = i → holds (elem n (th.rv a.toNat) j) (elem n (th.rv b.toNat) j)
      (∀ n sg, (t.toNat, n, sg) ∈ ints → ∀ holds : Int → Int → Prop,
        (c.toNat, holds) ∈ [((0 : Nat), (fun p q => p = q : Int → Int → Prop)), (1, fun p q => p ≠ q), (2, fun p q => p < q),
          (3, fun p q => p ≤ q), (4, fun p q => q < p), (5, fun p q => q ≤ p)] →
        sets n (fun p q => holds (val n sg p) (val n sg q))) ∧
      (∀ fm : Fmt, (t.toNat, fm) ∈ [(2, f32), (3, bf16), (4, f16)] → ∀ (code : Nat) (turned yes : Bool),
        (c.toNat, code, turned, yes) ∈ [(0, 0, false, true), (1, 0, false, false), (2, 1, false, true), (3, 2, false, true),
          (4, 1, true, true), (5, 2, true, true), (6, 3, false, true)] →
        sets fm.width (fun p q => (fm.compare code (if turned then q else p) (if turned then p else q)).1 = yes))) ∧
    (s.Clear m [gd g] [vd v, kd k] (long := true) →
      (∀ n sg, (t.toNat, n, sg) ∈ ints → exec (.vrsum m v k g t) s = queued 2 (gd g) (toG g (BitVec.ofInt 64
        ((List.range (512 / n)).map (fun j => if on n j then val n sg (elem n (th.rv v.toNat) j) else 0)).sum)) 0) ∧
      (∀ fm : Fmt, (t.toNat, fm) ∈ [(2, f32), (3, bf16), (4, f16)] →
        let xs := ((List.range (512 / fm.width)).filter (on fm.width)).map (fun j =>
          (convert (.flt fm) (.flt f32) 0 false (elem fm.width (th.rv v.toNat) j)).bits)
        ∃ fl, exec (.vrsum m v k g t) s = queued 2 (gd g) (toG g (BitVec.ofNat 64 (match xs with
          | [] => 0
          | x :: rest => rest.foldl (fun p q => (f32.add 0 p q).bits) x))) fl)) ∧
    (s.Clear m [vd d] [vd d, vd a, vd b, kd k] (long := true) →
      exec (.vperm m d k a b t) s = lanes 2 (vperm w mask (th.rv d.toNat) (th.rv a.toNat) (th.rv b.toNat), 0) ∧
      exec (.vdot m d k a b t) s = lanes 2 (vdot ty false mask (th.rv d.toNat) (th.rv a.toNat) (th.rv b.toNat)) ∧
      exec (.vdots m d k a b t) s = lanes 2 (vdot ty true mask (th.rv d.toNat) (th.rv a.toNat) (th.rv b.toNat))) ∧
    (s.Clear m [vd d] [vd a, vd b, kd k] (long := true) →
      exec (.vsel m d k a b t) s = lanes 1 (vsel w mask (th.rv a.toNat) (th.rv b.toNat), 0)) ∧
    (s.Clear m [.k kd3.toNat] [vd a, vd b, kd k] (long := true) →
      let x := vcmp ty c.toNat mask (th.rv a.toNat) (th.rv b.toNat)
      exec (.vcmp m kd3 k a b t c) s = queued 1 (.k kd3.toNat) (toK kd3 x.1) x.2) ∧
    (s.Clear m [vd d] [vd d, vd a, kd k] (long := true) →
      exec (.vcvt m d k a into t) s = lanes 1 (vcvt ty (vecTy into.toNat) mask (th.rv a.toNat) (th.rv d.toNat)) ∧
      exec (.vmov m d k a) s = lanes 1 (mergeLanes mask (th.rv d.toNat) (th.rv a.toNat), 0)) ∧
    (s.Clear m [vd d] [vd d, kd k] (long := true) →
      exec (.viota m d k t) s = lanes 1 (viota w mask (th.rv d.toNat), 0)) ∧
    (s.Clear m [vd v] [vd v, gd g, kd k] (long := true) →
      exec (.vbcast m v k g t) s =
        lanes' 1 ((lanewise w mask (th.rv v.toNat) (fun _ => { bits := (th.rg g).toNat % 2 ^ w })).1, 0) ∧
      exec (.vdeq m v k g t) s = lanes' 1 (vdeq ty mask ((th.rg g).toNat % 2 ^ 32) (th.rv v.toNat))) ∧
    (s.Clear m [vd v] [vd v, gd g, kd k] (long := true) (dyn := r == 7) →
      exec (.vquant m v k g r u t) s = lanes' 1 (vquant ty (if r = 7 then th.frm.toNat else r.toNat) (u == 1) mask
        ((th.rg g).toNat % 2 ^ 32) (th.rv v.toNat))) ∧
    (s.Clear m [vd v] [vd v, gd g, gd h] (long := true) → ∃ x : Line,
      exec (.vins m v g h t) s = queued 1 (vd v) (toV v x) 0 ∧
      ∀ j < 512 / w, elem w x j = if j = (th.rg h).toNat % (512 / w) then (th.rg g).toNat % 2 ^ w else elem w (th.rv v.toNat) j) ∧
    (s.Clear m [gd g] [vd v, gd h] (long := true) →
      exec (.vext m v g h t) s =
        queued 1 (gd g) (toG g (ty.extend (elem w (th.rv v.toNat) ((th.rg h).toNat % (512 / w))))) 0) ∧
    (s.Clear m [gd g] [vd v, kd k] (long := true) →
      ∀ i o, (i, o) ∈ [(Instr.vrsum m v k g t, RedOp.sum), (.vrmax m v k g t, .max), (.vrmin m v k g t, .min),
        (.vrmaxabs m v k g t, .maxabs)] →
        exec i s = queued 2 (gd g) (toG g (reduce o ty mask (th.rv v.toNat)).1) (reduce o ty mask (th.rv v.toNat)).2)

/-- 09 R196, R197: the mask forms and VFREE run in the core: k0 reads as all ones, and VFREE ends a register's live bit. -/
def Obligations.MaskForms : Prop :=
  ∀ (s : State) (m : Bool) (d a b v : BitVec 3) (k : BitVec 2) (g : BitVec 5),
    let x := s.me.rk a.toNat
    let y := s.me.rk b.toNat
    let z := s.me.rk v.toNat
    let w := s.me.rk k.toNat
    let mask := fun (r : BitVec 16) => (.next (s.retire 4 (s.me.pends true [.k d.toNat] [toK d r])) : Out)
    let put := fun (r : Dword) => (.next (s.retire 4 (s.me.pends true [gd g] [toG g r])) : Out)
    (s.Clear m [.k d.toNat] [.k a.toNat, .k b.toNat] (long := true) →
      exec (.kand m d a b) s = mask (x &&& y) ∧ exec (.kor m d a b) s = mask (x ||| y) ∧ exec (.kxor m d a b) s = mask (x ^^^ y)) ∧
    (s.Clear m [.k d.toNat] [.k a.toNat] (long := true) → exec (.knot m d a) s = mask (~~~ x)) ∧
    (s.Clear m [.k d.toNat] [gd g] (long := true) → exec (.kmovGk m d g) s = mask ((s.me.rg g).truncate 16)) ∧
    (s.Clear m [gd g] [.k v.toNat] (long := true) →
      exec (.kmovKg m v g) s = put (z.zeroExtend 64) ∧
      exec (.kpop m v g) s = put (BitVec.ofNat 64 ((List.range 16).filter (fun i => z.getLsbD i)).length)) ∧
    (s.Clear m [gd g] [.k v.toNat, kd k] (long := true) →
      exec (.ktest m v k g) s = put ((if z &&& w = z then 2 else 0) + (if z &&& w = 0 then 0 else 1))) ∧
    (d.toNat < s.me.vregs → s.Clear m [vd d] [] (long := true) →
      exec (.vfree m d) s = .next (s.retire 4 (s.me.pends true [vd d] [.free d.toNat]))) ∧
    s.me.rk 0 = 0xFFFF

/-- 09 R193: the block forms at the thread's own tile: VLD takes 64 bytes at once, the lanes it masks out keeping the register's, and
VST enters the store buffer with the bytes of its active lanes. 09 R194: the element-wise forms where the thread's own tile owns every active
element: a load's lanes take the words at their addresses, the others keep the register's; a store's words are written in lane order, and no
other byte changes. That the own tile's lanes are read and written in the step that issues the form is the model's choice (log entry 43). -/
def Obligations.VectorMemoryForms : Prop :=
  (∀ (s : State) (m : Bool) (v : BitVec 3) (k : BitVec 2) (g i : BitVec 5) (p : Nat),
     v.toNat < s.me.vregs → s.myTile.laneGroups ≠ [] →
     let va := s.me.rg g + i.signExtend 64 * 64
     let mask := s.me.rk k.toNat
     let (_, c, slot) := s.cur
     let data := s.me.rv v.toNat
     let entry : SbEntry :=
       { pos := s.myCore.sbNext, addr := p, asid := s.me.asid.toNat, seg := vaSeg va, va := va, tid := s.me.tid
         entered := s.time
         bytes := (List.range 64).map (fun n => if mask.getLsbD (n / 4) then some (data.extractLsb' (8 * n) 8) else none)
         lo := (s.myTile.seg (vaSeg va)).localOffset s.me.scratch (vaOff va) }
     (s.Clear m [vd v] [vd v, gd g, kd k] (long := true) (mem := true) → s.isPoisoned p 64 = false →
       s.Hits { size := 64, align := 64, right := .rd, block := true } false 64 va p →
       ∃ (t : State) (r : Line), exec (.vld m v k g i) s = .next t ∧ s.SameMemory t ∧
         s.Leaves t (s.me.took 4 [vd v] [toV v r] (mem := true)) ∧
         ∀ j < 16, elem 32 r j = if mask.getLsbD j then s.num (p + 4 * j) 4 else elem 32 data j) ∧
     (s.Clear m [] [vd v, gd g, kd k] (mem := true) → s.myCore.sb.length < 16 →
       s.Hits { size := 64, align := 64, right := .w, block := true } true 64 va p →
       ∃ t, exec (.vst m v k g i) s = .next t ∧ s.SameMemory t ∧ s.SameBeyond t ∧ (∀ q, q ≠ s.here → t.tile q = s.tile q) ∧
         ∃ ct tree, t.tile s.here = { s.myTile.setCore c { s.myCore with
           slots := s.myCore.slots.set slot { s.me.took 4 [] [] with mark := s.myCore.sbNext + 1 }
           sb := s.myCore.sb ++ [entry], sbNext := s.myCore.sbNext + 1 } with ct := ct, tlbTree := tree })) ∧
  (∀ (s : State) (m : Bool) (v x : BitVec 3) (k : BitVec 2) (g h : BitVec 5) (t : BitVec 4) (at_ : Nat → Nat),
     v.toNat < s.me.vregs → x.toNat < s.me.vregs → s.myTile.laneGroups ≠ [] → s.myCore.vq.length < 8 → s.me.posted.length < 256 →
     let mask := s.me.rk k.toNat
     let data := s.me.rv v.toNat
     let stride := fun (j : Nat) => s.me.rg g + BitVec.ofNat 64 j * s.me.rg h
     let index := fun (j : Nat) => s.me.rg g + 4 * (BitVec.ofNat 32 (elem 32 (s.me.rv x.toNat) j)).signExtend 64
     let hits := fun (right : Right) (w : Bool) (va : Nat → Dword) => ∀ j < 16, mask.getLsbD j = true →
       s.Hits { size := 4, align := 4, right := right } w 4 (va j) (at_ j) ∧ s.isPoisoned (at_ j) 4 = false
     let after := fun (u : State) => u.me.st = .ready ∧ u.me.pc = s.me.pc + 4 ∧ u.me.wait = none ∧ u.me.g = s.me.g ∧
       u.me.v = s.me.v ∧ u.net = s.net ∧ ∀ n c l, (n, c, l) ≠ s.cur → u.thread n c l = s.thread n c l
     let loads := fun (out : Out) => ∃ (u : State) (q : Pending) (r : Line), out = .next u ∧ after u ∧ s.SameMemory u ∧
       u.me.pending = s.me.pending ++ [q] ∧ q.dests = [vd v] ∧ q.writes = [toV v r] ∧
       ∀ j < 16, elem 32 r j = if mask.getLsbD j then s.num (at_ j) 4 else elem 32 data j
     let covers := fun (j n : Nat) => mask.getLsbD j = true ∧ at_ j ≤ n ∧ n < at_ j + 4
     let stores := fun (out : Out) => ∃ u, out = .next u ∧ after u ∧ u.empties = s.empties ∧ u.me.pending = s.me.pending ∧
       (∀ n, (∀ j < 16, ¬ covers j n) → u.byte n = s.byte n) ∧
       ∀ j < 16, ∀ n, covers j n → (∀ l < 16, j < l → ¬ covers l n) → u.byte n = data.extractLsb' (32 * j + 8 * (n - at_ j)) 8
     (s.Clear m [vd v] [vd v, gd g, gd h, kd k] (long := true) (mem := true) → hits .rd false stride →
       loads (exec (.vlds m v k g h t) s)) ∧
     (s.Clear m [] [vd v, gd g, gd h, kd k] (mem := true) → hits .w true stride → stores (exec (.vsts m v k g h t) s)) ∧
     (s.Clear m [vd v] [vd v, gd g, vd x, kd k] (long := true) (mem := true) → hits .rd false index →
       loads (exec (.vgth m v k g x t) s)) ∧
     (s.Clear m [] [vd v, gd g, vd x, kd k] (mem := true) → hits .w true index → stores (exec (.vsct m v k g x t) s)))

/-! ## Matrix forms -/

/-- 10 R214 to R218: the lease. MLEASE goes on at once when the thread holds the lease or the lease is free, which it then takes, and
else waits in LEASEWAIT at the FIFO's tail; MTRYL answers 1 or 0 and never waits; MREL frees the named slots that are the thread's own,
and with bit 8 gives up the lease. -/
def Obligations.LeaseForms : Prop :=
  ∀ (s : State) (m : Bool) (d a : BitVec 5), s.myTile.hasTrestle = true →
    let tid := s.me.tid
    let ts := s.myTile.trestle
    let lapsed := (tid, true) ∈ ts.fifo
    let took := { ts with holder := some tid, commands := 0, grantAt := s.residentCycles s.here }
    (s.Clear m [] [] →
      (ts.holder = some tid → exec (.mlease m) s = .next (s.retire 4 s.me)) ∧
      (ts.holder = none → ¬ lapsed → ∃ t, exec (.mlease m) s = .next t ∧ (t.tile s.here).trestle = took ∧
        t.me = { s.me with pc := s.me.pc + 4, haltedFrom := t.me.haltedFrom } ∧ s.SameMemory t ∧ t.net = s.net) ∧
      (ts.holder ≠ some tid → lapsed → exec (.mlease m) s = .next (s.retire 4 { s.me with st := .leaseWait })) ∧
      (ts.holder ≠ some tid → ts.holder ≠ none → ¬ lapsed →
        exec (.mlease m) s = .next ((s.retire 4 { s.me with st := .leaseWait }).mapTile s.here (fun tl =>
          { tl with trestle := { tl.trestle with fifo := tl.trestle.fifo ++ [(tid, false)] } })))) ∧
    (s.Clear m [gd d] [] (long := true) →
      (ts.holder = some tid → exec (.mtryl m d) s = .next (s.retire 4 (s.me.pends true [gd d] [toG d 1]))) ∧
      (ts.holder = none → ¬ lapsed → ∃ t, exec (.mtryl m d) s = .next t ∧ (t.tile s.here).trestle = took ∧
        t.me = { s.me.pends true [gd d] [toG d 1] with pc := s.me.pc + 4, haltedFrom := t.me.haltedFrom } ∧ s.SameMemory t) ∧
      (ts.holder ≠ some tid → ts.holder ≠ none ∨ lapsed →
        exec (.mtryl m d) s = .next (s.retire 4 (s.me.pends true [gd d] [toG d 0])))) ∧
    (s.Clear m [] [gd a] →
      let x := s.me.rg a
      let mine := fun (n : Nat) => ((s.myTile.acc n).owner = some tid ∧ (s.myTile.acc n).orphaned = false) ∨
        ((s.myTile.acc n).orphaned = true ∧ x.getLsbD 9 = true)
      let named := fun (n : Nat) => n < 8 ∧ x.getLsbD n = true
      (x.getLsbD 9 = true → s.me.priv ≠ 0) →
      (∀ n, named n → mine n ∨ ((s.myTile.acc n).owner = none ∧ (s.myTile.acc n).orphaned = false)) →
      (∀ n, named n → mine n → s.myTile.slotBusy n = false) →
      (x.getLsbD 8 = false → ∃ t, exec (.mrel m a) s = .next t ∧ t.me = { s.me with pc := s.me.pc + 4 } ∧ s.SameMemory t ∧
        (t.tile s.here).trestle = ts ∧ (∀ n, named n → mine n → (t.tile s.here).acc n = {}) ∧
        ∀ n, ¬ (named n ∧ mine n) → (t.tile s.here).acc n = s.myTile.acc n) ∧
      (x.getLsbD 8 = true → ts.holder = some tid → ts.fifo = [] → ∃ t, exec (.mrel m a) s = .next t ∧
        (t.tile s.here).trestle.holder = none ∧ t.me.pc = s.me.pc + 4 ∧ t.me.g = s.me.g))

/-- 10 R200, R203, R219, R220: MISSUE whose block has been read is answered with its sequence number and its command queued, or with the
reason of its rejection; MWAIT's result returns when its command has completed, with the count of completed commands, and with g0 for
destination no result pends, though later memory accesses wait for it all the same (02 R65); MSEQ reads the counts and the slots' status words; MACCV and MACCW read and write one chunk of a slot,
and trap ILLEGAL where the thread has not the vector register that they name (15 R316). -/
def Obligations.MatrixCommandForms : Prop :=
  ∀ (s : State) (m : Bool) (d a : BitVec 5) (v : BitVec 3), s.myTile.hasTrestle = true →
    let tl := s.myTile
    let ts := tl.trestle
    let x := s.me.rg a
    let returns := fun (r : Dword) => (.next (s.retire 4 (s.me.pends true [gd d] [toG d r])) : Out)
    (s.Clear m [gd d] [gd a] (long := true) (mem := true) → s.Released → ts.holder = some s.me.tid → ∀ ws, s.me.block = some ws →
      let b : Block := { words := ws, seq := ts.accepted + 1, tid := s.me.tid, asid := s.me.asid.toNat, scratch := s.me.scratch
                         segs := tl.segs }
      let acc := tl.acc b.slot
      let answered := fun (t : State) (r : Dword) => t.me = { s.me.setG d.toNat r with
        pc := s.me.pc + 4, block := none, issuing := false } ∧ s.SameMemory t
      (∀ operand code, b.rejection acc.tag = some (operand, code) → ∃ t, exec (.missue m d a) s = .next t ∧
        answered t (BitVec.ofNat 64 (2 ^ 63 + operand * 256 + code)) ∧ (t.tile s.here).trestle = ts ∧ (t.tile s.here).accs = tl.accs) ∧
      (b.rejection acc.tag = none → acc.orphaned = false → acc.owner = none ∨ acc.owner = some s.me.tid → ts.queue.length < 8 →
        ts.before ≤ ts.completed → ts.commands ≠ 15 → ∃ t, exec (.missue m d a) s = .next t ∧ answered t (BitVec.ofNat 64 (ts.accepted + 1)) ∧
        (t.tile s.here).trestle = { ts with queue := ts.queue ++ [b], accepted := ts.accepted + 1, commands := ts.commands + 1 } ∧
        (t.tile s.here).acc b.slot =
          { acc with owner := some s.me.tid, tag := if b.kind = 3 then acc.tag else b.tag })) ∧
    (s.Clear m [gd d] [gd a] (long := true) →
      (min x.toNat ts.accepted ≤ ts.completed → ∃ t, exec (.mwait m d a) s = .next t ∧ t.me.pc = s.me.pc + 4 ∧ t.me.g = s.me.g ∧
        (d = 0 → t.me.pending = s.me.pending) ∧
        (d ≠ 0 → ∃ p, t.me.pending = s.me.pending ++ [p] ∧ p.dests = [gd d] ∧ p.ready = true ∧ p.acq = true ∧
          p.writes = [toG d (BitVec.ofNat 64 ts.completed)])) ∧
      (ts.completed < min x.toNat ts.accepted → ∃ t p, exec (.mwait m d a) s = .next t ∧ t.me.pc = s.me.pc + 4 ∧ t.me.g = s.me.g ∧
        p.ready = false ∧ p.acq = true ∧ p.mseq = some (min x.toNat ts.accepted) ∧
        (d = 0 → t.me.pending = s.me.pending ∧ t.me.silent = s.me.silent ++ [p]) ∧
        (d ≠ 0 → t.me.pending = s.me.pending ++ [p] ∧ t.me.silent = s.me.silent ∧ p.dests = [gd d])) ∧
      (x = 0 → exec (.mseq m d a) s = returns (BitVec.ofNat 64 ts.completed)) ∧
      (x = 1 → exec (.mseq m d a) s = returns (BitVec.ofNat 64 ts.accepted)) ∧
      (8 ≤ x.toNat → x.toNat < 16 → exec (.mseq m d a) s = returns (tl.slotStatus (x.toNat - 8))) ∧
      (16 ≤ x.toNat ∨ 2 ≤ x.toNat ∧ x.toNat < 8 → exec (.mseq m d a) s = returns 0)) ∧
    (tl.holds s.me.tid = true →
      let n := field x 0 3
      let acc := tl.acc n
      let chunk := 8 * field x 3 5 + field x 8 3
      let hidden := (acc.tag = 1 ∨ acc.tag = 2) ∧ 4 ≤ field x 8 3
      let owned := { acc with owner := some s.me.tid }
      acc.orphaned = false → acc.owner = none ∨ acc.owner = some s.me.tid → tl.slotBusy n = false → v.toNat < s.me.vregs →
      (s.Clear m [vd v] [gd a] (long := true) → acc.fault = 0 →
        exec (.maccv m v a) s =
          .next ((s.retire 4 (s.me.pends true [vd v] [toV v (if hidden then 0 else acc.data.get 0 chunk)])).mapTile s.here
            (fun tl => tl.setAcc n owned))) ∧
      (s.Clear m [] [vd v, gd a] →
        exec (.maccw m v a) s = .next ((s.retire 4 s.me).mapTile s.here (fun tl => tl.setAcc n
          (if hidden then owned else { owned with data := acc.data.set chunk (s.me.rv v.toNat) }))))) ∧
    (s.me.vregs ≤ v.toNat →
      (s.Clear m [vd v] [gd a] (long := true) →
        exec (.maccv m v a) s = .next (s.trap Cause.illegal (Instr.word (.maccv m v a)))) ∧
      (s.Clear m [] [vd v, gd a] → exec (.maccw m v a) s = .next (s.trap Cause.illegal (Instr.word (.maccw m v a)))))

/-- 10 R219, 12 R260, R269, R277, R278: the forms with a parameter block read it once, by doublewords, before they act: here where the
thread's own tile owns it. The block is then the thread's, which issues the form again; nothing else has changed. -/
def Obligations.ParameterBlockIsRead : Prop :=
  ∀ (s : State) (m : Bool) (d a b : BitVec 5) (at_ : Nat → Nat), s.me.block = none →
    let reads := fun (va : Dword) (n : Nat) (out : Out) =>
      (∀ j < n, s.Hits { size := 8, align := 8, right := .rd } false 8 (va + BitVec.ofNat 64 (8 * j)) (at_ j) ∧
        s.isPoisoned (at_ j) 8 = false) →
      ∃ t, out = .next t ∧ t.me.block = some ((List.range n).map (fun j => s.dword (at_ j))) ∧ t.me.st = .ready ∧ t.me.wait = none ∧
        t.me.pc = s.me.pc ∧ t.me.g = s.me.g ∧ t.me.pending = s.me.pending ∧ s.SameMemory t ∧ t.net = s.net
    let checked := fun (va : Dword) (size align : Nat) =>
      (s.myTile.seg (vaSeg va)).check s.me.scratch (vaOff va) size align .rd = none
    (s.Clear m [gd d] [gd a] (long := true) (mem := true) → s.Released → s.myTile.hasTrestle = true →
      s.myTile.trestle.holder = some s.me.tid → checked (s.me.rg a) 64 64 →
      (s.myTile.seg (vaSeg (s.me.rg a))).owner s.here (vaOff (s.me.rg a)) = some s.here → reads (s.me.rg a) 8 (exec (.missue m d a) s)) ∧
    (s.Clear m [] [gd a, gd b] (mem := true) → s.Released → checked (s.me.rg b) 64 64 → reads (s.me.rg b) 8 (exec (.cpy2d m a b) s)) ∧
    (s.Clear m [gd d] [gd a, gd b] (long := true) (mem := true) → s.Released → checked (s.me.rg a) 64 64 →
      (s.me.rg b).getLsbD 1 = false → (s.myTile.bookend (field (s.me.rg b) 0 1)).mode ≠ 1 → s.ownsRange s.me (s.me.rg a) 64 = true →
      reads (s.me.rg a) 8 (exec (.scstart m d a b) s)) ∧
    (s.Clear m [] [gd a] (mem := true) → s.me.priv ≠ 0 →
      (checked (s.me.rg a) 32 32 → s.ownsRange s.me (s.me.rg a) 32 = true → reads (s.me.rg a) 4 (exec (.inval m a) s)) ∧
      (checked (s.me.rg a) 288 32 → reads (s.me.rg a) 36 (exec (.segld m a) s)))

/-! ## Threads, queues and indexes -/

/-- 11 R227 to R231, 01 R42: the SPAWN forms. The count of live threads rises at the partition's origin, here the thread's own tile,
the lowest free number above the last is drawn and returned as the child's TID, and the child's context leaves as a packet: for the
current tile, or with SPAWNAT for the owner of the address. 05 R125: EXIT frees its slot, gives up the lease and the scratch allotment,
reports a denial that no instruction took, and sends the retire note and the decrement of the live-thread count. -/
def Obligations.SpawnAndExitForms : Prop :=
  (∀ (s : State) (m : Bool) (d b c : BitVec 5) (n : Nat) (entry : CodeAddr) (prio : BitVec 2) (vregs scratch : Nat) (how : Admit),
     s.Clear m [gd d] [gd b, gd c] (long := true) (mem := true) → s.Released → s.Sound → s.me.quotaTaken = false →
     s.originTile s.me.asid.toNat = some s.here →
     let x := s.me.rg b
     let ty := s.taskType s.here (field x 1 5)
     (x.getLsbD 0 = false ∧ x.extractLsb' 45 16 = 0 ∧ entry = x.extractLsb' 61 3 ++ x.extractLsb' 0 45 ∧ prio = s.me.prio ∧ vregs = 8 ∧
         scratch = 0 ∧ how = .spawned ∨
       x.getLsbD 0 = true ∧ field x 6 58 = 0 ∧ ty.valid = true ∧ ty.scratch ≤ s.myTile.poolSize ∧ entry = ty.entry ∧ prio = ty.prio ∧
         vregs = ty.vregs ∧ scratch = ty.scratch ∧ how = .task) →
     let counter := sramAt s.here 0x1730200
     let live := (s.dword counter).toNat + 1
     (s.myTile.quota = 0 ∨ live ≤ s.myTile.quota.toNat) → live < 2 ^ 64 →
     n < 4096 → n ∉ s.myTile.live → (∀ i < (n + 4095 - s.myTile.lastSeq % 4096) % 4096, (s.myTile.lastSeq + 1 + i) % 4096 ∈ s.myTile.live) →
     let tid : BitVec 32 := BitVec.ofNat 32 (s.myTile.name.toNat * 4096 + n)
     let spawned := fun (dest : Nat) (any : Bool) (out : Out) => ∃ t p y, out = .next t ∧
       t.me = { s.me.pends true [gd d] [toG d (tid.zeroExtend 64)] with pc := s.me.pc + 4, draw := none } ∧
       t.mem = (s.setDword counter (BitVec.ofNat 64 live)).mem ∧
       (t.tile s.here).live = addTo n s.myTile.live ∧ (t.tile s.here).lastSeq = n ∧
       t.net = s.net ++ [p] ∧ p.cls = clsMIG ∧ p.dst = dest ∧ p.body = .context y how ∧
       y.scratchNeed = scratch ∧ y.donatable = any ∧
       y.th = { st := .ready, pc := entry, prio := prio, vregs := vregs, tid := tid, asid := s.me.asid, frm := s.me.frm
                few := s.me.few, hz := s.me.hz, g := [(1, s.me.rg c), (2, s.me.tid.zeroExtend 64)] }
     spawned s.here false (exec (.spawn m d b c) s) ∧
     spawned s.here true (exec (.spawnany m d b c) s) ∧
     ∀ own, (({ size := 1, align := 1, right := .rd, host := false } : Need).check (s.myTile.seg (vaSeg (s.me.rg c))) s.me.scratch
         (vaOff (s.me.rg c)) = none) → (s.myTile.seg (vaSeg (s.me.rg c))).owner s.here (vaOff (s.me.rg c)) = some own →
       own = s.here ∨ s.reachable own = true → spawned own false (exec (.spawnat m d b c) s)) ∧
  (∀ (s : State) (m : Bool), s.Clear m [] [] (waits := true) → (∀ p ∈ s.me.silent, p.mem = false) →
     let th := s.me
     let freed := (s.issued {}).mapTile s.here (fun tl => (tl.giveUp th.tid (s.residentCycles s.here)).freeScratch th.tid)
     let told := match th.denial with
       | some va => freed.denialLeft s.here th.tid th.asid.toNat va
       | none => freed
     exec (.exit m) s = .next ((told.sendRetire s.here th.asid.toNat th.tid).sendQuotaDrop s.here th.asid.toNat))

/-- 11 R224, R225, R233 to R237, R247: the plain queue forms at the queue's own tile, with no record of the queue held back: a record or
token joins the ring's tail, where its 32 bytes lie in tile memory (where, and a token's bytes: log 35), a receiver takes the head, a record from
its 32 bytes, a receiver of an empty queue waits in QWAIT, and QSTAT tells the waiters, the tokens given out and the length. A handle that fails its checks traps QUEUE with its reason. -/
def Obligations.PlainQueueForms : Prop :=
  ∀ (s : State) (m : Bool) (a b c : BitVec 5) (q : PlainQueue),
    let h := s.me.rg b
    let i := field h 0 11
    let four := fun (k : Nat) => (List.range 4).map (fun j => Dest.g (k + j))
    let lines := fun (ws : List Dword) => ws.map (fun w => w.zeroExtend 512)
    let record : QRec := { w0 := s.me.rg a, w1 := s.me.rg (a + 1), w2 := s.me.rg (a + 2), w3 := s.me.rg (a + 3) }
    let sends := fun (x : QItem) (ws : List Dword) (out : Out) => q.waiters = [] → q.ring.length < q.size → s.myTile.resendBusy h = false →
      s.myTile.resend.length < 64 → s.me.posted.length < 255 → ∃ t, out = .next t ∧ t.me = s.me.took 4 [] [] ∧
        s.Wrote t (sramAt s.here (s.myTile.plainBase i + 32 * ((q.head + q.ring.length) % q.size))) ws ∧
        t.net = s.net ∧ (t.tile s.here).plain i = some { q with ring := q.ring ++ [x] }
    let head := sramAt s.here (s.myTile.plainBase i + 32 * q.head)
    (s.handleFault s.me h false = none → field h 12 20 = s.here → s.myTile.plain i = some q → s.myCore.stalled = none → s.Sound →
      (s.Clear m [] (four a.toNat ++ [gd b]) (mem := true) → 
        sends (.record record) [record.w0, record.w1, record.w2, record.w3] (exec (.qsend m a b) s)) ∧
      (s.Clear m [] [gd b] (mem := true) → s.Released → sends .eos [0, 0, 0, 0] (exec (.qeos m b) s)) ∧
      (s.Clear m (four a.toNat ++ [gd c]) [gd b] (long := true) (mem := true) →
        let got := fun (x : QItem) (rest : List QItem) (ws : List Dword) => q.ring = x :: rest →
          ∃ t, exec (.qrecv m a b c) s = .next t ∧ s.SameMemory t ∧
            t.me = s.me.took 4 (four a.toNat ++ [gd c]) (((four a.toNat ++ [gd c]).zip (lines ws)).map (fun e => .to e.1 e.2))
              (acq := true) ∧
            ∃ n, (t.tile s.here).plain i = some { q with
              head := (q.head + 1) % q.size, ring := rest, eosOut := q.eosOut + n } ∧ n = (if x = .eos then 1 else 0)
        (s.isPoisoned head 32 = false →
          (∀ r rest, got (.record r) rest [s.dword head, s.dword (head + 8), s.dword (head + 16), s.dword (head + 24), 0]) ∧
          ∀ rest, got .eos rest [0, 0, 0, 0, 1]) ∧
        (q.ring = [] → s.myTile.waiterCount < 4096 → ∃ t o, exec (.qrecv m a b c) s = .next t ∧ t.me.st = .qWait ∧ t.me.pc = s.me.pc ∧
          s.SameMemory t ∧ (t.tile s.here).plain i = some { q with waiters := q.waiters ++ [o] })) ∧
      (s.Clear m [gd a] [gd b] (long := true) (mem := true) → ∃ t, exec (.qstat m a b) s = .next t ∧ s.SameMemory t ∧
        t.me = s.me.took 4 [gd a] [toG a (BitVec.ofNat 64
          (min q.waiters.length 65535 * 2 ^ 48 + min q.eosOut 65535 * 2 ^ 32 + q.ring.length))])) ∧
    (s.Clear m [] (four a.toNat ++ [gd b]) (mem := true) →
      (field h 32 32 ≠ 0 → exec (.qsend m a b) s = .next (s.trap Cause.queue (BitVec.ofNat 64 (2 ^ 56 + field h 0 32)))) ∧
      (s.handleFault s.me h false = some 2 →
        exec (.qsend m a b) s = .next (s.trap Cause.queue (BitVec.ofNat 64 (2 * 2 ^ 56 + field h 0 32)))))

/-- 11 R238 to R243, 17 R356 to R361: the D-queue forms at the queue's own tile. A record that matches an entry of the window is added
into it, which leaves it at sum 0; one that matches none takes the window's lowest free place, and its 32 bytes lie there; one of a round beyond
the window goes to the spill ring, in the vault (their places there: log 35); a note is counted; DRECV takes an entry of the round under
release, from its 32 bytes, and its token when it is due; DQUIET counts the records of rounds not yet begun. -/
def Obligations.DresserForms : Prop :=
  ∀ (s : State) (m : Bool) (a b c : BitVec 5) (q : DQueue),
    let h := s.me.rg b
    let i := field h 0 11
    s.handleFault s.me h true = none → field h 12 20 = s.here → s.myTile.dqueue i = some q → s.myCore.stalled = none → s.Sound →
    let four := fun (k : Nat) => (List.range 4).map (fun j => Dest.g (k + j))
    let w3 := s.me.rg (a + 3)
    let round := field w3 32 16
    let change := (w3.truncate 32 : BitVec 32).toInt
    let e : DEntry := { key := s.me.rg a, v1 := s.me.rg (a + 1), v2 := s.me.rg (a + 2), round := round, sum := change }
    let free := s.myTile.resendBusy h = false ∧ s.myTile.resend.length < 64 ∧ s.me.posted.length < 255
    let open_ := fun (r : Nat) => (r + 65536 - q.base % 65536) % 65536 < 4 ∧ q.finalBegun = none
    let after := fun (out : Out) (q' : DQueue) (memory : State → Prop) => ∃ t, out = .next t ∧ t.me = s.me.took 4 [] [] ∧ memory t ∧
      t.net = s.net ∧ (t.tile s.here).dqueue i = some q'
    let inWindow := fun (x : DEntry) (t : State) => s.Wrote t (sramAt s.here (s.myTile.windowBase i + 32 * x.place)) x.words
    let takes := fun (ws : List Dword) (out : Out) (q' : DQueue) => ∃ t, out = .next t ∧ s.SameMemory t ∧
      t.me = s.me.took 4 (four a.toNat ++ [gd c])
        (((four a.toNat ++ [gd c]).zip (ws.map (fun w => w.zeroExtend 512))).map (fun e => .to e.1 e.2)) (acq := true) ∧
      (t.tile s.here).dqueue i = some q'
    (s.Clear m [] (four a.toNat ++ [gd b]) (mem := true) → free → (w3.truncate 32 : BitVec 32) ≠ 0 →
      4 ≤ (round + 65536 - q.base % 65536) % 65536 → (round + 65536 - q.base % 65536) % 65536 < 32768 → q.finalBegun = none →
      q.ring.length < q.ringSize →
        let place := vaultAt s.here (s.myTile.spillBase i + 32 * (q.tail % q.ringSize))
        (s.touch place 32 true).stalled = false →
        after (exec (.dsend m a b) s) { q with ring := q.ring ++ [.record e], tail := q.tail + 1 }
          (fun t => s.Wrote t place e.words)) ∧
    (s.Clear m [] (four a.toNat ++ [gd b]) (mem := true) → free → open_ round → (w3.truncate 32 : BitVec 32) ≠ 0 →
      ((∀ x ∈ q.window, x.same e = false) → q.rel = none → ∀ p, p < 1024 → (∀ x ∈ q.window, x.place ≠ p) →
        (∀ p' < p, ∃ x ∈ q.window, x.place = p') → q.window.length < 1024 →
        after (exec (.dsend m a b) s) { q with window := q.window ++ [{ e with place := p }] } (inWindow { e with place := p })) ∧
      (∀ pre x post, q.window = pre ++ x :: post → (∀ y ∈ pre, y.same e = false) → x.same e = true →
        (x.sum + change = 0 → after (exec (.dsend m a b) s) { q with window := pre ++ post } s.SameMemory) ∧
        (x.sum + change ≠ 0 → -2147483648 ≤ x.sum + change → x.sum + change ≤ 2147483647 →
          after (exec (.dsend m a b) s) { q with window := pre ++ { x with sum := x.sum + change } :: post }
            (inWindow { x with sum := x.sum + change })))) ∧
    (s.Clear m [] (four a.toNat ++ [gd b]) (mem := true) → (w3.truncate 32 : BitVec 32) = 0 →
      exec (.dsend m a b) s = .next (s.retire 4 (s.me.unpin true))) ∧
    (s.Clear m [] [gd b, gd c] (mem := true) → s.Released → free → q.rel = none →
      let r := field (s.me.rg c) 0 16
      let fin := (s.me.rg c).getLsbD 16
      let notes := q.notes.set r (q.notes.get 0 r + 1)
      open_ r → q.notes.get 0 r < q.producers → notes.get 0 q.base ≠ q.producers →
        after (exec (.dseal m b c) s) { q with notes := notes, finals := if fin then addTo r q.finals else q.finals }
          s.SameMemory) ∧
    (s.Clear m (four a.toNat ++ [gd c]) [gd b] (long := true) (mem := true) → ∀ rel, q.rel = some rel → rel.passDue = false →
      (∀ x ∈ q.window, x.poison = false) →
      (∀ pre x post, q.window = pre ++ x :: post → (∀ y ∈ pre, y.round ≠ rel.round) → x.round = rel.round → x.ovf = false →
        rel.tokenDue = true ∨ (∃ y ∈ pre ++ post, y.round = rel.round) →
        let place := sramAt s.here (s.myTile.windowBase i + 32 * x.place)
        takes [s.dword place, s.dword (place + 8), s.dword (place + 16), s.dword (place + 24), 0] (exec (.drecv m a b c) s)
          { q with window := pre ++ post }) ∧
      ((∀ x ∈ q.window, x.round ≠ rel.round) → rel.tokenDue = true → rel.final = true → q.finalBegun ≠ none →
        takes [0, 0, 0, BitVec.ofNat 64 (rel.round * 2 ^ 32 + 2 ^ 49 + 2 ^ 50), 2] (exec (.drecv m a b c) s)
          { q with rel := none, rrel := rel.round, noneYet := false, finalDone := true })) ∧
    (s.Clear m [gd a] [gd b] (long := true) (mem := true) → q.rel = none → ∃ t n, exec (.dquiet m a b) s = .next t ∧ s.SameMemory t ∧
      t.me = s.me.took 4 [gd a] [toG a (BitVec.ofNat 64
        ((if q.noneYet then 2 ^ 63 else 0) + (if q.finalDone then 2 ^ 62 else 0) + min n 65535 * 2 ^ 32 + q.rrel))] ∧
      (q.ring = [] → n = q.window.length))

/-- 11 R244 to R246, 17 R368, R369, 25 R438: the index forms on a lawful index of the thread's own tile whose pages are in the TLB, for a
key whose home slot is empty, with no store of the core in its buffer: XCNT and XSCAN answer 0, XSCAN with its whole group pending and its
first register not written, and XUPD enters the key and its first value. A key entry found in its home slot gives XCNT its total. That the whole
group of four pends while only three of it are written is the model's choice for 11 R245 (log 45). -/
def Obligations.IndexForms : Prop :=
  ∀ (s : State) (m : Bool) (a b c : BitVec 5) (p : Nat) (r : IdxArray) (slot : Nat → Nat),
    let va := s.me.rg b
    let t := s.here
    let need : Need := { size := 64, align := 64, right := .rdWA, host := false, sramOnly := true, kind13 := true }
    let h := s.idxHeader p
    s.idxLawful t p h = some r → s.isPoisoned p 64 = false → s.myCore.sb = [] →
    let reach := fun (w : Bool) => ∀ i < h.cap, (∃ u, s.translate t s.myTile.asid.toNat r.seg false w (s.myTile.seg r.seg).psize (r.lo + 32 * i) =
      .at_ (slot i) u) ∧ s.isPoisoned (slot i) 32 = false ∧ (s.tile (devTile (slot i))).errs = []
    let home := fun (k : Dword) => crc32c (leBytes 8 k.toNat) % h.cap
    let entry := fun (i n : Nat) => s.dword (slot i + 8 * n)
    (s.Hits need false 64 va p → reach false →
      (s.Clear m [gd a] [gd b, gd c] (long := true) (mem := true) →
        let k := s.me.rg c
        (entry (home k) 3 = 0 → ∃ t, exec (.xcnt m a b c) s = .next t ∧ s.SameMemory t ∧ t.me = s.me.took 4 [gd a] [toG a 0]) ∧
        (entry (home k) 3 = 1 → entry (home k) 0 = k → entry ((home k + 1) % h.cap) 3 = 0 → ∃ t, exec (.xcnt m a b c) s = .next t ∧
          s.SameMemory t ∧ t.me = s.me.took 4 [gd a] [toG a (entry (home k) 1)])) ∧
      (s.Clear m ((List.range 4).map (fun j => Dest.g (a.toNat + j))) [gd a, gd (a + 3), gd b] (long := true) (mem := true) →
        entry (home (s.me.rg a)) 3 = 0 → ∃ t, exec (.xscan m a b) s = .next t ∧ s.SameMemory t ∧
          t.me = s.me.took 4 ((List.range 4).map (fun j => Dest.g (a.toNat + j)))
            [.to (.g (a.toNat + 1)) 0, .to (.g (a.toNat + 2)) 0, .to (.g (a.toNat + 3)) 0])) ∧
    (s.Hits need true 64 va p → reach true → s.Clear m [gd a] (gd b :: (List.range 4).map (fun j => Dest.g (c.toNat + j))) (long := true) (mem := true) →
      let k := s.me.rg c
      let i := home k
      let j := (i + 1) % h.cap
      let d := ((s.me.rg (c + 3)).truncate 32 : BitVec 32)
      entry i 3 = 0 → entry j 3 = 0 → d ≠ 0 → h.used + 2 ≤ 3 * h.cap / 4 → h.live + 1 < 2 ^ 32 → h.keys + 1 < 2 ^ 32 →
      (∀ x < h.cap, ∀ y < h.cap, x ≠ y → slot x + 32 ≤ slot y ∨ slot y + 32 ≤ slot x) →
      (∀ x < h.cap, slot x + 32 ≤ p ∨ p + 64 ≤ slot x) →
      ∃ u, exec (.xupd m a b c) s = .next u ∧ u.me = s.me.took 4 [gd a] [toG a (d.zeroExtend 64)] ∧
        u.dword (slot i) = k ∧ u.dword (slot i + 8) = d.signExtend 64 ∧ u.dword (slot i + 16) = 0x100000001 ∧
        u.dword (slot i + 24) = 1 ∧
        u.dword (slot j) = k ∧ u.dword (slot j + 8) = s.me.rg (c + 1) ∧ u.dword (slot j + 16) = s.me.rg (c + 2) ∧
        u.dword (slot j + 24) = (1 : BitVec 32) ++ d ∧
        u.idxHeader p = { h with used := h.used + 2, live := h.live + 1, keys := h.keys + 1 })

/-! ## Copies, Bookends and the supervisor's forms -/

/-- 12 R255, R260: CPY whose checks pass enters its command into the copy engine's queue, and CPY2D the rows of its block; a length of 0
that passes them does nothing (log 49), and a full queue makes the thread forfeit its turn. A check that fails traps. -/
def Obligations.CopyForms : Prop :=
  ∀ (s : State) (m : Bool) (a b c l : BitVec 5), s.Released →
    let cmd := fun (rows : List CopyRow) =>
      ({ asid := s.me.asid.toNat, tid := s.me.tid, rows := rows, aw := s.me.rg a, supervisor := s.me.priv != 0
         scratch := s.me.scratch, segs := s.myTile.segs } : CopyCmd)
    let enters := fun (rows : List CopyRow) (out : Out) => s.copyTrap s.me rows (s.me.rg a) = none →
      (s.myTile.copies.length < 16 → out = .next ((s.retire 4 { s.me with block := none }).mapTile s.here (fun tl =>
        { tl with copies := tl.copies ++ [cmd rows] }))) ∧
      (16 ≤ s.myTile.copies.length → out = .next s.forfeit)
    (s.Clear m [] [gd a, gd b, gd c, gd l] (mem := true) →
      let row : CopyRow := { dst := s.me.rg b, src := s.me.rg c, len := (s.me.rg l).toNat }
      (s.me.rg l = 0 → s.copyTrap s.me [row] (s.me.rg a) = none → exec (.cpy m a b c l) s = .next (s.retire 4 s.me)) ∧
      (∀ cause va, s.copyTrap s.me [row] (s.me.rg a) = some (cause, va) → exec (.cpy m a b c l) s = .next (s.trap cause va)) ∧
      (s.me.rg l ≠ 0 → enters [row] (exec (.cpy m a b c l) s))) ∧
    (s.Clear m [] [gd a, gd b] (mem := true) → ∀ ws, s.me.block = some ws →
      let w := fun (i : Nat) => ws.getD i 0
      let len := field (w 2) 0 32
      let n := field (w 2) 32 32
      (1 ≤ len ∧ len ≤ 2 ^ 24 ∧ 1 ≤ n ∧ n ≤ 65536 ∧ w 5 = 0 ∧ w 6 = 0 ∧ w 7 = 0 →
        enters ((List.range n).map (fun i => { dst := w 0 + BitVec.ofNat 64 i * w 3, src := w 1 + BitVec.ofNat 64 i * w 4, len := len }))
          (exec (.cpy2d m a b) s)) ∧
      (len = 0 ∨ 2 ^ 24 < len ∨ n = 0 ∨ 65536 < n ∨ w 5 ≠ 0 ∨ w 6 ≠ 0 ∨ w 7 ≠ 0 →
        exec (.cpy2d m a b) s = .next (s.trap Cause.segBounds (s.me.rg b))))

/-- 12 R268 to R270: the Bookend forms complete. SCMAIL to a running Bookend whose inbox of 8 has room puts the word there and answers 0.
SCWAIT takes the oldest word of an outbox that holds one, for its result. SCSTART whose header has been read and is lawful, whose image is all
the tile's own and present, and whose Bookend does not run or is forced, starts the Bookend at the header's entry with the image loaded and
answers 0. Turned away, SCMAIL answers 1 or 2, SCWAIT waits in QWAIT, and SCSTART answers 1 where the Bookend runs and is not forced, 2 for a bad
header, 3 for an image that is not all the tile's own, and traps PRIVILEGE where it is forced at user privilege. The order in which the results 1, 2
and 3 are tested is the model's choice (log 50: 12 R269 gives none). -/
def Obligations.BookendForms : Prop :=
  (∀ (s : State) (m : Bool) (d a b : BitVec 5), s.Clear m [gd d] [gd a, gd b] (long := true) (mem := true) → s.Released →
     let n := field (s.me.rg b) 0 1
     let k := s.myTile.bookend n
     (k.mode = 1 → k.inbox.length < 8 → exec (.scmail m d a b) s =
       .next ((s.retire 4 (s.me.pends true [gd d] [toG d 0])).mapTile s.here (fun tl =>
         tl.setBookend n { k with inbox := k.inbox ++ [s.me.rg a] }))) ∧
     (k.mode = 1 → 8 ≤ k.inbox.length → exec (.scmail m d a b) s = .next (s.retire 4 (s.me.pends true [gd d] [toG d 1]))) ∧
     (k.mode ≠ 1 → exec (.scmail m d a b) s = .next (s.retire 4 (s.me.pends true [gd d] [toG d 2])))) ∧
  (∀ (s : State) (m : Bool) (d b : BitVec 5), s.Clear m [gd d] [gd b] (long := true) (mem := true) → s.myCore.stalled = none →
     let n := field (s.me.rg b) 0 1
     let k := s.myTile.bookend n
     (∀ v rest, k.outbox = v :: rest → ∃ t, exec (.scwait m d b) s = .next t ∧ s.SameMemory t ∧
       t.me = s.me.took 4 [gd d] [toG d v] (acq := true) (pin := false) ∧
       (t.tile s.here).bookend n = (if v.getLsbD 63 then k else { k with outbox := rest })) ∧
     (k.outbox = [] → ∃ t, exec (.scwait m d b) s = .next t ∧ t.me.st = .qWait ∧ t.me.pc = s.me.pc ∧ s.SameMemory t ∧
       ∃ o, (t.tile s.here).scWaiters = s.myTile.scWaiters ++ [(n, o)])) ∧
  (∀ (s : State) (m : Bool) (d a b : BitVec 5) (ws : List Dword) (p : Nat → Nat),
     s.Clear m [gd d] [gd a, gd b] (long := true) (mem := true) → s.Released → s.me.block = some ws →
     let x := s.me.rg b
     let n := field x 0 1
     let k := s.myTile.bookend n
     let w := fun (i : Nat) => ws.getD i 0
     let code := field (w 0) 0 32
     let data := field (w 0) 32 32
     let entry := field (w 1) 0 32
     let lawful := code % 4 = 0 ∧ code ≤ 32768 ∧ data % 4 = 0 ∧ data ≤ 16384 ∧ entry % 2 = 0 ∧ entry < code ∧ ∀ i < 6, w (i + 2) = 0
     let free := k.mode ≠ 1 ∧ x.getLsbD 1 = false ∨ x.getLsbD 1 = true ∧ s.me.priv ≠ 0
     let done := fun (v : Dword) => s.retire 4 { s.me.pends true [gd d] [toG d v] with block := none, imaged := 0 }
     let image := fun (i : Nat) => s.byte (p (i / 64) + i % 64)
     (free → lawful → s.ownsRange s.me (s.me.rg a) (64 + code + data) = true →
       (∀ i < (code + data + 63) / 64, s.Hits { size := 64, align := 64, right := .rd } false 64 (s.me.rg a + 64 + BitVec.ofNat 64 (64 * i)) (p i) ∧
         s.isPoisoned (p i) 64 = false) →
       ∃ t, exec (.scstart m d a b) s = .next t ∧ s.SameMemory t ∧ t.me = (done 0).me ∧
         let y := (t.tile s.here).bookend n
         y.mode = 1 ∧ y.pc = BitVec.ofNat 32 entry ∧ y.x = [(10, BitVec.ofNat 32 (field (w 1) 32 32))] ∧ y.inbox = [] ∧ y.outbox = [] ∧
         (∀ i < code, y.imem.get 0 i = image i) ∧ ∀ i < data, y.dmem.get 0 i = image (code + i)) ∧
     (k.mode = 1 → x.getLsbD 1 = false → exec (.scstart m d a b) s = .next (done 1)) ∧
     (free → ¬ lawful → exec (.scstart m d a b) s = .next (done 2)) ∧
     (free → lawful → s.ownsRange s.me (s.me.rg a) (64 + code + data) = false → exec (.scstart m d a b) s = .next (done 3))) ∧
  (∀ (s : State) (m : Bool) (d a b : BitVec 5),
     (s.Clear m [gd d] [gd a, gd b] (long := true) (mem := true) → s.Released → s.me.block = none → (s.me.rg b).getLsbD 1 = false →
       (s.myTile.bookend (field (s.me.rg b) 0 1)).mode = 1 →
       (s.myTile.seg (vaSeg (s.me.rg a))).check s.me.scratch (vaOff (s.me.rg a)) 64 64 .rd = none →
       exec (.scstart m d a b) s = .next (s.retire 4 (s.me.pends true [gd d] [toG d 1]))) ∧
     (s.me.runs = true → (s.me.rg b).getLsbD 1 = true → s.me.priv = 0 →
       exec (.scstart m d a b) s = .next (s.trap Cause.privilege (Instr.word (.scstart m d a b)))))

/-- 12 R272, R276 to R278, 18 R384: the supervisor's forms. At user privilege they trap PRIVILEGE with their bits. WAKE sends its message,
and one to its own tile acts there at once; INVAL and SEGLD, once their command is read, are sent to the tiles they concern, SEGLD along the
tree, and hold the thread in MARKWAIT until each has acknowledged, and then go on. The model's choices here: WAKE at its own tile acts in its own
step, and of a WAKE that names no thread the tile is tested first (log 70); INVAL in a segment of kind 2 reaches the current tile alone (log 22); a
broadcast reaches the tiles where the partition is resident (log 46), and each node of the tree copies it in one step (log 27). -/
def Obligations.SupervisorForms : Prop :=
  ∀ (s : State) (m : Bool) (a b : BitVec 5),
    (s.me.priv = 0 → s.me.runs = true → ∀ i ∈ [Instr.wake m a b, .inval m b, .segld m b],
      exec i s = .next (s.trap Cause.privilege (Instr.word i))) ∧
    (s.me.priv ≠ 0 →
      (s.Clear m [] [gd a, gd b] (mem := true) →
        let dest := if a = 0 then s.here else field (s.me.rg a) 0 20
        let tid := (s.me.rg b).truncate 32
        let refuse := (s.me.rg b).getLsbD 32
        (tid = 0xFFFFFFFF → dest = s.here ∨ s.reachable dest = true → exec (.wake m a b) s = .next (s.retire 4 s.me)) ∧
        (tid ≠ 0xFFFFFFFF → dest = s.here → exec (.wake m a b) s = .next ((s.retire 4 s.me).wake s.here tid refuse)) ∧
        (tid ≠ 0xFFFFFFFF → dest ≠ s.here → s.reachable dest = false →
          exec (.wake m a b) s = .next (s.trap Cause.isolated (BitVec.ofNat 64 dest))) ∧
        (tid ≠ 0xFFFFFFFF → dest ≠ s.here → s.reachable dest = true → s.me.posted.length < 255 → ∃ t, exec (.wake m a b) s = .next t ∧
          s.Sent t clsSYS dest s.me.asid.toNat (.wake tid refuse (some (.thread s.here s.me.tid s.me.tags))) ∧
          t.me = { s.me with pc := s.me.pc + 4, tags := s.me.tags + 1
                             posted := s.me.posted ++ [{ tag := s.me.tags, owner := dest, acq := false }] })) ∧
      (s.Clear m [] [gd b] (mem := true) → ∀ ws, s.me.block = some ws →
        let w := fun (i : Nat) => ws.getD i 0
        let sends := fun (tiles : List Nat) (packets : List (Nat × Nat × Nat × Payload × Nat × Nat)) (out : Out) => ∃ t, out = .next t ∧
          s.SameMemory t ∧ t.me = { s.me with acks := tiles, sent := true, switching := false, ackNo := s.me.tags, tags := s.me.tags + 1
                                              st := .markWait, hold := .acks } ∧
          ∃ ps, t.net = s.net ++ ps ∧ ps.map (fun p => (p.cls, p.src, p.dst, p.body, p.len, p.tag)) = packets
        (s.me.sent = true → exec (.inval m b) s = .next (s.retire 4 { s.me with sent := false, block := none }) ∧
          exec (.segld m b) s = .next (s.retire 4 { s.me with sent := false, block := none })) ∧
        (s.me.sent = false →
          (w 0 &&& 0xFFFFFFFFFFFFE000 = 0 → w 3 = 0 →
            let g := s.myTile.seg (field (w 0) 8 3)
            (g.kind = 2 ∨ g.kind = 3 → w 2 ≠ 0 → sends [s.here] [(clsSYS, s.here, s.here, .inval (field (w 0) 0 8) (field (w 0) 8 3)
              (field (w 0) 11 2) (w 1).toNat ((w 1).toNat + (w 2).toNat) s.me.tid s.me.tags, 1, 0)] (exec (.inval m b) s)) ∧
            (w 2 = 0 → exec (.inval m b) s = .next (s.retire 4 { s.me with block := none }))) ∧
          (field (w 1) 32 8 = s.myTile.asid.toNat →
            let tiles := s.partition s.me.asid.toNat
            sends tiles ((tiles.map Config.nameM).eraseDups.map (fun md => (clsSYS, s.here,
              if md = Config.nameM s.here then s.here else s.treeRoot 4 (Config.tileName md 48 28), .segTable ws s.me.tid s.me.tags, 6, 4)))
              (exec (.segld m b) s)))))

/-! ## Messages at their tile -/

/-- 06 R129, 07 R146, 11 R233, R234, R239, R242: operations that come to the tile that owns their address, in tile memory and found
without a walk. A load is answered with its value and a store's bytes are written and acknowledged; a record or token joins its plain queue
or, where the ring is full, goes back to its sender's resend buffer; a record joins its Dresser's window and a note is counted. That a refused
record stands in the sender's buffer in the same step is the model's choice (log entry 39), as are the places of the bytes (log entry 35). A
response completes the access that waits for it, and an acknowledgement ends its operation's wait. -/
def Obligations.MessagesAtOwners : Prop :=
  ∀ (s : State) (n : Nat) (p : Packet), s.Delivers n p → (s.tile p.dst).stalls = [] → s.Sound →
    let net := s.net.eraseIdx n
    let t := p.dst
    let acks := fun (op : Op) (u : State) => u.Ends net clsPOST t op.origin.tile (.ack op.origin none)
    (∀ op f home tid tag a, p.body = .request op → op.kind = .load f → op.path = .remote → op.device = false →
      op.origin = .thread home tid tag → op.owner = t → s.Finds t op.asid op.seg op.map op.lo false a → s.isPoisoned a f.size = false →
      ∃ u, exec (.remoteRequest n) s = .next u ∧ s.SameMemory u ∧
        u.Ends net clsRSP t home (.response tid tag op.lane (.done [(f.extend (s.num a f.size)).zeroExtend 512]))) ∧
    (∀ op w v home tid tag a, p.body = .posted op → op.kind = .store w v → w ≤ 8 → op.path = .posted → op.device = false →
      op.origin = .thread home tid tag → op.owner = t → s.Finds t op.asid op.seg op.map op.lo true a → s.isPoisoned a w = false →
      ∃ u, exec (.postedOp n) s = .next u ∧ u.empties = s.empties ∧ u.poison = s.poison ∧ acks op u ∧
        ∀ x, u.byte x = if a ≤ x ∧ x < a + w then v.extractLsb' (8 * (x - a)) 8 else s.byte x) ∧
    (∀ op home tid tag q x, p.body = .posted op → op.path = .posted → op.origin = .thread home tid tag → op.owner = t →
      (∃ r, op.kind = .queue (.send r) ∧ x = .record r) ∨ (op.kind = .queue .eos ∧ x = .eos) →
      (s.tile t).plain (field op.va 0 11) = some q → q.waiters = [] →
      (q.ring.length < q.size → ∃ u, exec (.queueRecordAppend n) s = .next u ∧
        s.Wrote u (sramAt t ((s.tile t).plainBase (field op.va 0 11) + 32 * ((q.head + q.ring.length) % q.size))) x.words ∧ acks op u ∧
        (u.tile t).plain (field op.va 0 11) = some { q with ring := q.ring ++ [x] }) ∧
      (q.size ≤ q.ring.length → ∃ u, exec (.queueRecordAppend n) s = .next u ∧ s.SameMemory u ∧
        (s.residentCycles op.src + 256, op) ∈ (u.tile op.src).resend ∧
        (u.tile t).plain (field op.va 0 11) = some q)) ∧
    (∀ op home tid tag q r, p.body = .posted op → op.path = .posted → op.origin = .thread home tid tag → op.owner = t →
      op.kind = .queue (.dsend r) → (s.tile t).dqueue (field op.va 0 11) = some q →
      let e : DEntry := { key := r.w0, v1 := r.w1, v2 := r.w2, round := field r.w3 32 16
                          sum := (r.w3.truncate 32 : BitVec 32).toInt }
      (e.round + 65536 - q.base % 65536) % 65536 < 4 → q.finalBegun = none → (∀ x ∈ q.window, x.same e = false) → q.rel = none →
      q.window.length < 1024 → ∀ p, p < 1024 → (∀ x ∈ q.window, x.place ≠ p) → (∀ p' < p, ∃ x ∈ q.window, x.place = p') →
      ∃ u, exec (.dresserRecordApply n) s = .next u ∧ acks op u ∧
        s.Wrote u (sramAt t ((s.tile t).windowBase (field op.va 0 11) + 32 * p)) e.words ∧
        (u.tile t).dqueue (field op.va 0 11) = some { q with window := q.window ++ [{ e with place := p }] }) ∧
    (∀ op home tid tag q r fin, p.body = .posted op → op.path = .posted → op.origin = .thread home tid tag → op.owner = t →
      op.kind = .queue (.dseal r fin) → (s.tile t).dqueue (field op.va 0 11) = some q →
      (r + 65536 - q.base % 65536) % 65536 < 4 → q.finalBegun = none → q.rel = none → q.notes.get 0 r < q.producers →
      (q.notes.set r (q.notes.get 0 r + 1)).get 0 q.base ≠ q.producers →
      ∃ u, exec (.dresserNote n) s = .next u ∧ s.SameMemory u ∧ acks op u ∧
        (u.tile t).dqueue (field op.va 0 11) = some { q with
          notes := q.notes.set r (q.notes.get 0 r + 1), finals := if fin then addTo r q.finals else q.finals }) ∧
    (∀ tid tag lane c k w x r, p.body = .response tid tag lane (.done [x]) →
      let th := s.thread t c k
      (s.tile t).threads.find? (fun e => e.2.2.awaits tid tag) = some (c, k, th) → th.wait = some w → w.elems = false → w.direct = true → w.op.kind ≠ .quota → w.written = [.g r] → th.st ≠ .halted →
      ∃ u, exec (.remoteResponse n) s = .next u ∧ u.net = net ∧ s.SameMemory u ∧ (u.thread t c k).st = .ready ∧
        (u.thread t c k).wait = none ∧ (u.thread t c k).pc = th.pc + BitVec.ofNat 48 w.size ∧
        (u.thread t c k).g = (th.setG r (x.truncate 64)).g ∧ (u.thread t c k).tid = th.tid) ∧
    (∀ tid tag denied c k, p.body = .ack (.thread t tid tag) denied → c < 4 →
      let th := s.thread t c k
      th.tid = tid → th.st = .ready → (∃ x ∈ th.posted, x.tag = tag) →
      ∃ u, exec (.postedAck n) s = .next u ∧ u.net = net ∧ s.SameMemory u ∧
        u.thread t c k = { th with posted := th.posted.filter (fun x => x.tag != tag), denial := th.denial.or denied })

/-- 06 R133, R134, 07 R161, R165 to R167, 11 R233, R234, 17 R361, 18 R384: what waits goes on. A form that found no waiter record is
presented again after 256 cycles, while its budget lasts. When the wait budget of a thread has run out its record at its own tile goes and it traps FE_TIMEOUT, and one that waits for another
tile has its withdrawal sent, whose acknowledgement makes it trap; a barrier's wait does the same with BARRIER_TIMEOUT. An arrival at a
tree's node is kept until all have come, and then goes up; the release comes down and ends the episode. A refused record is sent again
once it is due, or is offered to a queue of its own tile and keeps its place while that refuses it, and a pass over a spill ring takes the records of its band (the places of their bytes: log 35). -/
def Obligations.WaitsGoOn : Prop :=
  ∀ (s : State) (t c k : Nat), s.unitsRun t = true →
    let th := s.thread t c k
    (∀ w, th.wait = some w → w.retry = true → w.withdrawn = false → th.st = w.op.kind.waitState → w.op.path = .remote →
      c < 4 → w.retryAt ≤ s.residentCycles t → s.budgetOut t th w = false →
      ∃ u, exec (.waiterRetry t c k) s = .next u ∧ u.thread t c k = { th with wait := some { w with retry := false } } ∧
        s.SameMemory u ∧ u.Ends s.net clsREQ t w.op.owner (.request w.op)) ∧
    (∀ w, th.wait = some w → w.answer = none → th.few ≠ 15 → c < 4 →
      (s.residentCycles t ≤ w.since + 2 ^ (10 + th.few.toNat) → exec (.feBudgetExpire t c k) s = .next s ∧
        exec (.barWaitTimeout t c k) s = .next s ∧ exec (.hbarTimeout t c k) s = .next s) ∧
      (w.since + 2 ^ (10 + th.few.toNat) < s.residentCycles t →
        let asks := fun (out : Out) => ∃ u, out = .next u ∧ u.thread t c k = { th with wait := some { w with withdrawn := true } } ∧
          s.SameMemory u ∧ u.Ends s.net clsREQ t w.op.owner (.withdraw w.op w.retry)
        (w.op.path = .remote → w.withdrawn = false →
          (th.st = .feWait → w.retry = false → asks (exec (.feBudgetExpire t c k) s)) ∧
          (∀ f x, th.st = .barWait → w.op.kind = .bar f x → asks (exec (.barWaitTimeout t c k) s))) ∧
        (th.pending = [] → th.priv ≠ 3 →
          (∀ f x pre r post, th.st = .feWait → w.op.kind = .fe f x → w.op.path = .here → w.op.owner = t → w.retry = false →
            (s.tile t).waiters = pre ++ r :: post → (∀ y ∈ pre, y.op.origin ≠ w.op.origin) → r.op.origin = w.op.origin →
            ∃ u, exec (.feBudgetExpire t c k) s = .next u ∧ s.Trapped u t c k Cause.feTimeout w.op.va ∧ s.SameMemory u ∧
              (u.tile t).waiters = pre ++ post) ∧
          (th.st = .barWait → w.op.kind = .hbar → ∃ u, exec (.hbarTimeout t c k) s = .next u ∧
            s.Trapped u t c k Cause.barrierTimeout 0 ∧ s.SameMemory u ∧ u.net = s.net)))) ∧
    (∀ n p tid tag w, s.takes n = some p → p.body = .withdrawAck tid tag → p.dst = t →
      (s.tile t).threads.find? (fun e => e.2.2.awaits tid tag) = some (c, k, th) → th.wait = some w → th.pending = [] → th.priv ≠ 3 → th.st ≠ .halted →
      ∃ u, exec (.feWithdrawAck n) s = .next u ∧ u.net = s.net.eraseIdx n ∧
        s.Trapped u t c k (match w.op.kind with | .bar _ _ => Cause.barrierTimeout | _ => Cause.feTimeout) w.op.va) ∧
    (∀ n p tag level op cmb v nd, s.collects n = some p → p.dst = t → p.body = .collUp tag level op cmb false v →
      (∀ e ∈ s.episodes, e.bad = false ∧ e.tag = tag) →
      let key := tag * 256 + p.asid
      (s.tile t).nodes.find? (fun e => e.1 == key) = some (key, nd) → nd.level = level → nd.op = op → nd.cmb = cmb → nd.bad = false →
      nd.sent = false →
      let nd' := { nd with got := nd.got ++ [(treePort t p.src, p.src, v)] }
      let all := ∀ x ∈ nd.expect, ∃ g ∈ nd'.got, g.1 = x
      (¬ all → ∃ u, exec (.hbarTreeArrive n) s = .next u ∧ u.net = s.net.eraseIdx n ∧
        (u.tile t).nodes.find? (fun e => e.1 == key) = some (key, nd')) ∧
      (all → ∀ r, s.treeParent tag t = some r → ∃ u, exec (.hbarTreeArrive n) s = .next u ∧
        (u.tile t).nodes.find? (fun e => e.1 == key) = some (key, { nd' with sent := true }) ∧
        u.Ends (s.net.eraseIdx n) clsCOLL t r (.collUp tag level op cmb false nd'.value))) ∧
    (∀ n p tag cmb v nd e a w r, s.collects n = some p → p.dst = t → p.body = .collDown tag cmb false v →
      let key := tag * 256 + p.asid
      (s.tile t).nodes.find? (fun e => e.1 == key) = some (key, nd) → nd.got = [(localPort, t, r)] →
      (s.tile t).resident p.asid = true → (s.tile t).hbar = some e → (s.tile t).hbarExtra = [] → e.level = tag + 1 → e.sent = true →
      e.arrivals = [a] → a.core = c → a.slot = k → a.gone = false → a.tid = th.tid → th.wait = some w → w.op.kind = .hbar → c < 4 →
      (∃ x y z, w.op.origin = .thread x y z) → w.direct = true → w.elems = false → th.st = .barWait → (∀ x, x ≠ t → (s.tile x).hbar = none) →
      ∃ u, exec (.hbarTreeRelease n) s = .next u ∧ u.net = s.net.eraseIdx n ∧ (u.tile t).hbar = none ∧
        (u.thread t c k).st = .ready ∧ (u.thread t c k).wait = none ∧ (u.thread t c k).pc = th.pc + BitVec.ofNat 48 w.size ∧
        ∀ d, w.dests = [.g d] → (u.thread t c k).g = (th.setG d v).g) ∧
    (∀ at_ op rest, (s.tile t).resend = (at_, op) :: rest → at_ ≤ s.residentCycles t →
      (op.owner ≠ t → ∃ u, exec (.resendRetry t) s = .next u ∧ (u.tile t).resend = rest ∧
        s.SameMemory u ∧ u.Ends s.net clsPOST t op.owner (.posted op)) ∧
      (∀ r q, op.owner = t → s.Sound → (∃ x y z, op.origin = .thread x y z) → op.kind = .queue (.send r) → (s.tile t).plain (field op.va 0 11) = some q → q.waiters = [] →
        (q.ring.length < q.size → ∃ u, exec (.resendRetry t) s = .next u ∧ (u.tile t).resend = rest ∧ u.net = s.net ∧
          s.Wrote u (sramAt t ((s.tile t).plainBase (field op.va 0 11) + 32 * ((q.head + q.ring.length) % q.size)))
            [r.w0, r.w1, r.w2, r.w3] ∧
          (u.tile t).plain (field op.va 0 11) = some { q with ring := q.ring ++ [.record r] }) ∧
        (q.size ≤ q.ring.length → (at_, op) ∉ rest → ∃ u, exec (.resendRetry t) s = .next u ∧
          (u.tile t).resend = (s.residentCycles t + 256, op) :: rest ∧ s.SameMemory u ∧ u.net = s.net))) ∧
    (∀ i q r e, (s.tile t).dqueue i = some q → q.rel = some r → r.passDue = true → s.readRing t i q = [.record e] →
      s.Sound → (s.readSpilled t i).2 = true → q.waiters = [] →
      e.round = r.round → e.inBand r.t r.b = true → e.poison = false → (∀ x ∈ q.window, x.same e = false ∧ x.poison = false) →
      q.window.length < 1024 → ∀ p, p < 1024 → (∀ x ∈ q.window, x.place ≠ p) → (∀ p' < p, ∃ x ∈ q.window, x.place = p') →
      ∃ u, exec (.bandPass t i) s = .next u ∧ u.net = s.net ∧
        s.Wrote u (sramAt t ((s.tile t).windowBase i + 32 * p)) e.words ∧
        (u.tile t).dqueue i = some { q with
          window := q.window ++ [{ e with place := p }], ring := [], rel := some { r with passDue := false, touched := 0 } })

/-! ## Threads between tiles and slots -/

/-- 06 R135, R137, 15 R319 to R323, R327, R328, 12 R276, 01 R42, 11 R229: the Hutch and its messages. A departure held for 2,048 cycles goes
as a seated thread's access. A context is admitted to the lowest free place, or refused; the one that is due begins to load into the lowest
free slot of the core with the most, and is READY once its record in memory has been read. The Hutch reads and writes lines of contexts as
the vault cache takes them. The moment of that reading (log entry 53), HOPS of every admitted context (log entry 44) and class POST of WAKE's
acknowledgement (log entry 33) are the model's choices. An idle tile asks its neighbour, which ships contexts or none; a long
wait is parked while a context waits for its slot; WAKE ends a sleep; a retire note frees its number, and the live-thread count goes up and down at the origin. -/
def Obligations.ThreadsMove : Prop :=
  ∀ (s : State) (t c k : Nat), s.unitsRun t = true →
    let th := s.thread t c k
    let tl := s.tile t
    let now := s.residentCycles t
    (∀ w since, th.st = .departing → th.wait = some w → th.departAt = some since → since + 2048 ≤ s.time →
      let back := { th with st := .ready, depart := none, departAt := none, wait := none }
      let op : Op := { w.op with origin := .thread t th.tid th.tags, src := t }
      (w.op.kind = .arrive → exec (.departureConvert t c k) s =
        .next ((s.count t 0x243).setThread t c k { back with pc := th.pc + BitVec.ofNat 48 w.size })) ∧
      (∀ n v, w.op.kind = .store n v → tl.resend.any (fun x => ({ op with path := .posted } : Op).follows x.2) = false → ∃ u, exec (.departureConvert t c k) s = .next u ∧ s.SameMemory u ∧
        u.Ends s.net clsPOST t w.op.owner (.posted { op with path := .posted }) ∧
        u.thread t c k = { back with pc := th.pc + BitVec.ofNat 48 w.size, tags := th.tags + 1
                                     posted := th.posted ++ [{
                                       tag := th.tags, owner := w.op.owner, acq := w.acq
                                       undo := some (th.pc, th.pincnt, th.issuedAt) }] }) ∧
      (w.op.kind.reads = true → ∃ u, exec (.departureConvert t c k) s = .next u ∧ s.SameMemory u ∧
        u.Ends s.net clsREQ t w.op.owner (.request { op with path := .remote }) ∧ (u.thread t c k).pc = th.pc ∧
        (u.thread t c k).st = w.op.kind.waitState)) ∧
    (∀ n p x how, s.takes n = some p → p.dst = t → p.body = .context x how →
      let y := { x with th := { x.th with hops := BitVec.ofNat 8 (min 255 p.hops) } }
      (∀ place, place < 4352 → place ∉ tl.places → (∀ j < place, j ∈ tl.places) →
        (s.touchLines t true (contextLines t place x.th)).2 = true → ∃ u, exec (.hutchAdmit n) s = .next u ∧
        u.net = s.net.eraseIdx n ∧ (u.tile t).hutch = tl.hutch ++ [{ how := how, ctx := y, place := place }]) ∧
      ((∀ j < 4352, j ∈ tl.places) → ∃ u, exec (.hutchAdmit n) s = .next u ∧ u.net = s.net ∧ s.SameMemory u ∧
        (u.tile t).hutch = tl.hutch)) ∧
    (∀ h rest, tl.hutch = [h] → h.ctx.scratchNeed = 0 → h.ctx.core = none → c < 4 → (tl.core c).loading = none →
      tl.freeSlots c = k :: rest →
      (∀ d < 4, d ≠ c → (tl.core d).loading ≠ none ∨ (tl.freeSlots d).length < (tl.freeSlots c).length) →
      s.Sound → ((s.taskFits t h).touchLines t false (contextLines t h.place h.ctx.th)).2 = true →
      ∃ u, exec (.hutchDispatch t) s = .next u ∧ s.SameMemory u ∧ u.net = s.net ∧ (u.tile t).hutch = [] ∧
        ((u.tile t).core c).loading = some (k, h)) ∧
    (∀ h x, (tl.core c).loading = some (k, h) → h.how ≠ .woken → s.readContext t h.place h.ctx.th = some x → x.priv ≠ 2 →
      x.wait = none → s.linesDue t h.place h.ctx.th = false → (tl.core c).stopped = false → (tl.core c).brkStopped = false → ∃ u, exec (.contextLoadDone t c k) s = .next u ∧ s.SameMemory u ∧ u.net = s.net ∧
        u.thread t c k = { x with st := .ready, mark := 0, walking := false, parity := [] } ∧ ((u.tile t).core c).loading = none) ∧
    (∀ n, tl.segValid = true → tl.asking = false → tl.hutch = [] → tl.askTurn = 0 → tl.idleSince + 1024 ≤ now →
      n = Config.tileName (Config.nameM t) (Config.nameX t + 1) (Config.nameY t) → s.inPartition tl.asid.toNat n = true →
      ∃ u, exec (.idleDonationRequest t) s = .next u ∧ s.SameMemory u ∧ u.Ends s.net clsSYS t n .donateAsk ∧
        (u.tile t).asking = true ∧ (u.tile t).askTurn = 1) ∧
    (∀ n p, s.takes n = some p → p.dst = t →
      (p.body = .donateAsk → tl.donation = [] → ∃ u, exec (.donationShip n) s = .next u ∧ s.SameMemory u ∧
        u.Ends (s.net.eraseIdx n) clsSYS t p.src .donateNone) ∧
      (∀ h, p.body = .donateAsk → tl.donation = [h] → ∃ u, exec (.donationShip n) s = .next u ∧ s.SameMemory u ∧
        u.Ends (s.net.eraseIdx n) clsMIG t p.src (.context h.ctx .spawned) ∧
        (u.tile t).hutch = tl.hutch.filter (fun x => x ≠ h)) ∧
      (p.body = .donateNone → ∃ u, exec (.donationShip n) s = .next u ∧ s.SameMemory u ∧ u.net = s.net.eraseIdx n ∧
        (u.tile t).asking = false ∧ (4 ≤ tl.askTurn → (u.tile t).askTurn = 0))) ∧
    (∀ e, th.parkable = true → tl.slotWanted = true → (tl.core c).drained th.mark = true → th.waitsSince + 4096 ≤ now →
      tl.freeParked = some e → (s.touchLines t true (contextLines t (wokenPlace e) th)).2 = true → ∃ u, exec (.parkMove t c k) s = .next u ∧ (u.thread t c k).st = .free ∧ u.net = s.net ∧
        (u.tile t).parkedArea = tl.parkedArea ++
          [(e, { th with st := .parked, haltedFrom := th.st, walking := false, mark := 0 })]) ∧
    (∀ n p tid refuse from_, s.takes n = some p → s.comesAfter p = false → p.dst = t → p.body = .wake tid refuse (some from_) → th.tid = tid →
      th.st = .sleeping → th.waitt = false → tl.faultBuf = [] →
      (∀ x ∈ tl.allThreads, x.tid = tid → x.st ≠ .parked ∧ x.doing ≠ .parkedFault) →
      ∃ u, exec (.wakeMessage n) s = .next u ∧ s.SameMemory u ∧ u.thread t c k = { th with st := .ready } ∧
        u.Ends (s.net.eraseIdx n) clsPOST t from_.tile (.ack from_ none)) ∧
    (∀ n p, s.takes n = some p → p.dst = t →
      (∀ q, p.body = .retire q → ∃ u, exec (.retireNote n) s = .next u ∧ s.SameMemory u ∧ u.net = s.net.eraseIdx n ∧
        ∀ x, x ∈ (u.tile t).live ↔ x ∈ tl.live ∧ x ≠ q) ∧
      (s.Sound → let count := s.dword (sramAt t 0x1730200)
       (∀ op home tid tag, p.body = .quotaAdd op → op.path = .remote → op.origin = .thread home tid tag → op.owner = t →
        (tl.quota = 0 ∨ count.toNat < tl.quota.toNat → ∃ u, exec (.quotaIncrement n) s = .next u ∧
          u.dword (sramAt t 0x1730200) = count + 1 ∧
          u.Ends (s.net.eraseIdx n) clsRSP t home (.response tid tag op.lane (.done []))) ∧
        (tl.quota ≠ 0 → tl.quota.toNat ≤ count.toNat → ∃ u, exec (.quotaIncrement n) s = .next u ∧ s.SameMemory u ∧
          u.Ends (s.net.eraseIdx n) clsRSP t home (.response tid tag op.lane
            (.trap Cause.spawnResource (BitVec.ofNat 64 (2 ^ 56 + tl.quota.toNat)))))) ∧
       (p.body = .quotaSub → ∃ u, exec (.quotaDecrement n) s = .next u ∧ u.net = s.net.eraseIdx n ∧
        u.dword (sramAt t 0x1730200) = count - 1)))

/-! ## The Trestle and the copy engine at work -/

/-- 10 R210 to R214: the Trestle. The next accepted command runs, a ZERO or a LOAD, all of whose lines have owners, clearing OVF and FAULT; a step whose lines have arrived
is performed; a command whose steps are over and whose writes are acknowledged completes and counts; lines are read at their owner, alone or
combined in a window of 256 cycles, and arrive; after 65,536 cycles the lease of a holder passes to the FIFO's head, the holder going to its
tail. That OVF and FAULT clear as the command starts, that a ZERO takes one step and that an address is asked for once (log entry 48), and that
all joiners of a window are answered by its one read (log entry 52), are the model's choices. -/
def Obligations.TrestleWorks : Prop :=
  ∀ (s : State) (t : Nat), s.unitsRun t = true →
    let tl := s.tile t
    let ts := tl.trestle
    let runs := fun (u : State) => (u.tile t).trestle.running
    (∀ b rest, ts.running = none → ts.queue = b :: rest → ∃ u r, exec (.trestleCommandStart t) s = .next u ∧ s.SameMemory u ∧
      (u.tile t).trestle.queue = rest ∧ runs u = some r ∧ r.blk = b ∧ r.step = 0 ∧
      (b.kind = 1 → ((u.tile t).acc b.slot).ovf = false ∧ ((u.tile t).acc b.slot).fault = 0) ∧
      (b.kind = 2 → (∀ i < b.steps, ∀ x ∈ (b.stepLines i).flatMap b.pieces, s.reachable (b.lineReq t x.1 x.2 none).owner = true) →
        ((u.tile t).acc b.slot).ovf = false ∧ ((u.tile t).acc b.slot).fault = 0)) ∧
    (∀ r, ts.running = some r →
      let b := r.blk
      let acc := tl.acc b.slot
      let due := (b.stepLines r.step).flatMap b.pieces
      (r.stopped = false → r.step < b.steps → (∀ p ∈ due, ∃ e ∈ r.got, e.1 = p.1) → r.toSend = [] → b.steps ≤ r.ahead →
        let makes := fun (a : Acc) => ∃ u, exec (.trestleStep t) s = .next u ∧ s.SameMemory u ∧ u.net = s.net ∧
          (u.tile t).acc b.slot = a ∧ runs u = some { r with step := r.step + 1 }
        (b.kind = 0 → makes (mmaStep b r.step r.got acc)) ∧ (b.kind = 1 → makes { acc with data := [] }) ∧
        (b.kind = 2 → makes (b.loadRow r.got r.step acc)) ∧
        (b.kind = 3 → (∀ w ∈ b.storeRow acc r.step, s.reachable (b.lineReq t w.1 w.2.1 (some w.2.2)).owner = true) →
          ∃ u ps, exec (.trestleStep t) s = .next u ∧ s.SameMemory u ∧ u.net = s.net ++ ps ∧
            ps.map (·.body) = (b.storeRow acc r.step).map (fun w => .lineRead (b.lineReq t w.1 w.2.1 (some w.2.2))) ∧
            runs u = some { r with step := r.step + 1, unacked := r.unacked + ps.length })) ∧
      (r.stopped = true ∨ b.steps ≤ r.step → r.unacked = 0 → ∃ u, exec (.trestleCommandComplete t) s = .next u ∧ s.SameMemory u ∧
        u.net = s.net ∧ (u.tile t).trestle = { ts with running := none, completed := b.seq }) ∧
      (∀ n p x, s.takes n = some p → p.dst = t → b.seq = x.seq →
        (∀ v, p.body = .line x v 0 → r.stopped = false → r.toSend = [] → b.steps ≤ r.ahead →
          ∃ u, exec (.operandLineArrive n) s = .next u ∧ s.SameMemory u ∧ u.net = s.net.eraseIdx n ∧
            runs u = some { r with awaited := r.awaited.erase x.va, got := r.got ++ [(x.va, x.len, v)] }) ∧
        (p.body = .lineAck x 0 → ∃ u, exec (.operandLineArrive n) s = .next u ∧ s.SameMemory u ∧ u.net = s.net.eraseIdx n ∧
          runs u = some { r with unacked := r.unacked - 1 }))) ∧
    (∀ n p x a, s.Delivers n p → p.dst = t → p.body = .lineRead x → x.data = none →
      (x.mcast = false → x.lo % 64 + x.len ≤ 64 → s.Finds t x.asid x.seg x.map x.lo false a → s.isPoisoned a x.len = false →
        ∃ u, exec (.operandLineRequest n) s = .next u ∧ s.SameMemory u ∧
          u.Ends (s.net.eraseIdx n) clsOPND t x.tile (.line x (BitVec.ofNat 512 (s.num a x.len)) 0)) ∧
      (x.mcast = true → tl.windows = [] → ∃ u, exec (.operandLineRequest n) s = .next u ∧ s.SameMemory u ∧
        u.net = s.net.eraseIdx n ∧
        (u.tile t).windows = [{ lo := x.lo, seg := x.seg, asid := x.asid, opened := s.time, joiners := [x] }])) ∧
    (∀ w x more a, tl.windows = [w] → w.joiners = x :: more → x.data = none → x.lo % 64 + x.len ≤ 64 → s.Finds t x.asid x.seg x.map x.lo false a →
      s.isPoisoned a x.len = false → w.opened + 256 ≤ s.time → ∃ u q, exec (.mcastWindowExpire t 0) s = .next u ∧ s.SameMemory u ∧
        (u.tile t).windows = [] ∧ u.net = s.net ++ [q] ∧
        (more = [] → q.Is clsOPND t x.tile (.line x (BitVec.ofNat 512 (s.num a x.len)) 0)) ∧
        (more ≠ [] → q.mcast = true ∧ q.plane = 1 ∧
          q.Is clsOPND t x.tile (.mline w.joiners (BitVec.ofNat 512 (s.num a x.len)) 0))) ∧
    (∀ h, ts.holder = some h → (∀ e ∈ tl.threads, e.2.2.tid = h → e.2.2.issuing = false) →
      let now := s.residentCycles t
      ts.grantAt + 65536 ≤ now →
      (ts.fifo = [] → ∃ u, exec (.leaseExpireTime t) s = .next u ∧ s.SameMemory u ∧
        (u.tile t).trestle = { ts with commands := 0, grantAt := now }) ∧
      (∀ n l rest, ts.fifo = (n, l) :: rest → ∃ u, exec (.leaseExpireTime t) s = .next u ∧ s.SameMemory u ∧
        (u.tile t).trestle = { ts with holder := some n, fifo := rest ++ [(h, true)], commands := 0, grantAt := now }))

/-- 12 R252, R256 to R258: the copy engine. The oldest command's next piece, at most 64 bytes and within one line of its destination, is
asked of its source; the source's bytes go to the destination, which takes them and has them counted into the arrival word. -/
def Obligations.CopyEngineWorks : Prop :=
  ∀ (s : State) (t : Nat), s.unitsRun t = true →
    let tl := s.tile t
    (∀ cmd rest r, tl.copies = cmd :: rest → cmd.rows = [r] → s.reachable t = true → 0 < r.len →
      ((cmd.segs.get {} (vaSeg r.dst)).kind = 3 ∧ (cmd.segs.get {} (vaSeg r.src)).kind = 3) →
      ∃ u x, exec (.copyPieceIssue t) s = .next u ∧ s.SameMemory u ∧ u.Ends s.net clsBULK t t (.copyRead x) ∧
        x.len = min r.len (64 - r.dst.toNat % 64) ∧ x.srcLo = vaOff r.src ∧ x.dstLo = vaOff r.dst ∧ x.origin.tid = cmd.tid ∧
        (u.tile t).copies = (if r.len ≤ x.len then rest else
          { cmd with rows := [{ dst := r.dst + BitVec.ofNat 64 x.len, src := r.src + BitVec.ofNat 64 x.len, len := r.len - x.len }] } ::
            rest)) ∧
    (∀ n p x a seg va own lo, s.Delivers n p → p.dst = t → x.aw = some (seg, va, own, lo) →
      (let left := x.len - x.data.length
       p.body = .copyRead x → x.srcLo % 64 + left ≤ 64 → s.Finds t x.asid x.srcSeg x.srcMap x.srcLo false a → x.dstOwner ≠ Config.noTile →
        s.reachable x.dstOwner = true → x.parts = [] → (∀ i < left, s.isPoisoned (a + i) 1 = false) →
        ∃ u, exec (.copyRead n) s = .next u ∧ s.SameMemory u ∧ u.Ends (s.net.eraseIdx n) clsBULK t x.dstOwner
          (.copyData { x with data := x.data ++ (List.range left).map (fun i => s.byte (a + i)) })) ∧
      (p.body = .copyData x → x.dstLo % 64 + x.len ≤ 64 → x.data.length = x.len → s.Finds t x.asid x.dstSeg x.dstMap x.dstLo true a →
        s.isPoisoned a x.len = false → x.poison = [] → x.replica = [] → x.bkPut = false → s.reachable own = true →
        ∃ u, exec (.copyWrite n) s = .next u ∧ u.empties = s.empties ∧
          (∀ q, u.byte q = if a ≤ q ∧ q < a + x.len then x.data.getD (q - a) 0 else s.byte q) ∧
          u.Ends (s.net.eraseIdx n) clsBULK t own (.copyCount x)) ∧
      (p.body = .copyCount x → lo % 64 + 16 ≤ 64 → s.Finds t x.asid seg x.awMap lo true a → s.isPoisoned a 16 = false →
        tl.waitersAt a = [] →
        let r := arriveWords (s.dword a) (s.dword (a + 8)) x.len (x.faulted != 0)
        ∃ u, exec (.arrivalCount n) s = .next u ∧ u.mem = ((s.setDword a r.1).setDword (a + 8) r.2.1).mem ∧
          u.net = s.net.eraseIdx n))

/-! ## Translation, system messages and the vault cache -/

/-- 16 R335, R336, R339, R341, R347, 12 R277, R278, 18 R378: pages and system messages. A walk that finds its page sets A, and D for a
write, enters the translation and lets its use go on; one that faults parks the thread and owes a record of kind 1. A record is written
where the queue has room, and the doorbell filled. An invalidation drops its entries, drains and is acknowledged; a segment table and a
class-table entry are taken and acknowledged; the last acknowledgement lets the issuing thread go on; a class switch is taken at its
time. That a walk reads tables in tile memory in the step in which it ends and an invalidation waits only for what used a dropped frame (log
entry 22), class 0 and TID of the record for a thread's own access (log entry 24), the address that it names (log entry 63), and the two rounds
of a class switch (log entry 21) are the model's choices. -/
def Obligations.TranslationAndSystemEvents : Prop :=
  ∀ (s : State) (t c k : Nat), s.unitsRun t = true →
    let tl := s.tile t
    let th := s.thread t c k
    (∀ n w, tl.walks[n]? = some w → s.Sound → tl.stalls = [] → (∀ a ∈ s.walkNodes t w.seg w.psize w.lo, devVault a = false) →
      (∀ a leaf, w.uses = [.fetch c k] → s.walk t w.seg w.vault w.psize w.lo w.write = .present a leaf →
        ∃ u e, exec (.pageWalkComplete t n) s = .next u ∧ u.net = s.net ∧ (u.tile t).walks = tl.walks.eraseIdx n ∧
          u.mem = (s.setDword a (leaf ||| 8 ||| (if w.write then 16 else 0))).mem ∧ u.thread t c k = { th with walking := false } ∧
          (u.tile t).lookup w.asid w.seg w.psize w.lo w.write = some e ∧
          e.addr t w.lo = devAddr t (if pteVault leaf then 1 else 0) (pteFrame leaf + w.lo % 2 ^ pageBits w.psize)) ∧
      (∀ r x, w.uses = [.own c k] → th.st ≠ .halted → th.wait = some x → x.next.lo = w.lo → x.next.va = w.va →
        s.walk t w.seg w.vault w.psize w.lo w.write = .fault r → ∃ u, exec (.pageWalkComplete t n) s = .next u ∧ s.SameMemory u ∧
          u.net = s.net ∧
          u.thread t c k = { th with st := .parkedFault, walking := false, faultAt := s.residentCycles t, faultVa := w.va } ∧
          (u.tile t).faultRecs = tl.faultRecs ++ [{ tid := th.tid, asid := th.asid.toNat, seg := w.seg, kind := 1, reason := r
                                                    lo := w.lo, va := w.va, src := t, cls := 0 }])) ∧
    (∀ r rest n, tl.faultRecs = r :: rest → s.faultQueue t = some n → s.Sound →
      let at_ := fun (i : Nat) => sramAt t (tl.faultq.toNat + 8 * i)
      let put := (s.dword (at_ 1)).toNat
      (n ≤ (s.dword (at_ 1) - s.dword (at_ 2)).toNat → exec (.faultRecordWrite t) s = .next s) ∧
      ((s.dword (at_ 1) - s.dword (at_ 2)).toNat < n → tl.waiters = [] → (s.dword (at_ 0)).getLsbD 32 = false →
        ∃ u, exec (.faultRecordWrite t) s = .next u ∧ u.net = s.net ∧ (u.tile t).faultRecs = rest ∧
          (∀ i < 4, u.dword (at_ (8 + 4 * (put % n) + i)) = (r.words put).getD i 0) ∧
          u.dword (at_ 1) = BitVec.ofNat 64 (put + 1) ∧ u.dword (at_ 3) = BitVec.ofNat 64 (put + 1) ∧ u.isEmpty (at_ 3) = false)) ∧
    (∀ n p, s.takes n = some p → p.dst = t →
      let acks := fun (tid : BitVec 32) (no : Nat) (u : State) => u.Ends (s.net.eraseIdx n) clsSYS t p.src (.sysAck tid no)
      (∀ asid seg hint lo hi tid no, p.body = .inval asid seg hint lo hi tid no → tl.vc.misses = [] → (∀ e ∈ tl.cores, e.2.sb = []) →
        ∃ u, exec (.invalCommand n) s = .next u ∧ s.SameMemory u ∧ acks tid no u ∧
          (u.tile t).tlb = tl.tlb.filter (fun e => !e.dropped asid seg hint lo hi)) ∧
      (∀ tid no, p.body = .sysAck tid no → th.ackNo = no → c < 4 → th.tid = tid → th.st = .markWait → th.hold = .acks → th.sent = true → th.acks = [p.src] →
        ∃ u, exec (.sysBroadcastAck n) s = .next u ∧ s.SameMemory u ∧ u.net = s.net.eraseIdx n ∧
          u.thread t c k = { th with acks := [], st := .ready, hold := .results }) ∧
      (∀ ws tid no, p.body = .segTable ws tid no → ∃ u, exec (.segldTable n) s = .next u ∧ s.SameMemory u ∧ acks tid no u ∧
        u.tile t = tl.loadTable ws (fun x => s.inPartition p.asid x)) ∧
      (∀ i v tid no, p.body = .classWrite i v tid no false → ∃ u, exec (.rtClassUpdate n) s = .next u ∧ s.SameMemory u ∧ acks tid no u ∧
        u.tile t = { tl with classes := tl.classes.set i v }) ∧
      (∀ i v tid no, p.body = .classWrite i v tid no true → tid ∉ tl.postStopped → ∃ u, exec (.rtClassUpdate n) s = .next u ∧
        s.SameMemory u ∧ u.tile t = { tl with postStopped := tl.postStopped ++ [tid] } ∧ (s.holdsPost t p.asid = true → u.net = s.net) ∧
        (s.holdsPost t p.asid = false → acks tid no u)) ∧
      (∀ v at_ tid, p.body = .classTime v at_ tid → ∃ u, exec (.rtClassUpdate n) s = .next u ∧ s.SameMemory u ∧
        u.net = s.net.eraseIdx n ∧ u.tile t = { tl with classSwitch := tl.classSwitch ++ [(v, at_, tid)] })) ∧
    (∀ v at_ tid, tl.classSwitch = [(v, at_, tid)] →
      (s.time < at_ → exec (.classSwitchTake t) s = .next s) ∧
      (at_ ≤ s.time → ∃ u, exec (.classSwitchTake t) s = .next u ∧ s.SameMemory u ∧ (u.tile t).classes = tl.classes.set 3 v ∧
        (u.tile t).classSwitch = [] ∧ (u.tile t).postStopped = tl.postStopped.erase tid ∧
        (c < 4 → th.tid = tid → th.st = .markWait → th.hold = .acks → th.sent = true → th.acks = [Config.noTile] →
          u.thread t c k = { th with acks := [], st := .ready, hold := .results })))

/-- 14 R298 to R300, R303 to R305: the vault cache and the scrubber. A fill enters its line and lets what waited for it go; more than four
errors poison one of its sectors but for words written meanwhile, unless it comes from a write-back entry (which errors come: log 14); a write-back entry is freed; a stream fetches the next line it lacks; a scrubbed line is clean, corrected and
counted by its bank, which fails at the sixteenth, or lost and poisoned. -/
def Obligations.VaultCacheAndScrubber : Prop :=
  ∀ (s : State) (t n : Nat),
    let tl := s.tile t
    let vc := tl.vc
    (∀ m errs, vc.misses[n]? = some m → m.waitWb = false → vc.line? m.line = none → tl.threads = [] → m.lost = 0 →
      s.powered (Config.nameM t) = true → (∀ x ∈ vc.misses, ∀ g ∈ x.out, g.more = [] ∧ g.bad = false) →
      ∃ u, exec (.vaultFillReturn t n errs) s = .next u ∧ (u.tile t).vc.misses = vc.misses.eraseIdx n ∧ u.mem = s.mem ∧
        (u.tile t).vc.line? m.line =
          some { line := m.line, valid := m.sectors ||| m.dirty, dirty := m.dirty, mark := m.prefetch && !m.late && !m.spent, way := m.way } ∧
        (errs ≤ 4 ∨ m.fromWb = true → u.net = s.net ++ m.out.map (·.p) ∧ u.poison = s.poison) ∧
        (4 < errs → m.fromWb = false → m.sectors ≠ 0 →
          (∀ a ∈ vaultWords t m.line (lineWords (badSector m.sectors errs) &&& ~~~ m.written), a ∈ u.poison) ∧
          (u.tile t).ct.get 0 0x20C = tl.ct.get 0 0x20C + 1)) ∧
    (n < vc.writeback.length → s.powered (Config.nameM t) = true → (∀ m ∈ vc.misses, m.waitWb = false) → ∃ u, exec (.writebackEntryFree t n) s = .next u ∧
      s.SameMemory u ∧ u.net = s.net ∧ (u.tile t).vc = { vc with writeback := vc.writeback.eraseIdx n }) ∧
    (∀ x w l, vc.streams[n]? = some x → s.powered (Config.nameM t) = true → 3 ≤ x.count → vc.misses.length ≤ 56 → (x.last : Int) + x.stride = (l : Nat) →
      l / 64 = x.last / 64 → vc.line? l = none → vc.miss? l = none → vc.victim l = some w → vc.holder l w = none →
      ∃ u, exec (.prefetchIssue t n) s = .next u ∧ s.SameMemory u ∧ u.net = s.net ∧
        (u.tile t).vc = { vc with misses := vc.misses ++ [{ line := l, waitWb := false, prefetch := true, fromWb := vc.writeback.contains l, way := w }] }) ∧
    (n < 393216 → tl.scrubPos = n → tl.errs = [] → s.powered (Config.nameM t) = true → (s.module (Config.nameM t)).retiring = [] →
      let seen := fun (x : ColumnRead) => [x, .clean, .clean, .clean]
      (∃ u, exec (.scrubRead t n (seen .clean)) s = .next u ∧ s.SameMemory u ∧ u.net = s.net ∧
        (u.tile t).failedBank = tl.failedBank ∧ (0 < n → u.tile t = { tl with scrubPos := (n + 1) % 393216 })) ∧
      (∀ b, tl.failedBank = 0 → 0 < n → (s.module (Config.nameM t)).log.length < 8192 → ∃ u, exec (.scrubRead t n (seen (.names b))) s = .next u ∧ s.SameMemory u ∧ u.net = s.net ∧
        (u.tile t).corrections = tl.corrections.set b (tl.corrections.get 0 b + 1) ∧
        (u.tile t).ct.get 0 0x209 = tl.ct.get 0 0x209 + 1 ∧
        (u.tile t).failedBank = if tl.corrections.get 0 b = 15 then b + 1 else 0) ∧
      (∃ u, exec (.scrubRead t n (seen .undecodable)) s = .next u ∧ u.mem = s.mem ∧ u.empties = s.empties ∧ u.net = s.net ∧
        u.isPoisoned (sramAt t (64 * n)) 64 = true ∧ ∀ i < 8, u.isPoisoned (sramAt t (64 * n + 8 * i)) 8 = true))

/-! ## The fabric -/

/-- 18 R373, R381, R386 to R390, R392, R394, 16 R351: the fabric. With room there a packet moves one router toward its destination's
column first: a promoted packet before all others of lower age, with the arbiter's PTR and CREDIT left as the idle cycles left them, and a packet alone at
its router at the cost of its flits from the CREDIT of its class, which the arbiter raised by WEIGHT; at 256 cycles packets age and at
65,536 the candidates move along the drain circuit; a failed link or router is dead; name tables change at their time; a reset tile stops
its ejection port, which reopens; a message for a saved address space is spilled, and one with no region goes back. (The arbiter's
numbering of its inputs, the drain circuit, the re-offer and what a reset tile keeps are the model's choices: log entries 28, 10, 29 and 60.) -/
def Obligations.FabricEvents : Prop :=
  ∀ (s : State),
    (∀ n p tx ty, s.net[n]? = some p → s.powered p.md = true → s.heads p = true → (∀ md, (s.module md).halted = false) →
      (∀ t, (s.tile t).gang = .running) → s.mayInject p = true → s.draining p.md = false → s.stamp p = p → p.mcast = false → p.aim = none →
      (∀ xs v cause, p.body ≠ .mline xs v cause) → p.mode = 0 → p.cls < 8 → Config.nameM p.dst = p.md →
      s.site p.dst = some (tx, ty) → p.col < tx → p.col < 95 → p.row < 63 → p.plane < 2 →
      let here := routerNo p.col p.row p.plane
      let next := routerNo (p.col + 1) p.row p.plane
      let ch := streamChannel (s.channelSet p) p
      let w : Way := { dir := dirE, vc := p.vc, chan := ch }
      let away := fun (x : Packet) =>
        let q := s.stamp x
        q.md ≠ p.md ∨ routerNo q.col q.row q.plane ≠ here
      let hops := fun (u : State) => ∃ q, s.SameMemory u ∧ u.net = s.net.set n q ∧
        q.col = p.col + 1 ∧ q.row = p.row ∧ q.plane = p.plane ∧ q.md = p.md ∧ q.port = dirW ∧ q.chan = ch ∧ q.vc = p.vc ∧
        q.Is p.cls p.src p.dst p.body
      (s.module p.md).linkTo here dirE = some next → p.len ≤ s.freeSlots p.md next dirW ch p.cls p.vc →
      (p.age = 16 → (∀ m q, s.net[m]? = some q → m ≠ n → away q ∨ q.age < 16) →
        (s.arbiter p w).next ≤ s.time → let a := (s.arbiter p w).idle s.time
        ∃ u, exec (.routerHop n) s = .next u ∧ hops u ∧ (u.arbiter p w).ptr = a.ptr ∧ (u.arbiter p w).credit = a.credit ∧
          (u.arbiter p w).next = s.time + p.len) ∧
      (p.age < 16 → (∀ m q, s.net[m]? = some q → m ≠ n → away q) → s.arbiter p w = { next := s.time } →
        let left : Int := s.weightAt p p.cls - p.len
        ∃ u, exec (.routerHop n) s = .next u ∧ hops u ∧ (u.arbiter p w).credit.get 0 p.cls = left ∧
          (u.arbiter p w).ptr = if left ≤ 0 then (p.cls + 1) % 8 else p.cls)) ∧
    (∀ md, s.powered md = true →
      (s.time % 256 = 0 → (s.module md).agedAt ≠ s.time → ∃ u, exec (.ageTick md) s = .next u ∧ s.SameMemory u ∧
        u.net = s.net.map (fun p => if p.md = md ∧ p.uninjected = false then { p with age := min 16 (p.age + 1) } else p)) ∧
      (s.time % 65536 = 0 → (s.module md).booted = true → (s.module md).drainedAt ≠ s.time → ∃ u, exec (.periodicDrain md) s = .next u ∧ s.SameMemory u ∧
        u.net.length = s.net.length ∧ ∀ i p, s.net[i]? = some p →
          (p.md = md → s.candidate i p = true → ∀ q, s.drained p = some q → u.net[i]? = some q) ∧
          (p.md ≠ md ∨ s.candidate i p = false ∨ s.drained p = none → u.net[i]? = some p)) ∧
      (∀ at_ exc, (s.module md).nameSwitch = some (at_, exc) → (s.module md).repairAt = none →
        (s.time < at_ → exec (.nameTableSwitch md) s = .next s) ∧
        (at_ ≤ s.time → ∃ u, exec (.nameTableSwitch md) s = .next u ∧ s.SameMemory u ∧ u.tiles = s.tiles ∧
          (u.module md).exc = exc ∧ (u.module md).nameSwitch = none))) ∧
    (∀ md site port md' r, s.linkTo md site port = some (md', r) → ∃ u, exec (.linkFailure md site port) s = .next u ∧
      (site, port) ∈ (u.module md).deadLinks ∧ (r, farPort port) ∈ (u.module md').deadLinks ∧ u.linkTo md site port = none) ∧
    (∀ md site plane, plane < 2 → 2 * site + plane < routerCount → (s.module md).routerUp (2 * site + plane) = true →
      ∃ u, exec (.routerFailure md site plane) s = .next u ∧ (u.module md).routerUp (2 * site + plane) = false) ∧
    (∀ t, let tl := s.tile t
      (s.reachable t = true → s.powered (Config.nameM t) = true → ∃ u, exec (.tileReset t) s = .next u ∧ s.SameMemory u ∧
        u.net.length = s.net.length ∧ (u.tile t).ejectClosed = true ∧ (u.tile t).cores = [] ∧ (u.tile t).name = tl.name ∧
        (u.tile t).segs = tl.segs ∧ (u.tile t).asid = tl.asid) ∧
      (∃ u, exec (.ejectionPortReopen t) s = .next u ∧ u.tile t = { tl with ejectClosed := false } ∧ s.SameBeyond u)) ∧
    (∀ n p, s.arrived n = some p → (s.tile p.dst).resident p.asid = false → p.body.ofHost = false → s.powered p.md = true →
      s.comesAfter p = false → p.cls = clsPOST ∨ p.cls = clsBULK ∨ p.cls = clsREQ ∨ p.cls = clsOPND ∨ p.cls = clsSYS →
      let held := flitsOf ((s.tile p.dst).nrspill.filter (fun q => q.asid == p.asid))
      (s.hasRegion p.dst p.asid = true → held + p.len ≤ spillFlits → ∃ u, exec (.nonresidentSpill n) s = .next u ∧ s.SameMemory u ∧
        u.net = s.net.eraseIdx n ∧ (u.tile p.dst).nrspill = (s.tile p.dst).nrspill ++ [p]) ∧
      (s.hasRegion p.dst p.asid = false ∨ spillFlits < held + p.len →
        exec (.nonresidentSpill n) s = .next { s with net := s.net.set n { p with port := 5, order := 0 } }))

/-! ## Partitions and launches -/

/-- 16 R348 to R350, R352, 07 R145: the gang switch. GANG_STOP of a running tile whose time has come stops it, its threads as at a stop, an
access that the injection port has not accepted unissued; GANG_SAVE of a stopped tile saves it once all its partition's tiles are parked, the
last of them giving the launch its resume time, 8,192 cycles ahead; GANG_RESUME brings every saved tile of a partition back at that time, as it
was, to run on from the residency cycles it had: its cores at once where no fall-out is to leave and no spilled message to be delivered first.
Before its time each does nothing. A resume at exactly 8,192 cycles (the rule says at least; log entry 20), what a save takes of memory (log entry
56), and the saved state as data beside memory (log entries 35 and 56) are the model's choices. -/
def Obligations.GangSwitchEvents : Prop :=
  (∀ (s : State) (t : Nat), (s.tile t).segValid = true → (s.tile t).gang = .running → s.unitsRun t = true →
    (s.module (Config.nameM t)).halted = false →
    let tl := s.tile t
    (s.time < tl.gangstop.toNat → exec (.gangStop t) s = .next s) ∧
    (tl.gangstop.toNat ≤ s.time → ∃ u, exec (.gangStop t) s = .next u ∧ (u.tile t).gang = .stopped ∧ (u.tile t).walks = [] ∧
      (u.tile t).residentCount = s.residentCycles t ∧
      ((∀ e ∈ tl.threads, e.2.2.quotaTaken = false) → s.SameMemory u ∧
        (tl.walks = [] → ∀ c k, (s.thread t c k).st ≠ .free →
          let th := s.thread t c k
          u.thread t c k = (if (th.unissued (s.unaccepted t)).isEmpty then th else th.unissue (th.unissued (s.unaccepted t))).atStop)))) ∧
  (∀ (s : State) (t : Nat), (s.tile t).segValid = true → (s.tile t).gang = .stopped → s.allParked (s.tile t).asid.toNat = true →
    (∀ n, (s.module n).retiring = []) →
    let tl := s.tile t
    let asid := tl.asid.toNat
    ∃ u x, exec (.gangSave t) s = .next u ∧ u.saved = s.saved ++ [x] ∧ x.name = t ∧ x.asid = asid ∧ x.tile.cores = tl.cores ∧
      x.tile.segs = tl.segs ∧ x.tile.residentCount = tl.residentCount ∧ x.mem = s.mem.filter (fun c => savedRange t c.1) ∧
      u.mem = s.mem ∧ u.net = s.net ∧ (u.tile t).segValid = false ∧ (u.tile t).cores = [] ∧ (u.tile t).name = tl.name ∧
      ∀ m l, s.launchOf asid = some (m, l) → l ∈ (s.module m).launches →
        ((∃ n ∈ l.tiles, n ≠ t ∧ s.savedAt n asid = false) → u.mods = s.mods) ∧
        ((∀ n ∈ l.tiles, n ≠ t → s.savedAt n asid = true) → l.aborting = false →
          (∀ n, (s.module n).placeHeld = false ∧ (s.module n).nameSwitch = none) →
          ∃ y ∈ (u.module m).launches, y.words = l.words ∧ y.st = .saved ∧ y.resumeAt = some (s.time + 8192))) ∧
  (∀ (s : State) (id m : Nat) (l : Launch) (r : Nat), s.launchOf id = some (m, l) → l ∈ (s.module m).launches → l.st = .saved →
    l.aborting = false → l.resumeAt = some r →
    (s.time < r → exec (.gangResume id) s = .next s) ∧
    (r ≤ s.time → s.Sound → (∀ t ∈ l.tiles, (s.module (Config.nameM t)).placeHeld = false ∧ (s.tile t).segValid = false ∧
        s.reachable t = true ∧ s.powered (Config.nameM t) = true ∧ s.moving t = false) →
      (∀ x ∈ s.saved, x.asid = id → x.tile.faultBuf = []) →
      ∃ u, exec (.gangResume id) s = .next u ∧ u.saved = s.saved.filter (fun y => y.asid != id) ∧
        (∃ y ∈ (u.module m).launches, y.words = l.words ∧ y.st = .resident ∧ y.resumeAt = none) ∧
        ∀ t ∈ l.tiles, ∀ x, s.saved.filter (fun y => y.asid == id && y.name == t) = [x] →
          ((u.tile t).gang = .resuming ∨ (u.tile t).gang = .running) ∧
          ((∀ y ∈ s.saved, y.asid = id → y.tile.fallout = []) → (∀ q, ∀ p ∈ (s.tile q).nrspill, p.asid ≠ id) →
            (∀ p ∈ s.net, p.asid ≠ id) → x.tile.asid.toNat = id → (s.module (Config.nameM t)).halted = false →
            (u.tile t).gang = .running) ∧
          (u.tile t).segValid = x.tile.segValid ∧ (u.tile t).segs = x.tile.segs ∧
          (u.tile t).asid = x.tile.asid ∧ (u.tile t).residentAt = s.time ∧ (u.tile t).residentCount = x.tile.residentCount ∧
          ((∀ e ∈ x.tile.threads, (s.tile t).slotInService e.1 e.2.1 = true) → (s.tile t).hasTrestle = true →
            ∀ c k, (x.tile.thread c k).st = .ready → u.thread t c k = x.tile.thread c k)))

/-- 15 R312 to R317, 19 R401, R403 to R405, 20 R419: launches and retirement. New records are submitted, copied and checked, and one that
fails completes with its status; a gang that may be placed is placed whole; the head's fence falls after 18,000,000 cycles; a launch that
has drained completes and frees its tiles; the host aborts a waiting one; a retired core leaves TL_SLOTS and is logged. -/
def Obligations.LaunchEvents : Prop :=
  ∀ (s : State) (md port : Nat),
    let m := s.module md
    let ends := fun (u : State) (lid status : Nat) => (lid, status) ∈ (u.module md).done
    (m.booted = true → m.frozen = false → m.poweredOff = false →
      (∀ l, m.nextSubmitted = some l → s.Sound →
        let x := m.ports.get {} l.port
        let a := x.lqbase.toNat + 256 * (x.lqhead.toNat % x.lqsize.toNat)
        let l' : Launch := { l with words := (List.range 32).map (fun i => s.dword (a + 8 * i)), st := .waiting }
        ∃ u, exec (.launchValidate md) s = .next u ∧
          (∀ v, s.verdict l' = some v → ends u l'.lid v.status) ∧
          (s.verdict l' = none → s.SameMemory u ∧ u.tiles = s.tiles ∧
            ((u.module md).ports.get {} l.port).lqhead = x.lqhead + 1 ∧
            ∃ y ∈ (u.module md).launches, y.words = l'.words ∧ y.st = .waiting)) ∧
      (∀ val, (∀ p ∈ s.net, ∀ op, p.body ≠ .posted op) →
        let x := m.ports.get {} port
        let head := x.lqhead.toNat + x.lqsize.toNat
        (val.toNat < x.lqtail.toNat ∨ head < val.toNat → exec (.mgLqtail md port val) s =
          .next (s.setModule md { m with status := m.status ||| 2 })) ∧
        (x.lqtail.toNat ≤ val.toNat → val.toNat ≤ head → ∃ u, exec (.mgLqtail md port val) s = .next u ∧ s.SameMemory u ∧
          u.tiles = s.tiles ∧ u.net = s.net ∧ ((u.module md).ports.get {} port).lqtail = val ∧
          let later := fun (l : Launch) => decide (s.time < l.at_) || (l.at_ == s.time && decide (port < l.port))
          ∃ new, (u.module md).launches = m.launches.filter (fun l => !later l) ++ new ++ m.launches.filter later ∧
            new.length = val.toNat - x.lqtail.toNat ∧ ∀ l ∈ new, l.st = .submitted ∧ l.port = port ∧ l.at_ = s.time)) ∧
      (port < 2 → ∀ val,
        (s.launchBy md (field val 0 32) = none → exec (.mgAbort md port val) s =
          .next (s.setModule md { m with status := m.status ||| 2 })) ∧
        (∀ l, s.launchBy md (field val 0 32) = some l →
          (l.st = .waiting ∨ l.st = .saved → ∃ u, exec (.mgAbort md port val) s = .next u ∧ ends u l.lid 7) ∧
          (l.st = .resident ∨ l.st = .stopping → l ∈ m.launches → ∃ u, exec (.mgAbort md port val) s = .next u ∧ s.SameMemory u ∧
            ∃ y ∈ (u.module md).launches, y.words = l.words ∧ y.aborting = true))) ∧
      (∀ val,
        let t := field val 0 20
        let core := field val 24 4
        (m.sems.get (false, 0) 0 ≠ (true, port) → exec (.mgRetire md port val) s =
          .next (s.setModule md { m with status := m.status ||| 1 })) ∧
        (∀ x y, m.sems.get (false, 0) 0 = (true, port) → Config.nameM t = md → s.site t = some (x, y) → x < 96 → y < 63 →
          field val 20 4 = 1 → core < 4 → (s.tile t).segValid = false → m.retiring = [] → m.log.length < 8192 →
          ∃ u, exec (.mgRetire md port val) s = .next u ∧ s.SameMemory u ∧ u.net = s.net ∧
            (u.module md).log = m.log ++ [logEntry s.time x y 1 core 0] ∧ (u.tile t).coreSlots core = 0))) ∧
    (∀ lid l, s.launchBy md lid = some l → l ∈ m.launches → s.powered md = true →
      (s.placeable md l = true → s.earlierPlaceable md l = false → s.Sound → ∃ u, exec (.launchPlace md lid) s = .next u ∧
        (∀ t ∈ l.rect, (u.tile t).segValid = true ∧ (u.tile t).asid = BitVec.ofNat 8 l.asid ∧ (u.tile t).hbarcnt = 0) ∧
        ∃ y ∈ (u.module md).launches, y.words = l.words ∧ y.st = .resident ∧ y.tiles = l.rect) ∧
      (l.st = .waiting → ∀ i, s.depFails md l = some i → ∃ u, exec (.launchComplete md lid) s = .next u ∧ ends u l.lid 4) ∧
      (l.st = .resident → s.drainedLaunch l = true → ∃ u, exec (.launchComplete md lid) s = .next u ∧
        ends u l.lid (if s.residue l = 0 then 0 else 6) ∧ ∀ t ∈ l.tiles, (u.tile t).segValid = false)) ∧
    (∀ lid since, m.head = some (lid, since) → s.powered md = true →
      (s.time < since + 18000000 → exec (.backfillFence md) s = .next s) ∧
      (since + 18000000 ≤ s.time → exec (.backfillFence md) s = .next (s.setModule md { m with fenced := true })))

/-! ## Modules -/

/-- 20 R414 to R416, R418, R422, R424, 19 R399 to R401: a module. A reset boots a good image, with tile memory zero and the rollback
counter raised, or leads to recovery; recovery installs an image or resets the log only with its checks passed; registers, semaphores and
contexts are read and written from the host; the responder answers; an excursion holds placement and stops what is resident; a shutdown
removes power. What signatures and digests are (log entry 4), that a read takes a semaphore only when it is free (log entry 58), and the gang stop
exactly 8,192 cycles ahead, written to every tile at once (log entry 20), are the model's choices. -/
def Obligations.ModuleEvents : Prop :=
  ∀ (s : State) (md : Nat),
    let m := s.module md
    let good := m.strap = false ∧ imageFormed m.image = true ∧ imageSigned m.image = true ∧ m.rollback ≤ imageRollback m.image
    (∃ u, exec (.powerOnReset md) s = .next u ∧
      (good → (u.module md).booted = true ∧ (u.module md).rollback = min 64 (imageRollback m.image) ∧
        (u.module md).firmwareVector = imageVector m.image ∧ ∀ a, State.inSram md a = true → u.byte a = 0 ∧ u.isEmpty a = false) ∧
      (¬ good → (u.module md).recovery = true ∧ (u.module md).booted = false ∧ s.SameMemory u)) ∧
    (m.recoveryCommand = 1 →
      let fails := fun (why : Nat) => ∃ u, exec (.recoveryInstall md) s = .next u ∧ (u.module md).image = m.image ∧
        (u.module md).rcmd = 0 ∧ (u.module md).rstat = BitVec.ofNat 64 (3 + 256 * why) ∧ s.SameMemory u
      (imageFormed m.staged = false → fails 3) ∧
      (imageFormed m.staged = true → imageSigned m.staged = false → fails 1) ∧
      (imageFormed m.staged = true → imageSigned m.staged = true → imageRollback m.staged < m.rollback → fails 2) ∧
      (imageFormed m.staged = true → imageSigned m.staged = true → m.rollback ≤ imageRollback m.staged →
        ∃ u, exec (.recoveryInstall md) s = .next u ∧ (u.module md).image = m.staged ∧
          (m.strap = false → (u.module md).booted = true))) ∧
    (m.recoveryCommand = 2 →
      let lawful := m.staged.length = 256 ∧ m.staged.take 4 = resetMagic ∧ wordAt m.staged 1 = Config.serialNumber md
      let fails := fun (why : Nat) => exec (.recoveryLogReset md) s =
        .next (s.setModule md { m with rcmd := 0, rstat := BitVec.ofNat 64 (3 + 256 * why) })
      let signed := Config.signatureGood (m.staged.take 160) (signatureOf m.staged)
      (¬ lawful → fails 3) ∧ (lawful → signed = false → fails 1) ∧
      (lawful → signed = true → digestIn m.staged ≠ Config.sha384 (logBytes m.log) → fails 4) ∧
      (lawful → signed = true → digestIn m.staged = Config.sha384 (logBytes m.log) →
        exec (.recoveryLogReset md) s = .next (s.setModule md { m with log := [], rcmd := 0, rstat := 2 }))) ∧
    (m.booted = true → m.recovery = false → m.frozen = false → m.poweredOff = false → ∀ port < 2,
      let puts := fun (off : Nat) (val : Dword) (m' : Module) => exec (.hostRegisterWrite md port off val) s = .next (s.setModule md m')
      let x := m.ports.get {} port
      (∀ val, puts 0x008 val { m with status := m.status &&& ~~~ val } ∧
        puts 0x700 val { m with ports := m.ports.set port { x with irq := x.irq &&& ~~~ val } } ∧
        puts 0x708 val { m with ports := m.ports.set port { x with irqen := val &&& 0xFF } } ∧
        puts 0x900 val { m with ctxsel := val &&& 0x3FFFFFF } ∧ puts 0xB00 val { m with bbsel := val &&& 0xFFFFF } ∧
        (∀ i < 8, puts (0x600 + 8 * i) val { m with aps := m.aps.set i (val &&& 0x1FFFFF00000000) }) ∧
        (m.holdsZero port = true → puts 0x400 val { m with ports := m.ports.set port { x with lqbase := val &&& deviceMask } } ∧
          puts 0x408 val { m with ports := m.ports.set port { x with lqsize := val &&& 0x1FFF } }) ∧
        (m.holdsZero port = false → ∀ off, off = 0x400 ∨ off = 0x408 → puts off val { m with status := m.status ||| 1 })) ∧
      (∀ n < 64, ∃ u, exec (.mgSemRead md port n) s = .next u ∧ s.SameMemory u ∧ u.tiles = s.tiles ∧
        (let e := m.sems.get (false, 0) n
         (u.module md).sems.get (false, 0) n = (if e.1 then e else (true, port)) ∧
         ((u.module md).ports.get {} port).returned = (0x100 + 8 * n, BitVec.ofNat 64 (e.2 * 2 + if e.1 then 1 else 0)) :: x.returned)) ∧
      (∀ n < 64, ∀ val, ∃ u, exec (.mgSemWrite md port n val) s = .next u ∧ s.SameMemory u ∧ u.tiles = s.tiles ∧
        (u.module md).sems.get (false, 0) n =
          if val.getLsbD 0 = false ∧ m.sems.get (false, 0) n = (true, port) then (false, 0) else m.sems.get (false, 0) n) ∧
      (∀ i < 32, ∀ val, m.haltDone = true →
        let (t, c, k) := s.selected md
        let th := s.thread t c k
        (th.st ≠ .free → exec (.mgCtx md port (0xA00 + 8 * i) val) s =
          .next (s.setThread t c k (th.setWords ((th.recordWords ((s.tile t).seated th)).set i val)))) ∧
        (th.st = .free → exec (.mgCtx md port (0xA00 + 8 * i) val) s = .next s))) ∧
    (s.powered md = true → ∀ port < 2, (m.ports.get {} port).up = true →
      let answers := fun (i : Instr) (r : SpdmReply) => exec i s = .next (s.setModule md { m with spdm := r :: m.spdm })
      answers (.getVersion md port) (.version 1 3) ∧ answers (.getCapabilities md port) (.capabilities false) ∧
      answers (.negotiateAlgorithms md port) (.algorithms 384 384) ∧
      answers (.getDigests md port) (.digests (Config.sha384 (Config.certificate md))) ∧
      answers (.getCertificate md port) (.certificate (Config.certificate md)) ∧
      (∀ nonce, answers (.challenge md port nonce) (.challengeAuth (Config.sign (leBytes 32 nonce.toNat)))) ∧
      answers (.getMeasurements md port 1) (.measurement 1 (Config.romDigest md)) ∧
      answers (.getMeasurements md port 2) (.measurement 2 (Config.sha384 m.image)) ∧
      answers (.getMeasurements md port 3) (.measurement 3 (Config.sha384 (logBytes m.fuses))) ∧
      answers (.getMeasurements md port 4) (.measurement 4 (Config.sha384 (logBytes m.log))) ∧
      answers (.getMeasurements md port 5) (.rollback m.rollback)) ∧
    (s.powered md = true → m.booted = true → ∃ u, exec (.powerExcursion md) s = .next u ∧ s.SameMemory u ∧ u.net = s.net ∧
      (u.module md).placeHeld = true ∧
      ∀ t l, Config.nameM t = md → (s.tile t).segValid = true → (s.tile t).gang = .running →
        s.launchOf (s.tile t).asid.toNat = some (md, l) → s.launchesOn md = [l] → l ∈ m.launches → l.st = .resident → t ∈ l.tiles →
        (u.tile t).gangstop = BitVec.ofNat 64 (s.time + 8192)) ∧
    (∃ u, exec (.powerRestored md) s = .next u ∧ s.SameMemory u ∧ u.tiles = s.tiles ∧ u.net = s.net ∧
      (u.module md).placeHeld = false ∧
      ∀ l, s.launchesOn md = [l] → l.st = .saved → l.resumeAt = none → l.aborting = false →
        s.launchOf l.asid = some (md, l) → l ∈ m.launches → (∀ t ∈ l.tiles, Config.nameM t = md) →
        ∃ y ∈ (u.module md).launches, y.words = l.words ∧ y.resumeAt = some (s.resumeTime l.tiles)) ∧
    exec (.thermalShutdown md) s = .next (s.setModule md { m with poweredOff := true })

/-! ## Debugging and the host's ports -/

/-- 19 R402, R407, R409 to R411, R413, R399: debugging and the ports. HALT sets a halt time 4,096 cycles ahead, 8,192 for the pod, at which
every running tile's units stop and its threads are HALTED, and which is complete, as vector 2 says, once every unit is parked; RESUME sets one 8,192 ahead, at which they run again, or restarts the cores that
a BRK stopped; a step runs one thread, of a core that no machine check has stopped, and halts again 64 cycles after it has ended. An aperture access becomes operations at the device
address, in pieces of one line; a port that goes down releases its semaphores; a host-window operation that fails traps its thread, a RAMO's
failure being a denial. (The tile at which a port's accesses join the fabric is the model's choice: log 34; a halted thread's PC: log 55; the step of a thread of a stopped core: log 20.) -/
def Obligations.DebugAndPortEvents : Prop :=
  ∀ (s : State) (md : Nat),
    let m := s.module md
    let halts := fun (th : Thread) => th.st = .halted ∧ th.haltedFrom = .ready ∧ th.priv ≠ 2
    (m.booted = true → m.recovery = false → m.frozen = false → m.poweredOff = false →
      (m.halted = false →
        exec (.dbgHalt md false) s = .next (s.setModule md { m with haltAt := some (s.time + 4096, 1) }) ∧
        (∃ u, exec (.dbgHalt md true) s = .next u ∧ s.SameMemory u ∧ u.tiles = s.tiles ∧ ∀ n < s.podSize, (s.module n).halted = false →
          (u.module n).haltAt = some (s.time + 8192, 2)) ∧
        (∃ u, exec (.dbgResume md false) s = .next u ∧ s.SameMemory u ∧ u.net = s.net ∧ ∀ t ∈ s.tilesOf md, ∀ c < 4,
          ((u.tile t).core c).brkStopped = false)) ∧
      (m.halted = true →
        (m.haltDone = true → exec (.dbgFreeze md) s = .next (s.setModule md { m with frozen := true })) ∧
        (m.stepping = false → exec (.dbgResume md false) s = .next (s.setModule md { m with resumeAt := some (s.time + 8192) }))) ∧
      (∀ on, exec (.dbgBrkhalt md on) s = .next (s.setModule md { m with brkhalt := on })) ∧
      (∀ val t c k, s.findTid md (val.truncate 32) = some (t, c, k) → m.haltDone = true → m.stepping = false →
        halts (s.thread t c k) → (s.tile t).gang = .halted → ((s.tile t).core c).stopped = false → ∃ u, exec (.mgDbgstep md val) s = .next u ∧ s.SameMemory u ∧
          (u.module md).stepping = true ∧ (u.module md).stepTid = some (val.truncate 32) ∧ (u.tile t).gang = .running ∧
          (u.module md).dbgstep = val &&& 0xFFFFFFFF ∧ u.thread t c k = { s.thread t c k with st := .ready, haltedFrom := .free }) ∧
      (∀ port < 2, ∀ off n a, s.apertureAddr md off n = some a → 0 < n → a % 64 + n ≤ 64 →
        let asks := fun (cls : Nat) (i : Instr) (body : Op → Payload) (kind : OpKind) (path : Path) =>
          ∃ u op, exec i s = .next u ∧ s.SameMemory u ∧ u.Ends s.net cls (Config.tileName md 0 0) (devTile a) (body op) ∧
            op.kind = kind ∧ op.path = path ∧ op.lo = a ∧ op.device = true ∧ op.origin = .host md port a ∧ op.owner = devTile a
        asks clsREQ (.apertureRead md port off n) .request (.hostRead n) .remote ∧
        ∀ bs : List Byte, bs.length = n → asks clsPOST (.apertureWrite md port off bs) .posted (.hostWrite bs) .posted) ∧
      (∀ port < 2, ∀ off n, s.apertureAddr md off n = none →
        exec (.apertureRead md port off n) s = .fault .noSuchDeviceAddress ∧
        ∀ bs : List Byte, bs.length = n → exec (.apertureWrite md port off bs) s = .fault .noSuchDeviceAddress)) ∧
    (∀ h why, m.haltAt = some (h, why) →
      (s.time < h → exec (.debugHaltTake md) s = .next s) ∧
      (h ≤ s.time → m.halted = false → s.powered md = true → ∃ u, exec (.debugHaltTake md) s = .next u ∧
        (u.module md).halted = true ∧ (u.module md).haltAt = none ∧ (u.module md).dbgtime = BitVec.ofNat 64 h ∧
        (u.module md).reason = why ∧ ∀ t ∈ s.tilesOf md, (s.tile t).segValid = true → (s.tile t).gang = .running →
          (u.tile t).gang = .halted ∧ ∀ c < 4, ∀ k, (s.thread t c k).st ≠ .free →
            (s.thread t c k).st ≠ .normalise → (u.thread t c k).st = .halted)) ∧
    (m.haltAt = none → m.halted = true → m.stepping = false → m.haltDone = false → s.powered md = true →
      (s.haltParked md = false → exec (.debugHaltTake md) s = .next s) ∧
      (s.haltParked md = true → ∃ u, exec (.debugHaltTake md) s = .next u ∧ s.SameMemory u ∧ u.tiles = s.tiles ∧ u.net = s.net ∧
        (u.module md).haltDone = true ∧ ∀ port < 2, ((u.module md).ports.get {} port).irq.getLsbD 2 = true)) ∧
    (∀ r, m.resumeAt = some r → m.halted = true → m.stepping = false → s.powered md = true →
      (s.time < r → exec (.debugResumeTake md) s = .next s) ∧
      (r ≤ s.time → ∃ u, exec (.debugResumeTake md) s = .next u ∧ s.SameMemory u ∧ (u.module md).halted = false ∧
        (u.module md).resumeAt = none ∧ ∀ t ∈ s.tilesOf md, (s.tile t).gang = .halted →
          (u.tile t).gang = .running ∧ (u.tile t).residentAt = s.time ∧ ∀ c < 4, ∀ k, halts (s.thread t c k) →
            (((s.tile t).core c).stopped = false → (u.thread t c k).st = .ready))) ∧
    (∀ tid t c k, m.stepTid = some tid → m.stepping = true → m.stepIssued = true →
      (List.range s.podSize).findSome? (fun n => s.findTid n tid) = some (t, c, k) → (s.thread t c k).stepOver = true →
      ∃ u, exec (.stepEnd md) s = .next u ∧ s.SameMemory u ∧ u.net = s.net ∧
        u.module md = { m with haltAt := some (s.time + 64, 3), stepTid := none }) ∧
    (∀ port < 2,
      (∃ u, exec (.portLinkDown md port) s = .next u ∧ s.SameMemory u ∧ u.tiles = s.tiles ∧ u.net = s.net ∧
        ((u.module md).ports.get {} port).up = false ∧ (u.module md).status = m.status ||| 4 ∧
        ∀ i, (u.module md).sems.get (false, 0) i =
          if m.sems.get (false, 0) i = (true, port) then (false, 0) else m.sems.get (false, 0) i) ∧
      exec (.hostLinkUp md port) s =
        .next (s.setModule md { m with ports := m.ports.set port { m.ports.get {} port with up := true } })) ∧
    (∀ n op t c k tid tag w, s.hostWait[n]? = some op → s.unitsRun op.src = true → (s.tile op.src).resident op.asid = true →
      op.origin = .thread t tid tag →
      let th := s.thread t c k
      (op.path = .remote → (s.tile t).threads.find? (fun e => e.2.2.awaits tid tag) = some (c, k, th) → th.wait = some w →
        w.elems = false → th.pending = [] → th.priv ≠ 3 → th.st ≠ .halted → ∃ u, exec (.hostCompletionTimeout n) s = .next u ∧
          s.SameMemory u ∧ u.hostWait = s.hostWait.eraseIdx n ∧ s.Trapped u t c k Cause.hostWindow op.va) ∧
      (∀ o size v fetch, op.path = .posted → op.kind = .amo o size v fetch → c < 4 → th.tid = tid → th.st = .ready → th.denial = none →
        (∃ x ∈ th.posted, x.tag = tag) →
        ∃ u, exec (.hostCompletionTimeout n) s = .next u ∧ s.SameMemory u ∧ u.hostWait = s.hostWait.eraseIdx n ∧
          u.thread t c k = { th with posted := th.posted.filter (fun x => x.tag != tag), denial := some op.va }) ∧
      (op.path = .posted → (∀ o size v fetch, op.kind ≠ .amo o size v fetch) → exec (.hostCompletionTimeout n) s = .next s))

/-! ## Bookends -/

/-- 12 R264 to R268: a Bookend's own six instructions. Each goes on past its word: a load waits for its answer, a store goes as a posted
operation, a GET and a PUT leave in pieces and are outstanding, a wait waits for as many or for the inbox, a signal goes to the outbox; a
check that fails traps, with the cause in bkfault. -/
def Obligations.BookendOwnForms : Prop :=
  ∀ (s : State) (d a r2 r3 : BitVec 5), s.bookendRuns = true → (s.tile s.curBk.1).scWaiters = [] →
    let b := s.bk
    let (t, n) := s.curBk
    let va := b.va a
    let past := b.pc + 4
    let leaves := fun (i : Instr) (x : Bookend) => ∃ u, exec i s = .next u ∧ s.SameMemory u ∧ u.net = s.net ∧ u.bk = x
    let sends := fun (i : Instr) (x : Bookend) (cls dst : Nat) (ok : Payload → Prop) => ∃ u body, exec i s = .next u ∧ s.SameMemory u ∧
      u.bk = x ∧ u.Ends s.net cls t dst body ∧ ok body
    let fails := fun (c : BitVec 8) (base : Nat) =>
      ({ b with bkfault := c.zeroExtend 32 } : Bookend).trap (if c = Cause.misaligned then base - 1 else base) (va.truncate 32)
    (∀ o, s.bkCheck va 4 4 .rd = none → (s.bkPoint va).owner = some o →
      sends (.bkRd d a) { b with reading := some (d.toNat, va) } clsREQ o (fun y => ∃ op, y = .request op ∧ op.va = va ∧
        op.kind = .load ⟨4, false⟩ ∧ op.owner = o ∧ op.origin = .bookend t n (b.stamp (2 ^ 39)))) ∧
    (∀ o, s.bkCheck va 4 4 .w = none → (s.bkPoint va).owner = some o →
      sends (.bkWr a r2) { b with posted := b.posted + 1, pc := past, minstret := b.minstret + 1 } clsPOST o (fun y => ∃ op,
        y = .posted op ∧ op.va = va ∧ op.kind = .store 4 ((b.rx r2.toNat).zeroExtend 64) ∧ op.owner = o)) ∧
    (∀ c, (s.bkCheck va 4 4 .rd = some c → leaves (.bkRd d a) (fails c 5)) ∧ (s.bkCheck va 4 4 .w = some c → leaves (.bkWr a r2) (fails c 7))) ∧
    (let addr := (b.rx r2.toNat).toNat
     let len := (b.rx r3.toNat).toNat
     let g := (s.tile t).seg (vaSeg va)
     let pool := some ((s.tile t).poolBase, (s.tile t).poolSize)
     let out := fun (put : Bool) => { (b.setX d.toNat (BitVec.ofNat 32 b.tags)) with
       tags := (b.tags + 1) % 2 ^ 32, xfers := b.xfers ++ [(b.stamp b.tags, 1, put)], pc := past, minstret := b.minstret + 1 }
     (32 ≤ b.xfers.length → exec (.bkGet d a r2 r3) s = .next s ∧ exec (.bkPut d a r2 r3) s = .next s) ∧
     (b.xfers.length < 32 → 0 < len → len ≤ 16384 → bkPlace addr len = .data →
       (∀ c, (g.check pool (vaOff va) len 1 .rd = some c → leaves (.bkGet d a r2 r3) (fails c 5)) ∧
         (g.check pool (vaOff va) len 1 .w = some c → leaves (.bkPut d a r2 r3) (fails c 7))) ∧
       (g.kind = 3 → s.reachable t = true →
         (addr % 64 + len ≤ 64 → g.check pool (vaOff va) len 1 .rd = none →
           sends (.bkGet d a r2 r3) (out false) clsBULK t (fun y => ∃ x, y = .copyRead x ∧ x.len = len ∧ x.srcVa = va ∧
             x.srcLo = vaOff va ∧ x.bkAddr = addr ∧ x.bkPut = false ∧ x.origin = .bookend t n (b.stamp b.tags))) ∧
         (va.toNat % 64 + len ≤ 64 → g.check pool (vaOff va) len 1 .w = none →
           sends (.bkPut d a r2 r3) (out true) clsBULK t (fun y => ∃ x, y = .copyData x ∧ x.dstVa = va ∧ x.dstLo = vaOff va ∧
             x.bkPut = true ∧ x.data = (List.range len).map (fun i => b.dmem.get 0 (addr - dmemBase + i)) ∧
             x.origin = .bookend t n (b.stamp b.tags)))))) ∧
    (let which := b.rx r2.toNat
     (which = 0 → b.xferFault = none →
       ((b.rx a.toNat).toNat < b.xfers.length → exec (.bkWait d a r2) s = .next s) ∧
       (b.xfers.length ≤ (b.rx a.toNat).toNat → leaves (.bkWait d a r2) ((b.setX d.toNat (BitVec.ofNat 32 b.xfers.length)).retire past))) ∧
     (∀ cause mcause x, which = 0 → b.xferFault = some (cause, mcause, x) → leaves (.bkWait d a r2)
       (({ b with bkfault := cause.zeroExtend 32, xferFault := none } : Bookend).trap mcause (x.truncate 32))) ∧
     (which = 1 → (b.inbox = [] → exec (.bkWait d a r2) s = .next s) ∧
       ∀ w rest, b.inbox = w :: rest → leaves (.bkWait d a r2)
         ({ b.setX d.toNat (w.truncate 32) with inbox := rest, bkmailhi := (w >>> 32).truncate 32 }.retire past)) ∧
     (which ≠ 0 → which ≠ 1 → leaves (.bkWait d a r2) (b.trap 2 (BitVec.ofNat 32 s.bookendWord)))) ∧
    (8 ≤ b.outbox.length → exec (.bkSig a r2) s = .next s) ∧
    (b.outbox.length < 8 → leaves (.bkSig a r2) ({ b with
      outbox := b.outbox ++ [(b.rx r2.toNat &&& 0x7FFFFFFF) ++ b.rx a.toNat] }.retire past))

/-- 12 R262 to R264: the base instructions of a Bookend, one of each of its formats with every operand: LUI, ADDI, ADD, MUL, LW and SW of the
data store, BEQ, JAL, CSRRW of mscratch, ECALL, C.LI, and bits that are none of its instructions (what the RISC-V manuals supply: log 51). -/
def Obligations.BookendBaseForms : Prop :=
  ∀ (s : State) (rd r1 r2 : BitVec 5) (i : BitVec 12) (j : BitVec 20), s.bookendRuns = true → (s.tile s.curBk.1).scWaiters = [] →
    s.bk.pc.toNat + 4 ≤ 0x8000 →
    let b := s.bk
    let x := b.rx r1.toNat
    let y := b.rx r2.toNat
    let past := b.pc + 4
    let leaves := fun (w : Word) (e : Bookend) => ∃ u, exec (.bookendBaseInstruction w) s = .next u ∧ s.SameMemory u ∧ u.net = s.net ∧
      u.bk = e
    let takes := fun (w v : Word) => leaves w ((b.setX rd.toNat v).retire past)
    let at_ := x + i.signExtend 32
    let data := 0x10000 ≤ at_.toNat ∧ at_.toNat + 4 ≤ 0x14000 ∧ at_.toNat % 4 = 0
    takes (j ++ rd ++ (0x37 : BitVec 7)) (j ++ (0 : BitVec 12)) ∧
    takes (i ++ r1 ++ (0 : BitVec 3) ++ rd ++ (0x13 : BitVec 7)) (x + i.signExtend 32) ∧
    takes ((0 : BitVec 7) ++ r2 ++ r1 ++ (0 : BitVec 3) ++ rd ++ (0x33 : BitVec 7)) (x + y) ∧
    takes ((1 : BitVec 7) ++ r2 ++ r1 ++ (0 : BitVec 3) ++ rd ++ (0x33 : BitVec 7)) (x * y) ∧
    (data → takes (i ++ r1 ++ (2 : BitVec 3) ++ rd ++ (0x03 : BitVec 7)) (BitVec.ofNat 32 (storeNum b.dmem (at_.toNat - 0x10000) 4)) ∧
      leaves (i.extractLsb' 5 7 ++ r2 ++ r1 ++ (2 : BitVec 3) ++ i.extractLsb' 0 5 ++ (0x23 : BitVec 7))
        ({ b with dmem := storePut b.dmem (at_.toNat - 0x10000) (leBytes 4 y.toNat) }.retire past)) ∧
    leaves (i.extractLsb' 11 1 ++ i.extractLsb' 4 6 ++ r2 ++ r1 ++ (0 : BitVec 3) ++ i.extractLsb' 0 4 ++ i.extractLsb' 10 1 ++ (0x63 : BitVec 7))
      (b.retire (if x = y then b.pc + (i ++ (0 : BitVec 1)).signExtend 32 else past)) ∧
    leaves (j.extractLsb' 19 1 ++ j.extractLsb' 0 10 ++ j.extractLsb' 10 1 ++ j.extractLsb' 11 8 ++ rd ++ (0x6F : BitVec 7))
      ((b.setX rd.toNat past).retire (b.pc + (j ++ (0 : BitVec 1)).signExtend 32)) ∧
    leaves ((0x340 : BitVec 12) ++ r1 ++ (1 : BitVec 3) ++ rd ++ (0x73 : BitVec 7))
      (({ b with mscratch := x } : Bookend).setX rd.toNat b.mscratch |>.retire past) ∧
    leaves 0x73 (b.trap 11 0) ∧ leaves 0xFFFFFFFF (b.trap 2 0xFFFFFFFF) ∧
    leaves ((0x4 : BitVec 16) ++ (2 : BitVec 3) ++ i.extractLsb' 5 1 ++ rd ++ i.extractLsb' 0 5 ++ (1 : BitVec 2))
      ((b.setX rd.toNat ((i.extractLsb' 0 6).signExtend 32)).retire (b.pc + 2))

/-! ## The step, the checks that go first, and the tile's registers -/

/-- 02 R61 to R63, 10 R221, 14 R296, R298, 15 R324, 12 R262, 16 R331, 12 R273, 19 R401 (the agenda that says who moves is the model's own, log 1): a
step runs the decoded instruction. Where no tick of the clock is owed first and the request that it presents finds a port of the pipeline, the slot whose turn it is on its
core begins; the bits at the PC of a thread that issues, which its page gives, are decoded and executed with the effect that exec gives
them; then the turn is noted, unless the thread only begins to wait. Bits that are no instruction and a fetch that faults take their traps; at
the trap vector of its own privilege a thread is HALTED. A Bookend executes the word at its PC, and an event of the agenda is executed as it
is; of two reads of a semaphore in one cycle port A's goes first. -/
def Obligations.StepRunsDecoded : Prop :=
  (∀ (s : State) (n t c k : Nat) (rest : List (Nat × Agent)), s.agenda = (n, .turn t c k) :: rest → s.owed (s.time + n) = none →
     let s1 : State := { s with agenda := rest, time := s.time + n }
     let s0 := (s1.takePort (.turn t c k)).beginTurn t c k
     let at_ := s0.reclaims.decodeCode
     let fetched := at_.fetch at_.here at_.me.asid.toNat at_.me.scratch at_.me.pc
     let runs := fun (u : State) => step s = .next (if s0.onlyWaits u then u else (s0.noteStep u).turnTaken t c k)
     (s1.portFree (.turn t c k) = false → step s = .next { s1 with agenda := putOff (.turn t c k) rest }) ∧
     (s1.portFree (.turn t c k) = true →
       ((s1.takePort (.turn t c k)).chosen t c ≠ some k → step s = .next s0) ∧
       ((s1.takePort (.turn t c k)).chosen t c = some k → s0.me.resumes = true →
         step s = .next ((s0.turnTaken t c k).acceptOwn t c k)) ∧
       ((s1.takePort (.turn t c k)).chosen t c = some k → s0.me.resumes = false →
         ((∀ e ∈ s0.myTile.accs, e.2.orphaned = false) → s0.reclaims = s0) ∧ ((s0.reclaims.tile t).errs = [] → at_ = s0.reclaims) ∧
         (∀ w i u, fetched = .bits w → decodeWord w = .ok i → exec i at_ = .next u → runs u) ∧
         (at_.me.runs = true → ∀ w e, fetched = .bits w → decodeWord w = .error e →
           let u := at_.trap Cause.illegal (BitVec.ofNat 64 (if isFull w then w else w % 65536))
           exec (.illegalEncoding (BitVec.ofNat 32 w)) at_ = .next u ∧ runs u) ∧
         (at_.me.runs = true → ∀ cause va, fetched = .fault cause va →
           let own := (at_.me.priv = 1 ∧ at_.me.pc = at_.vectorOf at_.here) ∨ (at_.me.priv = 3 ∧ at_.me.pc = at_.firmwareOf at_.here)
           (¬ own → exec (.fetchFault cause) at_ = .next (at_.trap cause va) ∧ runs (at_.trap cause va)) ∧
           (own → ∃ u, exec (.fetchFault cause) at_ = .next u ∧ runs u ∧
             u.me = { at_.me with st := .halted, haltedFrom := .ready, walking := false } ∧
             (0x13, at_.me.tid.toNat) ∈ (u.module (Config.nameM at_.here)).reports)) ∧
         (∀ va, fetched = .miss va → runs (at_.fetchMiss va))))) ∧
  (∀ (s : State) (t asid : Nat) (scratch : Option (Nat × Nat)) (pc : CodeAddr) (e : TlbEntry),
     let va := codeVA pc
     let d := (s.tile t).seg (vaSeg va)
     d.check scratch (vaOff va) 2 2 .none = none → d.kind = 2 → d.x = true →
     (s.tile t).lookup asid (vaSeg va) d.psize (vaOff va) false = some e → s.isPoisoned (e.addr t (vaOff va)) 2 = false →
     let lo := s.num (e.addr t (vaOff va)) 2
     s.fetchHalf t asid scratch pc = .bits lo ∧ (isFull lo = false → s.fetch t asid scratch pc = .bits lo) ∧
     ∀ hi, isFull lo = true → s.fetchHalf t asid scratch (pc + 2) = .bits hi → s.fetch t asid scratch pc = .bits (lo + 65536 * hi)) ∧
  (∀ (s : State) (n t b : Nat) (rest : List (Nat × Agent)), s.agenda = (n, .bookend t b) :: rest → s.owed (s.time + n) = none →
     let s1 : State := { s with agenda := rest, time := s.time + n }
     let s0 : State := { s1.takePort (.bookend t b) with curBk := (t, b) }
     s1.portFree (.bookend t b) = true →
     (s0.bookendRuns = false → step s = .next s0) ∧
     (s0.bookendRuns = true → s0.bk.pc.toNat + 4 ≤ 0x8000 →
       (∀ i, decodeBookend s0.bookendWord = .ok i → step s = exec i s0) ∧
       (∀ e, decodeBookend s0.bookendWord = .error e → step s = exec (.bookendBaseInstruction (BitVec.ofNat 32 s0.bookendWord)) s0))) ∧
  (∀ (s : State) (n : Nat) (i : Instr) (rest : List (Nat × Agent)), s.agenda = (n, .event i) :: rest → encode i = none →
     firstOf (.event i) rest = (.event i, rest) → s.owed (s.time + n) = none →
     let s1 : State := { s with agenda := rest, time := s.time + n }
     s1.portFree (.event i) = true → step s = exec i (s1.takePort (.event i))) ∧
  (∀ (s : State) (n md k : Nat) (rest : List (Nat × Agent)),
     s.agenda = (n, .event (.mgSemRead md 1 k)) :: (0, .event (.mgSemRead md 0 k)) :: rest → s.owed (s.time + n) = none →
     step s = exec (.mgSemRead md 0 k) { s with agenda := (0, .event (.mgSemRead md 1 k)) :: rest, time := s.time + n }) ∧
  (∀ (s : State) (n due : Nat) (a : Agent) (rest : List (Nat × Agent)), s.agenda = (n, a) :: rest → firstOf a rest = (a, rest) →
     s.owed (s.time + n) = some due →
     step s = .next (({ s with time := due, agenda := (s.time + n - due, a) :: rest } : State).tick))

/-- 02 R63 to R66, R68, 07 R151, 16 R332, 01 R18, 09 R183, 11 R228, 20 R419, 10 R216: what stops an instruction before its own part, in
order. A marked one waits for pending results, one with no room for its result for one of them, and a memory access for an acquire; with HZ
set a register that is pending traps HAZARD; one with bad parity MACHINE_CHECK; an illegal dynamic rounding mode ILLEGAL. After these a vector
form traps ILLEGAL on a register beyond the thread's own, and MACHINE_CHECK where no lane group is left, and forfeits its turn with the queue full;
a matrix form traps LEASE where there is no Trestle. (Which bad register is named, and the other bits of that MACHINE_CHECK's value:
log 17.) -/
def Obligations.ChecksBeforeForms : Prop :=
  ∀ (s : State) (m : Bool) (d a b : BitVec 5), s.me.st = .ready → s.me.walking = false → s.me.wait = none →
    let th := s.me
    (th.pending ≠ [] → exec (.add true d a b) s = .next (s.hold .results)) ∧
    (d ≠ 0 → 16 ≤ th.awaited → exec (.mulhS false d a b) s = .next (s.hold .oneResult)) ∧
    (th.awaited < 16 → (∃ p ∈ th.pending, p.acq = true) → ∀ f, exec (.ldr false d a f 0) s = .next (s.hold .acquire) ∧
      (exec (.ld false d a f 0) s = .next (s.hold .acquire) ∨ exec (.ld false d a f 0) s = .next (s.hold .results))) ∧
    (th.hz = true → a ≠ 0 → (d ≠ 0 → ∀ p ∈ th.pending, gd d ∉ p.dests) → (∃ p ∈ th.pending, gd a ∈ p.dests) →
      exec (.add false d a b) s = .next (s.trap Cause.hazard (BitVec.ofNat 64 a.toNat))) ∧
    (th.pending = [] → a ≠ 0 → gd a ∈ th.parity →
      (th.cause ≠ Cause.machineCheck ∨ th.priv ≠ 1 →
        exec (.add m d a b) s = .next (s.trap Cause.machineCheck (BitVec.ofNat 64 (256 + a.toNat)))) ∧
      (th.cause = Cause.machineCheck → th.priv = 1 → ∃ u, exec (.add m d a b) s = .next u ∧
        u.me = { th with st := .halted, haltedFrom := .ready })) ∧
    (th.pending = [] → 5 ≤ th.frm.toNat → gd a ∉ th.parity → gd b ∉ th.parity → ∀ f,
      exec (.fadd m d a b f 7) s = .next (s.trap Cause.illegal (Instr.word (.fadd m d a b f 7)))) ∧
    (∀ (v x y : BitVec 3) (k : BitVec 2) (ty : BitVec 4),
      let i : Instr := .vadd m v k x y ty
      s.Clear m [vd v] [vd v, vd x, vd y, kd k] (long := true) →
        (th.vregs ≤ v.toNat ∨ th.vregs ≤ x.toNat ∨ th.vregs ≤ y.toNat → exec i s = .next (s.trap Cause.illegal (Instr.word i))) ∧
        (v.toNat < th.vregs → x.toNat < th.vregs → y.toNat < th.vregs →
          (s.myTile.laneGroups = [] → exec i s = .next (s.trap Cause.machineCheck 0x200)) ∧
          (s.myTile.laneGroups ≠ [] → 8 ≤ s.myCore.vq.length → exec i s = .next s.forfeit))) ∧
    (s.Clear m [] [] → s.myTile.hasTrestle = false → exec (.mlease m) s = .next (s.trap Cause.lease 1))

/-- 01 R16, R20, R36, R37, 06 R144, 18 R378, R396: the registers of a tile. SYSR returns each at the privilege that may read it, the counters
and the class table; SYSW writes those that may be written and its counters; at user privilege the others trap PRIVILEGE, and a number that
is no register traps ILLEGAL. A lawful class-table value is broadcast to the partition, and the thread waits for the acknowledgements, and, where it switches
the routing of entry 3, for the time that a second broadcast names; one that is not lawful traps ILLEGAL. g0 reads zero and k0
every lane, and writes to g0, p0 and k0 are discarded. (The model's choices: rights at machine privilege, log 19; the 256 cycles to the time that the second broadcast names and the wait of its sender, log 21; the tiles that a broadcast reaches, log 46.) -/
def Obligations.TileRegisters : Prop :=
  (∀ (s : State) (m : Bool) (d : BitVec 5), s.Clear m [gd d] [] →
     let tl := s.myTile
     let reads := fun (n : BitVec 11) (v : Dword) => exec (.sysr m d n) s = .next (s.retire 4 (s.me.setG d.toNat v))
     reads 0x100 (tl.name.zeroExtend 64) ∧ reads 0x101 tl.slotsReg ∧ reads 0x102 (tl.vweight.zeroExtend 64) ∧
     reads 0x106 (BitVec.ofNat 64 ((if tl.segValid then 256 else 0) + tl.asid.toNat)) ∧ reads 0x109 (BitVec.ofNat 64 (s.timebase (Config.nameM s.here))) ∧
     reads 0x408 (s.treeDepths s.here) ∧ reads 0x20D (BitVec.ofNat 64 tl.failedBank) ∧
     (∀ n : BitVec 11, n.toNat ∈ countersRW → reads n (tl.ct.get 0 n.toNat + s.running s.here n.toNat)) ∧
     (∀ n, n ∉ [0x203, 0x262, 0x264, 0x268, 0x273] → s.running s.here n = 0) ∧
     (∀ n : BitVec 11, n.toNat < 8 → reads (0x400 + n) (tl.classEntry n.toNat)) ∧
     (∀ n : BitVec 11, 0x10B ≤ n.toNat → n.toNat < 0x200 ∨ (0x300 ≤ n.toNat ∧ n.toNat < 0x400) →
       exec (.sysr m d n) s = .next (s.trap Cause.illegal (Instr.word (.sysr m d n)))) ∧
     (s.me.priv ≠ 0 → reads 0x103 tl.tasktab ∧ reads 0x104 tl.scratchReg ∧ reads 0x105 (tl.hbarcnt.zeroExtend 64) ∧
       reads 0x107 tl.ptroot ∧ reads 0x108 tl.faultq ∧ reads 0x10A tl.gangstop) ∧
     (s.me.priv = 0 → ∀ n ∈ [(0x103 : BitVec 11), 0x104, 0x105, 0x107, 0x108, 0x10A],
       exec (.sysr m d n) s = .next (s.trap Cause.privilege (Instr.word (.sysr m d n))))) ∧
  (∀ (s : State) (m : Bool) (a : BitVec 5), s.Clear m [] [gd a] →
     let x := s.me.rg a
     let writes := fun (n : BitVec 11) (f : Tile → Tile) => exec (.sysw m a n) s = .next ((s.retire 4 s.me).mapTile s.here f)
     (s.me.priv ≠ 0 →
       writes 0x102 (fun tl => { tl with vweight := x.truncate 16 }) ∧ writes 0x103 (fun tl => { tl with tasktab := x }) ∧
       writes 0x105 (fun tl => { tl with hbarcnt := x.truncate 16 }) ∧ writes 0x108 (fun tl => { tl with faultq := x }) ∧
       exec (.sysw m a 0x107) s =
         .next (((s.retire 4 s.me).mapTile s.here (fun tl => { tl with ptroot := x })).readRoots s.here) ∧
       (∀ n : BitVec 11, n.toNat ∈ countersRW → n.toNat ∉ [0x203, 0x262, 0x264, 0x268, 0x273] →
         writes n (fun tl => { tl with ct := tl.ct.set n.toNat x }))) ∧
     (s.me.priv = 3 → writes 0x100 (fun tl => { tl with name := (x &&& 0xFFFF8).truncate 20 }) ∧
       writes 0x10A (fun tl => { tl with gangstop := x })) ∧
     (s.me.priv ≠ 3 → ∀ n ∈ [(0x100 : BitVec 11), 0x101, 0x104, 0x106, 0x109, 0x10A, 0x20D],
       exec (.sysw m a n) s = .next (s.trap Cause.privilege (Instr.word (.sysw m a n)))) ∧
     (s.me.priv = 0 → ∀ n ∈ [(0x102 : BitVec 11), 0x103, 0x105, 0x107, 0x108, 0x200, 0x260],
       exec (.sysw m a n) s = .next (s.trap Cause.privilege (Instr.word (.sysw m a n)))) ∧
     (∀ n : BitVec 11, n.toNat < 6 →
       let tiles := s.partition s.me.asid.toNat
       let mods := (tiles.map Config.nameM).eraseDups
       let root := fun (md : Nat) => if md = Config.nameM s.here then s.here else s.treeRoot 4 (Config.tileName md 48 28)
       let sends := fun (acks : List Nat) (sw : Bool) (body : Payload) => ∃ u ps, exec (.sysw m a (0x400 + n)) s = .next u ∧
         s.SameMemory u ∧ u.net = s.net ++ ps ∧
         ps.map (fun p => (p.cls, p.src, p.dst, p.body, p.tag)) = mods.map (fun md => (clsSYS, s.here, root md, body, 4)) ∧
         u.me = { s.me with
           acks := acks, sent := true, switching := sw, ackNo := s.me.tags, tags := s.me.tags + 1, st := .markWait, hold := .acks }
       let switch := n.toNat == 3 && classRoute x != classRoute (s.myTile.classEntry 3)
       (s.me.sent = false → classLawful n.toNat x = false →
         exec (.sysw m a (0x400 + n)) s = .next (s.trap Cause.illegal (Instr.word (.sysw m a (0x400 + n))))) ∧
       (s.me.sent = false → classLawful n.toNat x = true → sends tiles switch (.classWrite n.toNat x s.me.tid s.me.tags switch)) ∧
       (s.me.sent = true → s.me.switching = true → sends [Config.noTile] false (.classTime x (s.time + 256) s.me.tid)) ∧
       (s.me.sent = true → s.me.switching = false →
         exec (.sysw m a (0x400 + n)) s = .next (s.retire 4 { s.me with sent := false })))) ∧
  (∀ (th : Thread) (x : Dword) (b : Bool) (y : BitVec 16) (r : BitVec 5) (k : Nat),
     th.rg 0 = 0 ∧ th.setG 0 x = th ∧ th.setP 0 b = th ∧ th.rk 0 = 0xFFFF ∧ (th.setK 0 y).rk k = th.rk k ∧
     (r ≠ 0 → (th.setG r.toNat x).rg r = x))

/-! ## Reset, memory and encodings -/

/-- 20 R414, 01 R36, R38, 18 R378: the machine right after reset. No thread, packet or partition is there; every tile register has its reset
value; memory in its canonical form lists nothing, every word is full and unpoisoned; no module has booted. That memory reads zero before
the boot chain has run is the model's choice (log 2). -/
def Obligations.ResetState : Prop :=
  (∀ t c k : Nat, (State.reset.thread t c k).st = .free) ∧ State.reset.net = [] ∧ State.reset.time = 0 ∧
  (∀ md : Nat, (State.reset.module md).booted = false ∧ (State.reset.module md).recovery = false) ∧
  (∀ t : Nat, (State.reset.tile t).name = 0xFFFF8 ∧ (State.reset.tile t).vweight = 0x8888 ∧ (State.reset.tile t).segValid = false ∧
    (State.reset.tile t).gangstop = 0xFFFFFFFFFFFFFFFF ∧ (State.reset.tile t).classEntry 3 = 0x8080F ∧
    (State.reset.tile t).classEntry 4 = 0x4090F ∧ (State.reset.tile t).classEntry 5 = 0x8090F ∧
    (State.reset.tile t).classEntry 6 = 0xF380F ∧ (State.reset.tile t).classEntry 7 = 0xF000F) ∧
  Memory.wf State.reset.mem = true ∧
  ∀ a n : Nat, State.reset.byte a = 0 ∧ State.reset.isEmpty a = false ∧ State.reset.isPoisoned a n = false

/-- Every step keeps memory in its canonical form: addresses rising, and no listed byte 0 (the form is the model's own). -/
def Obligations.MemoryFormKept : Prop :=
  ∀ s t : State, Memory.wf s.mem = true → step s = .next t → Memory.wf t.mem = true

/-- 02 R45 to R57, 12 R265: words written out from the encodings, and the instructions that they are: compact forms, one word of each
family of majors and one of a Bookend's own, and words that are refused, each by its name. -/
def Obligations.EncodedWordsDecode : Prop :=
  (decodeHalf 0x0C22 = .ok (.cAdd false 1 3)) ∧
  (decodeHalf 0x8BFE = .ok (.cBp1 true 0x05F)) ∧
  (decodeFull 0x000C4101 = .ok (.add false 1 2 3)) ∧
  (decodeFull 0x000C4103 = .ok (.add true 1 2 3)) ∧
  (decodeFull 0x000C4105 = .ok (.mul false 1 2 3)) ∧
  (decodeFull 0xFDD1680D = .ok (.addi false 8 0xB 0x3F74)) ∧
  (decodeFull 0x0218A333 = .ok (.cmp true 3 5 6 4)) ∧
  (decodeFull 0x0011E439 = .ok (.pand false 4 0xF 4)) ∧
  (decodeFull 0x23B92E39 = .ok (.sel false 0xE 9 0xE 2)) ∧
  (decodeFull 0x6454E32D = .ok (.bfxS false 3 7 0x15 0x24)) ∧
  (decodeFull 0xBC531E41 = .ok (.j false 0xBC531E)) ∧
  (decodeFull 0xA7A4E049 = .ok (.bp false 0 0x53D27)) ∧
  (decodeFull 0x9B5E2751 = .ok (.bz false 7 0x11 0x26D7)) ∧
  (decodeFull 0x1E48D361 = .ok (.ld false 0x13 6 2 0xF2)) ∧
  (decodeFull 0xE4C08571 = .ok (.ldfe false 5 4 0x726)) ∧
  (decodeFull 0x0A110585 = .ok (.amo false 5 8 4 4 1 0)) ∧
  (decodeFull 0x00ADE291 = .ok (.barArr false 2 0xF 0xB)) ∧
  (decodeFull 0x181A28A1 = .ok (.fadd false 8 0x11 6 3 0)) ∧
  (decodeFull 0x30CDC9A5 = .ok (.fma false 9 0xE 0x13 1 3)) ∧
  (decodeFull 0x1D0DF1AD = .ok (.fcvt false 0x11 0xF 3 4 7 0)) ∧
  (decodeFull 0x0400DFB1 = .ok (.vadd false 7 3 6 0 8)) ∧
  (decodeFull 0x014839C7 = .ok (.vcvt true 1 3 1 9 2)) ∧
  (decodeFull 0x001A66CD = .ok (.vld false 6 0 0x13 6)) ∧
  (decodeFull 0x000063D1 = .ok (.kand false 3 3 0)) ∧
  (decodeFull 0x0181C5E1 = .ok (.missue false 5 0xE)) ∧
  (decodeFull 0x0038A6E9 = .ok (.spawn false 6 5 0xE)) ∧
  (decodeFull 0x000062ED = .ok (.qsend false 2 3)) ∧
  (decodeFull 0x00C032F1 = .ok (.drecv false 0x12 1 0x10)) ∧
  (decodeFull 0x02812CF1 = .ok (.xscan false 0xC 9)) ∧
  (decodeFull 0x0120C5F5 = .ok (.cpy false 5 6 8 2)) ∧
  (decodeFull 0xAD8010F9 = .ok (.sysr false 0x10 0x56C)) ∧
  (decodeFull 0x006D2BF9 = .ok (.wake false 0xB 9)) ∧
  (decodeBookend 0x0001008B = .ok (.bkRd 1 2)) ∧
  (decodeHalf 0x0000 = .error .zeroHalfword) ∧
  (decodeFull 0x0000003D = .error .reservedMajor) ∧
  (decodeFull 0x000C5801 = .error .register) ∧
  (decodeFull 0xAD8030F9 = .error .reservedField) ∧
  (decodeFull 0x15800001 = .error .selector) ∧
  (decodeBookend 0x2031048B = .error .selector)

/-- 02 R45 to R57, 12 R265: decode and encode agree. Every well-formed encoded instruction, with every operand at every value that its
encoding admits, is what the decoder reads from the bytes of its word, whatever bytes follow; a Bookend's own is what a Bookend reads. -/
def Obligations.EncodeDecodeAgree : Prop :=
  ∀ (i : Instr) (w : Nat) (rest : List Byte), WellFormed i → encode i = some w →
    match i with
    | .bkRd .. | .bkWr .. | .bkGet .. | .bkPut .. | .bkWait .. | .bkSig .. => decodeBookend w = .ok i
    | _ => w < 2 ^ (8 * i.size) ∧ decode (leBytes i.size w ++ rest) = .ok (i, rest)
end
end

