-- ==== Sys2Proof/Laws/State.lean ====
section
/-! SUPPORT. One lemma per field per update: what each shared operation of Ops leaves of the state, of a tile and of a thread. -/
namespace Sys2Proof.Machine

/-! ## Updates of the state -/

@[simp] theorem State.store_tiles (s : State) (a : Nat) (bs : List Byte) : (s.store a bs).tiles = s.tiles := rfl
@[simp] theorem State.store_empties (s : State) (a : Nat) (bs : List Byte) : (s.store a bs).empties = s.empties := rfl
@[simp] theorem State.store_poison (s : State) (a : Nat) (bs : List Byte) : (s.store a bs).poison = s.poison := rfl
@[simp] theorem State.store_net (s : State) (a : Nat) (bs : List Byte) : (s.store a bs).net = s.net := rfl
@[simp] theorem State.store_time (s : State) (a : Nat) (bs : List Byte) : (s.store a bs).time = s.time := rfl
@[simp] theorem State.store_mods (s : State) (a : Nat) (bs : List Byte) : (s.store a bs).mods = s.mods := rfl
@[simp] theorem State.store_podSize (s : State) (a : Nat) (bs : List Byte) : (s.store a bs).podSize = s.podSize := rfl
@[simp] theorem State.store_saved (s : State) (a : Nat) (bs : List Byte) : (s.store a bs).saved = s.saved := rfl
@[simp] theorem State.store_episodes (s : State) (a : Nat) (bs : List Byte) : (s.store a bs).episodes = s.episodes := rfl
@[simp] theorem State.store_hostOut (s : State) (a : Nat) (bs : List Byte) : (s.store a bs).hostOut = s.hostOut := rfl
@[simp] theorem State.store_hostWait (s : State) (a : Nat) (bs : List Byte) : (s.store a bs).hostWait = s.hostWait := rfl
@[simp] theorem State.store_cur (s : State) (a : Nat) (bs : List Byte) : (s.store a bs).cur = s.cur := rfl
@[simp] theorem State.store_curBk (s : State) (a : Nat) (bs : List Byte) : (s.store a bs).curBk = s.curBk := rfl
@[simp] theorem State.store_agenda (s : State) (a : Nat) (bs : List Byte) : (s.store a bs).agenda = s.agenda := rfl
@[simp] theorem State.store_fresh (s : State) (a : Nat) (bs : List Byte) : (s.store a bs).fresh = s.fresh := rfl
@[simp] theorem State.store_sent (s : State) (a : Nat) (bs : List Byte) : (s.store a bs).sent = s.sent := rfl

@[simp] theorem State.setDword_tiles (s : State) (a : Nat) (v : Dword) : (s.setDword a v).tiles = s.tiles := rfl
@[simp] theorem State.setDword_empties (s : State) (a : Nat) (v : Dword) : (s.setDword a v).empties = s.empties := rfl
@[simp] theorem State.setDword_poison (s : State) (a : Nat) (v : Dword) : (s.setDword a v).poison = s.poison := rfl
@[simp] theorem State.setDword_net (s : State) (a : Nat) (v : Dword) : (s.setDword a v).net = s.net := rfl
@[simp] theorem State.setDword_time (s : State) (a : Nat) (v : Dword) : (s.setDword a v).time = s.time := rfl
@[simp] theorem State.setDword_mods (s : State) (a : Nat) (v : Dword) : (s.setDword a v).mods = s.mods := rfl
@[simp] theorem State.setDword_podSize (s : State) (a : Nat) (v : Dword) : (s.setDword a v).podSize = s.podSize := rfl
@[simp] theorem State.setDword_saved (s : State) (a : Nat) (v : Dword) : (s.setDword a v).saved = s.saved := rfl
@[simp] theorem State.setDword_episodes (s : State) (a : Nat) (v : Dword) : (s.setDword a v).episodes = s.episodes := rfl
@[simp] theorem State.setDword_hostOut (s : State) (a : Nat) (v : Dword) : (s.setDword a v).hostOut = s.hostOut := rfl
@[simp] theorem State.setDword_hostWait (s : State) (a : Nat) (v : Dword) : (s.setDword a v).hostWait = s.hostWait := rfl
@[simp] theorem State.setDword_cur (s : State) (a : Nat) (v : Dword) : (s.setDword a v).cur = s.cur := rfl
@[simp] theorem State.setDword_curBk (s : State) (a : Nat) (v : Dword) : (s.setDword a v).curBk = s.curBk := rfl
@[simp] theorem State.setDword_agenda (s : State) (a : Nat) (v : Dword) : (s.setDword a v).agenda = s.agenda := rfl
@[simp] theorem State.setDword_fresh (s : State) (a : Nat) (v : Dword) : (s.setDword a v).fresh = s.fresh := rfl
@[simp] theorem State.setDword_sent (s : State) (a : Nat) (v : Dword) : (s.setDword a v).sent = s.sent := rfl

@[simp] theorem State.setEmpty_tiles (s : State) (a : Nat) (e : Bool) : (s.setEmpty a e).tiles = s.tiles := rfl
@[simp] theorem State.setEmpty_mem (s : State) (a : Nat) (e : Bool) : (s.setEmpty a e).mem = s.mem := rfl
@[simp] theorem State.setEmpty_poison (s : State) (a : Nat) (e : Bool) : (s.setEmpty a e).poison = s.poison := rfl
@[simp] theorem State.setEmpty_net (s : State) (a : Nat) (e : Bool) : (s.setEmpty a e).net = s.net := rfl
@[simp] theorem State.setEmpty_time (s : State) (a : Nat) (e : Bool) : (s.setEmpty a e).time = s.time := rfl
@[simp] theorem State.setEmpty_mods (s : State) (a : Nat) (e : Bool) : (s.setEmpty a e).mods = s.mods := rfl
@[simp] theorem State.setEmpty_podSize (s : State) (a : Nat) (e : Bool) : (s.setEmpty a e).podSize = s.podSize := rfl
@[simp] theorem State.setEmpty_saved (s : State) (a : Nat) (e : Bool) : (s.setEmpty a e).saved = s.saved := rfl
@[simp] theorem State.setEmpty_episodes (s : State) (a : Nat) (e : Bool) : (s.setEmpty a e).episodes = s.episodes := rfl
@[simp] theorem State.setEmpty_hostOut (s : State) (a : Nat) (e : Bool) : (s.setEmpty a e).hostOut = s.hostOut := rfl
@[simp] theorem State.setEmpty_hostWait (s : State) (a : Nat) (e : Bool) : (s.setEmpty a e).hostWait = s.hostWait := rfl
@[simp] theorem State.setEmpty_cur (s : State) (a : Nat) (e : Bool) : (s.setEmpty a e).cur = s.cur := rfl
@[simp] theorem State.setEmpty_curBk (s : State) (a : Nat) (e : Bool) : (s.setEmpty a e).curBk = s.curBk := rfl
@[simp] theorem State.setEmpty_agenda (s : State) (a : Nat) (e : Bool) : (s.setEmpty a e).agenda = s.agenda := rfl
@[simp] theorem State.setEmpty_fresh (s : State) (a : Nat) (e : Bool) : (s.setEmpty a e).fresh = s.fresh := rfl
@[simp] theorem State.setEmpty_sent (s : State) (a : Nat) (e : Bool) : (s.setEmpty a e).sent = s.sent := rfl

@[simp] theorem State.setPoison_tiles (s : State) (a : Nat) (e : Bool) : (s.setPoison a e).tiles = s.tiles := rfl
@[simp] theorem State.setPoison_mem (s : State) (a : Nat) (e : Bool) : (s.setPoison a e).mem = s.mem := rfl
@[simp] theorem State.setPoison_empties (s : State) (a : Nat) (e : Bool) : (s.setPoison a e).empties = s.empties := rfl
@[simp] theorem State.setPoison_net (s : State) (a : Nat) (e : Bool) : (s.setPoison a e).net = s.net := rfl
@[simp] theorem State.setPoison_time (s : State) (a : Nat) (e : Bool) : (s.setPoison a e).time = s.time := rfl
@[simp] theorem State.setPoison_mods (s : State) (a : Nat) (e : Bool) : (s.setPoison a e).mods = s.mods := rfl
@[simp] theorem State.setPoison_podSize (s : State) (a : Nat) (e : Bool) : (s.setPoison a e).podSize = s.podSize := rfl
@[simp] theorem State.setPoison_saved (s : State) (a : Nat) (e : Bool) : (s.setPoison a e).saved = s.saved := rfl
@[simp] theorem State.setPoison_episodes (s : State) (a : Nat) (e : Bool) : (s.setPoison a e).episodes = s.episodes := rfl
@[simp] theorem State.setPoison_hostOut (s : State) (a : Nat) (e : Bool) : (s.setPoison a e).hostOut = s.hostOut := rfl
@[simp] theorem State.setPoison_hostWait (s : State) (a : Nat) (e : Bool) : (s.setPoison a e).hostWait = s.hostWait := rfl
@[simp] theorem State.setPoison_cur (s : State) (a : Nat) (e : Bool) : (s.setPoison a e).cur = s.cur := rfl
@[simp] theorem State.setPoison_curBk (s : State) (a : Nat) (e : Bool) : (s.setPoison a e).curBk = s.curBk := rfl
@[simp] theorem State.setPoison_agenda (s : State) (a : Nat) (e : Bool) : (s.setPoison a e).agenda = s.agenda := rfl
@[simp] theorem State.setPoison_fresh (s : State) (a : Nat) (e : Bool) : (s.setPoison a e).fresh = s.fresh := rfl
@[simp] theorem State.setPoison_sent (s : State) (a : Nat) (e : Bool) : (s.setPoison a e).sent = s.sent := rfl

@[simp] theorem State.setModule_tiles (s : State) (n : Nat) (m : Module) : (s.setModule n m).tiles = s.tiles := rfl
@[simp] theorem State.setModule_mem (s : State) (n : Nat) (m : Module) : (s.setModule n m).mem = s.mem := rfl
@[simp] theorem State.setModule_empties (s : State) (n : Nat) (m : Module) : (s.setModule n m).empties = s.empties := rfl
@[simp] theorem State.setModule_poison (s : State) (n : Nat) (m : Module) : (s.setModule n m).poison = s.poison := rfl
@[simp] theorem State.setModule_net (s : State) (n : Nat) (m : Module) : (s.setModule n m).net = s.net := rfl
@[simp] theorem State.setModule_time (s : State) (n : Nat) (m : Module) : (s.setModule n m).time = s.time := rfl
@[simp] theorem State.setModule_podSize (s : State) (n : Nat) (m : Module) : (s.setModule n m).podSize = s.podSize := rfl
@[simp] theorem State.setModule_saved (s : State) (n : Nat) (m : Module) : (s.setModule n m).saved = s.saved := rfl
@[simp] theorem State.setModule_episodes (s : State) (n : Nat) (m : Module) : (s.setModule n m).episodes = s.episodes := rfl
@[simp] theorem State.setModule_hostOut (s : State) (n : Nat) (m : Module) : (s.setModule n m).hostOut = s.hostOut := rfl
@[simp] theorem State.setModule_hostWait (s : State) (n : Nat) (m : Module) : (s.setModule n m).hostWait = s.hostWait := rfl
@[simp] theorem State.setModule_cur (s : State) (n : Nat) (m : Module) : (s.setModule n m).cur = s.cur := rfl
@[simp] theorem State.setModule_curBk (s : State) (n : Nat) (m : Module) : (s.setModule n m).curBk = s.curBk := rfl
@[simp] theorem State.setModule_agenda (s : State) (n : Nat) (m : Module) : (s.setModule n m).agenda = s.agenda := rfl
@[simp] theorem State.setModule_fresh (s : State) (n : Nat) (m : Module) : (s.setModule n m).fresh = s.fresh := rfl
@[simp] theorem State.setModule_sent (s : State) (n : Nat) (m : Module) : (s.setModule n m).sent = s.sent := rfl

@[simp] theorem State.setTile_mem (s : State) (t : Nat) (tl : Tile) : (s.setTile t tl).mem = s.mem := rfl
@[simp] theorem State.setTile_empties (s : State) (t : Nat) (tl : Tile) : (s.setTile t tl).empties = s.empties := rfl
@[simp] theorem State.setTile_poison (s : State) (t : Nat) (tl : Tile) : (s.setTile t tl).poison = s.poison := rfl
@[simp] theorem State.setTile_net (s : State) (t : Nat) (tl : Tile) : (s.setTile t tl).net = s.net := rfl
@[simp] theorem State.setTile_time (s : State) (t : Nat) (tl : Tile) : (s.setTile t tl).time = s.time := rfl
@[simp] theorem State.setTile_mods (s : State) (t : Nat) (tl : Tile) : (s.setTile t tl).mods = s.mods := rfl
@[simp] theorem State.setTile_podSize (s : State) (t : Nat) (tl : Tile) : (s.setTile t tl).podSize = s.podSize := rfl
@[simp] theorem State.setTile_saved (s : State) (t : Nat) (tl : Tile) : (s.setTile t tl).saved = s.saved := rfl
@[simp] theorem State.setTile_episodes (s : State) (t : Nat) (tl : Tile) : (s.setTile t tl).episodes = s.episodes := rfl
@[simp] theorem State.setTile_hostOut (s : State) (t : Nat) (tl : Tile) : (s.setTile t tl).hostOut = s.hostOut := rfl
@[simp] theorem State.setTile_hostWait (s : State) (t : Nat) (tl : Tile) : (s.setTile t tl).hostWait = s.hostWait := rfl
@[simp] theorem State.setTile_cur (s : State) (t : Nat) (tl : Tile) : (s.setTile t tl).cur = s.cur := rfl
@[simp] theorem State.setTile_curBk (s : State) (t : Nat) (tl : Tile) : (s.setTile t tl).curBk = s.curBk := rfl
@[simp] theorem State.setTile_agenda (s : State) (t : Nat) (tl : Tile) : (s.setTile t tl).agenda = s.agenda := rfl
@[simp] theorem State.setTile_fresh (s : State) (t : Nat) (tl : Tile) : (s.setTile t tl).fresh = s.fresh := rfl
@[simp] theorem State.setTile_sent (s : State) (t : Nat) (tl : Tile) : (s.setTile t tl).sent = s.sent := rfl

@[simp] theorem State.mapTile_mem (s : State) (t : Nat) (f : Tile → Tile) : (s.mapTile t f).mem = s.mem := rfl
@[simp] theorem State.mapTile_empties (s : State) (t : Nat) (f : Tile → Tile) : (s.mapTile t f).empties = s.empties := rfl
@[simp] theorem State.mapTile_poison (s : State) (t : Nat) (f : Tile → Tile) : (s.mapTile t f).poison = s.poison := rfl
@[simp] theorem State.mapTile_net (s : State) (t : Nat) (f : Tile → Tile) : (s.mapTile t f).net = s.net := rfl
@[simp] theorem State.mapTile_time (s : State) (t : Nat) (f : Tile → Tile) : (s.mapTile t f).time = s.time := rfl
@[simp] theorem State.mapTile_mods (s : State) (t : Nat) (f : Tile → Tile) : (s.mapTile t f).mods = s.mods := rfl
@[simp] theorem State.mapTile_podSize (s : State) (t : Nat) (f : Tile → Tile) : (s.mapTile t f).podSize = s.podSize := rfl
@[simp] theorem State.mapTile_saved (s : State) (t : Nat) (f : Tile → Tile) : (s.mapTile t f).saved = s.saved := rfl
@[simp] theorem State.mapTile_episodes (s : State) (t : Nat) (f : Tile → Tile) : (s.mapTile t f).episodes = s.episodes := rfl
@[simp] theorem State.mapTile_hostOut (s : State) (t : Nat) (f : Tile → Tile) : (s.mapTile t f).hostOut = s.hostOut := rfl
@[simp] theorem State.mapTile_hostWait (s : State) (t : Nat) (f : Tile → Tile) : (s.mapTile t f).hostWait = s.hostWait := rfl
@[simp] theorem State.mapTile_cur (s : State) (t : Nat) (f : Tile → Tile) : (s.mapTile t f).cur = s.cur := rfl
@[simp] theorem State.mapTile_curBk (s : State) (t : Nat) (f : Tile → Tile) : (s.mapTile t f).curBk = s.curBk := rfl
@[simp] theorem State.mapTile_agenda (s : State) (t : Nat) (f : Tile → Tile) : (s.mapTile t f).agenda = s.agenda := rfl
@[simp] theorem State.mapTile_fresh (s : State) (t : Nat) (f : Tile → Tile) : (s.mapTile t f).fresh = s.fresh := rfl
@[simp] theorem State.mapTile_sent (s : State) (t : Nat) (f : Tile → Tile) : (s.mapTile t f).sent = s.sent := rfl

@[simp] theorem State.setThread_mem (s : State) (t c k : Nat) (th : Thread) : (s.setThread t c k th).mem = s.mem := rfl
@[simp] theorem State.setThread_empties (s : State) (t c k : Nat) (th : Thread) : (s.setThread t c k th).empties = s.empties := rfl
@[simp] theorem State.setThread_poison (s : State) (t c k : Nat) (th : Thread) : (s.setThread t c k th).poison = s.poison := rfl
@[simp] theorem State.setThread_net (s : State) (t c k : Nat) (th : Thread) : (s.setThread t c k th).net = s.net := rfl
@[simp] theorem State.setThread_time (s : State) (t c k : Nat) (th : Thread) : (s.setThread t c k th).time = s.time := rfl
@[simp] theorem State.setThread_mods (s : State) (t c k : Nat) (th : Thread) : (s.setThread t c k th).mods = s.mods := rfl
@[simp] theorem State.setThread_podSize (s : State) (t c k : Nat) (th : Thread) : (s.setThread t c k th).podSize = s.podSize := rfl
@[simp] theorem State.setThread_saved (s : State) (t c k : Nat) (th : Thread) : (s.setThread t c k th).saved = s.saved := rfl
@[simp] theorem State.setThread_episodes (s : State) (t c k : Nat) (th : Thread) : (s.setThread t c k th).episodes = s.episodes := rfl
@[simp] theorem State.setThread_hostOut (s : State) (t c k : Nat) (th : Thread) : (s.setThread t c k th).hostOut = s.hostOut := rfl
@[simp] theorem State.setThread_hostWait (s : State) (t c k : Nat) (th : Thread) : (s.setThread t c k th).hostWait = s.hostWait := rfl
@[simp] theorem State.setThread_cur (s : State) (t c k : Nat) (th : Thread) : (s.setThread t c k th).cur = s.cur := rfl
@[simp] theorem State.setThread_curBk (s : State) (t c k : Nat) (th : Thread) : (s.setThread t c k th).curBk = s.curBk := rfl
@[simp] theorem State.setThread_agenda (s : State) (t c k : Nat) (th : Thread) : (s.setThread t c k th).agenda = s.agenda := rfl
@[simp] theorem State.setThread_fresh (s : State) (t c k : Nat) (th : Thread) : (s.setThread t c k th).fresh = s.fresh := rfl
@[simp] theorem State.setThread_sent (s : State) (t c k : Nat) (th : Thread) : (s.setThread t c k th).sent = s.sent := rfl

@[simp] theorem State.setMe_mem (s : State) (th : Thread) : (s.setMe th).mem = s.mem := rfl
@[simp] theorem State.setMe_empties (s : State) (th : Thread) : (s.setMe th).empties = s.empties := rfl
@[simp] theorem State.setMe_poison (s : State) (th : Thread) : (s.setMe th).poison = s.poison := rfl
@[simp] theorem State.setMe_net (s : State) (th : Thread) : (s.setMe th).net = s.net := rfl
@[simp] theorem State.setMe_time (s : State) (th : Thread) : (s.setMe th).time = s.time := rfl
@[simp] theorem State.setMe_mods (s : State) (th : Thread) : (s.setMe th).mods = s.mods := rfl
@[simp] theorem State.setMe_podSize (s : State) (th : Thread) : (s.setMe th).podSize = s.podSize := rfl
@[simp] theorem State.setMe_saved (s : State) (th : Thread) : (s.setMe th).saved = s.saved := rfl
@[simp] theorem State.setMe_episodes (s : State) (th : Thread) : (s.setMe th).episodes = s.episodes := rfl
@[simp] theorem State.setMe_hostOut (s : State) (th : Thread) : (s.setMe th).hostOut = s.hostOut := rfl
@[simp] theorem State.setMe_hostWait (s : State) (th : Thread) : (s.setMe th).hostWait = s.hostWait := rfl
@[simp] theorem State.setMe_cur (s : State) (th : Thread) : (s.setMe th).cur = s.cur := rfl
@[simp] theorem State.setMe_curBk (s : State) (th : Thread) : (s.setMe th).curBk = s.curBk := rfl
@[simp] theorem State.setMe_agenda (s : State) (th : Thread) : (s.setMe th).agenda = s.agenda := rfl
@[simp] theorem State.setMe_fresh (s : State) (th : Thread) : (s.setMe th).fresh = s.fresh := rfl
@[simp] theorem State.setMe_sent (s : State) (th : Thread) : (s.setMe th).sent = s.sent := rfl

@[simp] theorem State.count_mem (s : State) (t n by_ : Nat) : (s.count t n by_).mem = s.mem := rfl
@[simp] theorem State.count_empties (s : State) (t n by_ : Nat) : (s.count t n by_).empties = s.empties := rfl
@[simp] theorem State.count_poison (s : State) (t n by_ : Nat) : (s.count t n by_).poison = s.poison := rfl
@[simp] theorem State.count_net (s : State) (t n by_ : Nat) : (s.count t n by_).net = s.net := rfl
@[simp] theorem State.count_time (s : State) (t n by_ : Nat) : (s.count t n by_).time = s.time := rfl
@[simp] theorem State.count_mods (s : State) (t n by_ : Nat) : (s.count t n by_).mods = s.mods := rfl
@[simp] theorem State.count_podSize (s : State) (t n by_ : Nat) : (s.count t n by_).podSize = s.podSize := rfl
@[simp] theorem State.count_saved (s : State) (t n by_ : Nat) : (s.count t n by_).saved = s.saved := rfl
@[simp] theorem State.count_episodes (s : State) (t n by_ : Nat) : (s.count t n by_).episodes = s.episodes := rfl
@[simp] theorem State.count_hostOut (s : State) (t n by_ : Nat) : (s.count t n by_).hostOut = s.hostOut := rfl
@[simp] theorem State.count_hostWait (s : State) (t n by_ : Nat) : (s.count t n by_).hostWait = s.hostWait := rfl
@[simp] theorem State.count_cur (s : State) (t n by_ : Nat) : (s.count t n by_).cur = s.cur := rfl
@[simp] theorem State.count_curBk (s : State) (t n by_ : Nat) : (s.count t n by_).curBk = s.curBk := rfl
@[simp] theorem State.count_agenda (s : State) (t n by_ : Nat) : (s.count t n by_).agenda = s.agenda := rfl
@[simp] theorem State.count_fresh (s : State) (t n by_ : Nat) : (s.count t n by_).fresh = s.fresh := rfl
@[simp] theorem State.count_sent (s : State) (t n by_ : Nat) : (s.count t n by_).sent = s.sent := rfl

@[simp] theorem State.issued_mem (s : State) (th : Thread) : (s.issued th).mem = s.mem := rfl
@[simp] theorem State.issued_empties (s : State) (th : Thread) : (s.issued th).empties = s.empties := rfl
@[simp] theorem State.issued_poison (s : State) (th : Thread) : (s.issued th).poison = s.poison := rfl
@[simp] theorem State.issued_net (s : State) (th : Thread) : (s.issued th).net = s.net := rfl
@[simp] theorem State.issued_time (s : State) (th : Thread) : (s.issued th).time = s.time := rfl
@[simp] theorem State.issued_mods (s : State) (th : Thread) : (s.issued th).mods = s.mods := rfl
@[simp] theorem State.issued_podSize (s : State) (th : Thread) : (s.issued th).podSize = s.podSize := rfl
@[simp] theorem State.issued_saved (s : State) (th : Thread) : (s.issued th).saved = s.saved := rfl
@[simp] theorem State.issued_episodes (s : State) (th : Thread) : (s.issued th).episodes = s.episodes := rfl
@[simp] theorem State.issued_hostOut (s : State) (th : Thread) : (s.issued th).hostOut = s.hostOut := rfl
@[simp] theorem State.issued_hostWait (s : State) (th : Thread) : (s.issued th).hostWait = s.hostWait := rfl
@[simp] theorem State.issued_cur (s : State) (th : Thread) : (s.issued th).cur = s.cur := rfl
@[simp] theorem State.issued_curBk (s : State) (th : Thread) : (s.issued th).curBk = s.curBk := rfl
@[simp] theorem State.issued_agenda (s : State) (th : Thread) : (s.issued th).agenda = s.agenda := rfl
@[simp] theorem State.issued_fresh (s : State) (th : Thread) : (s.issued th).fresh = s.fresh := rfl
@[simp] theorem State.issued_sent (s : State) (th : Thread) : (s.issued th).sent = s.sent := rfl

@[simp] theorem State.retire_mem (s : State) (n : Nat) (th : Thread) : (s.retire n th).mem = s.mem := rfl
@[simp] theorem State.retire_empties (s : State) (n : Nat) (th : Thread) : (s.retire n th).empties = s.empties := rfl
@[simp] theorem State.retire_poison (s : State) (n : Nat) (th : Thread) : (s.retire n th).poison = s.poison := rfl
@[simp] theorem State.retire_net (s : State) (n : Nat) (th : Thread) : (s.retire n th).net = s.net := rfl
@[simp] theorem State.retire_time (s : State) (n : Nat) (th : Thread) : (s.retire n th).time = s.time := rfl
@[simp] theorem State.retire_mods (s : State) (n : Nat) (th : Thread) : (s.retire n th).mods = s.mods := rfl
@[simp] theorem State.retire_podSize (s : State) (n : Nat) (th : Thread) : (s.retire n th).podSize = s.podSize := rfl
@[simp] theorem State.retire_saved (s : State) (n : Nat) (th : Thread) : (s.retire n th).saved = s.saved := rfl
@[simp] theorem State.retire_episodes (s : State) (n : Nat) (th : Thread) : (s.retire n th).episodes = s.episodes := rfl
@[simp] theorem State.retire_hostOut (s : State) (n : Nat) (th : Thread) : (s.retire n th).hostOut = s.hostOut := rfl
@[simp] theorem State.retire_hostWait (s : State) (n : Nat) (th : Thread) : (s.retire n th).hostWait = s.hostWait := rfl
@[simp] theorem State.retire_cur (s : State) (n : Nat) (th : Thread) : (s.retire n th).cur = s.cur := rfl
@[simp] theorem State.retire_curBk (s : State) (n : Nat) (th : Thread) : (s.retire n th).curBk = s.curBk := rfl
@[simp] theorem State.retire_agenda (s : State) (n : Nat) (th : Thread) : (s.retire n th).agenda = s.agenda := rfl
@[simp] theorem State.retire_fresh (s : State) (n : Nat) (th : Thread) : (s.retire n th).fresh = s.fresh := rfl
@[simp] theorem State.retire_sent (s : State) (n : Nat) (th : Thread) : (s.retire n th).sent = s.sent := rfl

@[simp] theorem State.bb_mem (s : State) (t kind detail : Nat) (tid : BitVec 32) (c k : Nat) : (s.bb t kind detail tid c k).mem = s.mem := rfl
@[simp] theorem State.bb_empties (s : State) (t kind detail : Nat) (tid : BitVec 32) (c k : Nat) : (s.bb t kind detail tid c k).empties = s.empties := rfl
@[simp] theorem State.bb_poison (s : State) (t kind detail : Nat) (tid : BitVec 32) (c k : Nat) : (s.bb t kind detail tid c k).poison = s.poison := rfl
@[simp] theorem State.bb_net (s : State) (t kind detail : Nat) (tid : BitVec 32) (c k : Nat) : (s.bb t kind detail tid c k).net = s.net := rfl
@[simp] theorem State.bb_time (s : State) (t kind detail : Nat) (tid : BitVec 32) (c k : Nat) : (s.bb t kind detail tid c k).time = s.time := rfl
@[simp] theorem State.bb_mods (s : State) (t kind detail : Nat) (tid : BitVec 32) (c k : Nat) : (s.bb t kind detail tid c k).mods = s.mods := rfl
@[simp] theorem State.bb_podSize (s : State) (t kind detail : Nat) (tid : BitVec 32) (c k : Nat) : (s.bb t kind detail tid c k).podSize = s.podSize := rfl
@[simp] theorem State.bb_saved (s : State) (t kind detail : Nat) (tid : BitVec 32) (c k : Nat) : (s.bb t kind detail tid c k).saved = s.saved := rfl
@[simp] theorem State.bb_episodes (s : State) (t kind detail : Nat) (tid : BitVec 32) (c k : Nat) : (s.bb t kind detail tid c k).episodes = s.episodes := rfl
@[simp] theorem State.bb_hostOut (s : State) (t kind detail : Nat) (tid : BitVec 32) (c k : Nat) : (s.bb t kind detail tid c k).hostOut = s.hostOut := rfl
@[simp] theorem State.bb_hostWait (s : State) (t kind detail : Nat) (tid : BitVec 32) (c k : Nat) : (s.bb t kind detail tid c k).hostWait = s.hostWait := rfl
@[simp] theorem State.bb_cur (s : State) (t kind detail : Nat) (tid : BitVec 32) (c k : Nat) : (s.bb t kind detail tid c k).cur = s.cur := rfl
@[simp] theorem State.bb_curBk (s : State) (t kind detail : Nat) (tid : BitVec 32) (c k : Nat) : (s.bb t kind detail tid c k).curBk = s.curBk := rfl
@[simp] theorem State.bb_agenda (s : State) (t kind detail : Nat) (tid : BitVec 32) (c k : Nat) : (s.bb t kind detail tid c k).agenda = s.agenda := rfl
@[simp] theorem State.bb_fresh (s : State) (t kind detail : Nat) (tid : BitVec 32) (c k : Nat) : (s.bb t kind detail tid c k).fresh = s.fresh := rfl
@[simp] theorem State.bb_sent (s : State) (t kind detail : Nat) (tid : BitVec 32) (c k : Nat) : (s.bb t kind detail tid c k).sent = s.sent := rfl

@[simp] theorem State.hold_mem (s : State) (h : Hold) : (s.hold h).mem = s.mem := rfl
@[simp] theorem State.hold_empties (s : State) (h : Hold) : (s.hold h).empties = s.empties := rfl
@[simp] theorem State.hold_poison (s : State) (h : Hold) : (s.hold h).poison = s.poison := rfl
@[simp] theorem State.hold_net (s : State) (h : Hold) : (s.hold h).net = s.net := rfl
@[simp] theorem State.hold_time (s : State) (h : Hold) : (s.hold h).time = s.time := rfl
@[simp] theorem State.hold_mods (s : State) (h : Hold) : (s.hold h).mods = s.mods := rfl
@[simp] theorem State.hold_podSize (s : State) (h : Hold) : (s.hold h).podSize = s.podSize := rfl
@[simp] theorem State.hold_saved (s : State) (h : Hold) : (s.hold h).saved = s.saved := rfl
@[simp] theorem State.hold_episodes (s : State) (h : Hold) : (s.hold h).episodes = s.episodes := rfl
@[simp] theorem State.hold_hostOut (s : State) (h : Hold) : (s.hold h).hostOut = s.hostOut := rfl
@[simp] theorem State.hold_hostWait (s : State) (h : Hold) : (s.hold h).hostWait = s.hostWait := rfl
@[simp] theorem State.hold_cur (s : State) (h : Hold) : (s.hold h).cur = s.cur := rfl
@[simp] theorem State.hold_curBk (s : State) (h : Hold) : (s.hold h).curBk = s.curBk := rfl
@[simp] theorem State.hold_agenda (s : State) (h : Hold) : (s.hold h).agenda = s.agenda := rfl
@[simp] theorem State.hold_fresh (s : State) (h : Hold) : (s.hold h).fresh = s.fresh := rfl
@[simp] theorem State.hold_sent (s : State) (h : Hold) : (s.hold h).sent = s.sent := rfl

@[simp] theorem State.forfeit_mem (s : State) : (s.forfeit).mem = s.mem := rfl
@[simp] theorem State.forfeit_empties (s : State) : (s.forfeit).empties = s.empties := rfl
@[simp] theorem State.forfeit_poison (s : State) : (s.forfeit).poison = s.poison := rfl
@[simp] theorem State.forfeit_net (s : State) : (s.forfeit).net = s.net := rfl
@[simp] theorem State.forfeit_time (s : State) : (s.forfeit).time = s.time := rfl
@[simp] theorem State.forfeit_mods (s : State) : (s.forfeit).mods = s.mods := rfl
@[simp] theorem State.forfeit_podSize (s : State) : (s.forfeit).podSize = s.podSize := rfl
@[simp] theorem State.forfeit_saved (s : State) : (s.forfeit).saved = s.saved := rfl
@[simp] theorem State.forfeit_episodes (s : State) : (s.forfeit).episodes = s.episodes := rfl
@[simp] theorem State.forfeit_hostOut (s : State) : (s.forfeit).hostOut = s.hostOut := rfl
@[simp] theorem State.forfeit_hostWait (s : State) : (s.forfeit).hostWait = s.hostWait := rfl
@[simp] theorem State.forfeit_cur (s : State) : (s.forfeit).cur = s.cur := rfl
@[simp] theorem State.forfeit_curBk (s : State) : (s.forfeit).curBk = s.curBk := rfl
@[simp] theorem State.forfeit_agenda (s : State) : (s.forfeit).agenda = s.agenda := rfl
@[simp] theorem State.forfeit_fresh (s : State) : (s.forfeit).fresh = s.fresh := rfl
@[simp] theorem State.forfeit_sent (s : State) : (s.forfeit).sent = s.sent := rfl

@[simp] theorem State.report_tiles (s : State) (md kind what : Nat) : (s.report md kind what).tiles = s.tiles := rfl
@[simp] theorem State.report_mem (s : State) (md kind what : Nat) : (s.report md kind what).mem = s.mem := rfl
@[simp] theorem State.report_empties (s : State) (md kind what : Nat) : (s.report md kind what).empties = s.empties := rfl
@[simp] theorem State.report_poison (s : State) (md kind what : Nat) : (s.report md kind what).poison = s.poison := rfl
@[simp] theorem State.report_net (s : State) (md kind what : Nat) : (s.report md kind what).net = s.net := rfl
@[simp] theorem State.report_time (s : State) (md kind what : Nat) : (s.report md kind what).time = s.time := rfl
@[simp] theorem State.report_podSize (s : State) (md kind what : Nat) : (s.report md kind what).podSize = s.podSize := rfl
@[simp] theorem State.report_saved (s : State) (md kind what : Nat) : (s.report md kind what).saved = s.saved := rfl
@[simp] theorem State.report_episodes (s : State) (md kind what : Nat) : (s.report md kind what).episodes = s.episodes := rfl
@[simp] theorem State.report_hostOut (s : State) (md kind what : Nat) : (s.report md kind what).hostOut = s.hostOut := rfl
@[simp] theorem State.report_hostWait (s : State) (md kind what : Nat) : (s.report md kind what).hostWait = s.hostWait := rfl
@[simp] theorem State.report_cur (s : State) (md kind what : Nat) : (s.report md kind what).cur = s.cur := rfl
@[simp] theorem State.report_curBk (s : State) (md kind what : Nat) : (s.report md kind what).curBk = s.curBk := rfl
@[simp] theorem State.report_agenda (s : State) (md kind what : Nat) : (s.report md kind what).agenda = s.agenda := rfl
@[simp] theorem State.report_fresh (s : State) (md kind what : Nat) : (s.report md kind what).fresh = s.fresh := rfl
@[simp] theorem State.report_sent (s : State) (md kind what : Nat) : (s.report md kind what).sent = s.sent := rfl

@[simp] theorem State.send_tiles (s : State) (cls src dst asid len : Nat) (body : Payload) : (s.send cls src dst asid len body).tiles = s.tiles := rfl
@[simp] theorem State.send_mem (s : State) (cls src dst asid len : Nat) (body : Payload) : (s.send cls src dst asid len body).mem = s.mem := rfl
@[simp] theorem State.send_empties (s : State) (cls src dst asid len : Nat) (body : Payload) : (s.send cls src dst asid len body).empties = s.empties := rfl
@[simp] theorem State.send_poison (s : State) (cls src dst asid len : Nat) (body : Payload) : (s.send cls src dst asid len body).poison = s.poison := rfl
@[simp] theorem State.send_time (s : State) (cls src dst asid len : Nat) (body : Payload) : (s.send cls src dst asid len body).time = s.time := rfl
@[simp] theorem State.send_mods (s : State) (cls src dst asid len : Nat) (body : Payload) : (s.send cls src dst asid len body).mods = s.mods := rfl
@[simp] theorem State.send_podSize (s : State) (cls src dst asid len : Nat) (body : Payload) : (s.send cls src dst asid len body).podSize = s.podSize := rfl
@[simp] theorem State.send_saved (s : State) (cls src dst asid len : Nat) (body : Payload) : (s.send cls src dst asid len body).saved = s.saved := rfl
@[simp] theorem State.send_episodes (s : State) (cls src dst asid len : Nat) (body : Payload) : (s.send cls src dst asid len body).episodes = s.episodes := rfl
@[simp] theorem State.send_hostOut (s : State) (cls src dst asid len : Nat) (body : Payload) : (s.send cls src dst asid len body).hostOut = s.hostOut := rfl
@[simp] theorem State.send_hostWait (s : State) (cls src dst asid len : Nat) (body : Payload) : (s.send cls src dst asid len body).hostWait = s.hostWait := rfl
@[simp] theorem State.send_cur (s : State) (cls src dst asid len : Nat) (body : Payload) : (s.send cls src dst asid len body).cur = s.cur := rfl
@[simp] theorem State.send_curBk (s : State) (cls src dst asid len : Nat) (body : Payload) : (s.send cls src dst asid len body).curBk = s.curBk := rfl
@[simp] theorem State.send_agenda (s : State) (cls src dst asid len : Nat) (body : Payload) : (s.send cls src dst asid len body).agenda = s.agenda := rfl
@[simp] theorem State.send_fresh (s : State) (cls src dst asid len : Nat) (body : Payload) : (s.send cls src dst asid len body).fresh = s.fresh := rfl

@[simp] theorem State.dropPacket_tiles (s : State) (n : Nat) : (s.dropPacket n).tiles = s.tiles := rfl
@[simp] theorem State.dropPacket_mem (s : State) (n : Nat) : (s.dropPacket n).mem = s.mem := rfl
@[simp] theorem State.dropPacket_empties (s : State) (n : Nat) : (s.dropPacket n).empties = s.empties := rfl
@[simp] theorem State.dropPacket_poison (s : State) (n : Nat) : (s.dropPacket n).poison = s.poison := rfl
@[simp] theorem State.dropPacket_time (s : State) (n : Nat) : (s.dropPacket n).time = s.time := rfl
@[simp] theorem State.dropPacket_mods (s : State) (n : Nat) : (s.dropPacket n).mods = s.mods := rfl
@[simp] theorem State.dropPacket_podSize (s : State) (n : Nat) : (s.dropPacket n).podSize = s.podSize := rfl
@[simp] theorem State.dropPacket_saved (s : State) (n : Nat) : (s.dropPacket n).saved = s.saved := rfl
@[simp] theorem State.dropPacket_episodes (s : State) (n : Nat) : (s.dropPacket n).episodes = s.episodes := rfl
@[simp] theorem State.dropPacket_hostOut (s : State) (n : Nat) : (s.dropPacket n).hostOut = s.hostOut := rfl
@[simp] theorem State.dropPacket_hostWait (s : State) (n : Nat) : (s.dropPacket n).hostWait = s.hostWait := rfl
@[simp] theorem State.dropPacket_cur (s : State) (n : Nat) : (s.dropPacket n).cur = s.cur := rfl
@[simp] theorem State.dropPacket_curBk (s : State) (n : Nat) : (s.dropPacket n).curBk = s.curBk := rfl
@[simp] theorem State.dropPacket_agenda (s : State) (n : Nat) : (s.dropPacket n).agenda = s.agenda := rfl
@[simp] theorem State.dropPacket_fresh (s : State) (n : Nat) : (s.dropPacket n).fresh = s.fresh := rfl
@[simp] theorem State.dropPacket_sent (s : State) (n : Nat) : (s.dropPacket n).sent = s.sent := rfl

@[simp] theorem State.trapAt_mem (s : State) (t c k : Nat) (cause : BitVec 8) (v : Dword) (epc : CodeAddr) : (s.trapAt t c k cause v epc).mem = s.mem := by
  unfold State.trapAt; simp only []; split; rfl; split <;> rfl
@[simp] theorem State.trapAt_empties (s : State) (t c k : Nat) (cause : BitVec 8) (v : Dword) (epc : CodeAddr) : (s.trapAt t c k cause v epc).empties = s.empties := by
  unfold State.trapAt; simp only []; split; rfl; split <;> rfl
@[simp] theorem State.trapAt_poison (s : State) (t c k : Nat) (cause : BitVec 8) (v : Dword) (epc : CodeAddr) : (s.trapAt t c k cause v epc).poison = s.poison := by
  unfold State.trapAt; simp only []; split; rfl; split <;> rfl
@[simp] theorem State.trapAt_net (s : State) (t c k : Nat) (cause : BitVec 8) (v : Dword) (epc : CodeAddr) : (s.trapAt t c k cause v epc).net = s.net := by
  unfold State.trapAt; simp only []; split; rfl; split <;> rfl
@[simp] theorem State.trapAt_time (s : State) (t c k : Nat) (cause : BitVec 8) (v : Dword) (epc : CodeAddr) : (s.trapAt t c k cause v epc).time = s.time := by
  unfold State.trapAt; simp only []; split; rfl; split <;> rfl
@[simp] theorem State.trapAt_mods (s : State) (t c k : Nat) (cause : BitVec 8) (v : Dword) (epc : CodeAddr) : (s.trapAt t c k cause v epc).mods = s.mods := by
  unfold State.trapAt; simp only []; split; rfl; split <;> rfl
@[simp] theorem State.trapAt_podSize (s : State) (t c k : Nat) (cause : BitVec 8) (v : Dword) (epc : CodeAddr) : (s.trapAt t c k cause v epc).podSize = s.podSize := by
  unfold State.trapAt; simp only []; split; rfl; split <;> rfl
@[simp] theorem State.trapAt_saved (s : State) (t c k : Nat) (cause : BitVec 8) (v : Dword) (epc : CodeAddr) : (s.trapAt t c k cause v epc).saved = s.saved := by
  unfold State.trapAt; simp only []; split; rfl; split <;> rfl
@[simp] theorem State.trapAt_episodes (s : State) (t c k : Nat) (cause : BitVec 8) (v : Dword) (epc : CodeAddr) : (s.trapAt t c k cause v epc).episodes = s.episodes := by
  unfold State.trapAt; simp only []; split; rfl; split <;> rfl
@[simp] theorem State.trapAt_hostOut (s : State) (t c k : Nat) (cause : BitVec 8) (v : Dword) (epc : CodeAddr) : (s.trapAt t c k cause v epc).hostOut = s.hostOut := by
  unfold State.trapAt; simp only []; split; rfl; split <;> rfl
@[simp] theorem State.trapAt_hostWait (s : State) (t c k : Nat) (cause : BitVec 8) (v : Dword) (epc : CodeAddr) : (s.trapAt t c k cause v epc).hostWait = s.hostWait := by
  unfold State.trapAt; simp only []; split; rfl; split <;> rfl
@[simp] theorem State.trapAt_cur (s : State) (t c k : Nat) (cause : BitVec 8) (v : Dword) (epc : CodeAddr) : (s.trapAt t c k cause v epc).cur = s.cur := by
  unfold State.trapAt; simp only []; split; rfl; split <;> rfl
@[simp] theorem State.trapAt_curBk (s : State) (t c k : Nat) (cause : BitVec 8) (v : Dword) (epc : CodeAddr) : (s.trapAt t c k cause v epc).curBk = s.curBk := by
  unfold State.trapAt; simp only []; split; rfl; split <;> rfl
@[simp] theorem State.trapAt_agenda (s : State) (t c k : Nat) (cause : BitVec 8) (v : Dword) (epc : CodeAddr) : (s.trapAt t c k cause v epc).agenda = s.agenda := by
  unfold State.trapAt; simp only []; split; rfl; split <;> rfl
@[simp] theorem State.trapAt_fresh (s : State) (t c k : Nat) (cause : BitVec 8) (v : Dword) (epc : CodeAddr) : (s.trapAt t c k cause v epc).fresh = s.fresh := by
  unfold State.trapAt; simp only []; split; rfl; split <;> rfl
@[simp] theorem State.trapAt_sent (s : State) (t c k : Nat) (cause : BitVec 8) (v : Dword) (epc : CodeAddr) : (s.trapAt t c k cause v epc).sent = s.sent := by
  unfold State.trapAt; simp only []; split; rfl; split <;> rfl

@[simp] theorem State.trap_mem (s : State) (cause : BitVec 8) (v : Dword) : (s.trap cause v).mem = s.mem := by
  simp [State.trap]
@[simp] theorem State.trap_empties (s : State) (cause : BitVec 8) (v : Dword) : (s.trap cause v).empties = s.empties := by
  simp [State.trap]
@[simp] theorem State.trap_poison (s : State) (cause : BitVec 8) (v : Dword) : (s.trap cause v).poison = s.poison := by
  simp [State.trap]
@[simp] theorem State.trap_net (s : State) (cause : BitVec 8) (v : Dword) : (s.trap cause v).net = s.net := by
  simp [State.trap]
@[simp] theorem State.trap_time (s : State) (cause : BitVec 8) (v : Dword) : (s.trap cause v).time = s.time := by
  simp [State.trap]
@[simp] theorem State.trap_mods (s : State) (cause : BitVec 8) (v : Dword) : (s.trap cause v).mods = s.mods := by
  simp [State.trap]
@[simp] theorem State.trap_podSize (s : State) (cause : BitVec 8) (v : Dword) : (s.trap cause v).podSize = s.podSize := by
  simp [State.trap]
@[simp] theorem State.trap_saved (s : State) (cause : BitVec 8) (v : Dword) : (s.trap cause v).saved = s.saved := by
  simp [State.trap]
@[simp] theorem State.trap_episodes (s : State) (cause : BitVec 8) (v : Dword) : (s.trap cause v).episodes = s.episodes := by
  simp [State.trap]
@[simp] theorem State.trap_hostOut (s : State) (cause : BitVec 8) (v : Dword) : (s.trap cause v).hostOut = s.hostOut := by
  simp [State.trap]
@[simp] theorem State.trap_hostWait (s : State) (cause : BitVec 8) (v : Dword) : (s.trap cause v).hostWait = s.hostWait := by
  simp [State.trap]
@[simp] theorem State.trap_cur (s : State) (cause : BitVec 8) (v : Dword) : (s.trap cause v).cur = s.cur := by
  simp [State.trap]
@[simp] theorem State.trap_curBk (s : State) (cause : BitVec 8) (v : Dword) : (s.trap cause v).curBk = s.curBk := by
  simp [State.trap]
@[simp] theorem State.trap_agenda (s : State) (cause : BitVec 8) (v : Dword) : (s.trap cause v).agenda = s.agenda := by
  simp [State.trap]
@[simp] theorem State.trap_fresh (s : State) (cause : BitVec 8) (v : Dword) : (s.trap cause v).fresh = s.fresh := by
  simp [State.trap]
@[simp] theorem State.trap_sent (s : State) (cause : BitVec 8) (v : Dword) : (s.trap cause v).sent = s.sent := by
  simp [State.trap]

/-! ## Updates of a tile -/

@[simp] theorem Tile.setCore_name (tl : Tile) (c : Nat) (k : Core) : (tl.setCore c k).name = tl.name := rfl
@[simp] theorem Tile.setCore_slotsReg (tl : Tile) (c : Nat) (k : Core) : (tl.setCore c k).slotsReg = tl.slotsReg := rfl
@[simp] theorem Tile.setCore_vweight (tl : Tile) (c : Nat) (k : Core) : (tl.setCore c k).vweight = tl.vweight := rfl
@[simp] theorem Tile.setCore_tasktab (tl : Tile) (c : Nat) (k : Core) : (tl.setCore c k).tasktab = tl.tasktab := rfl
@[simp] theorem Tile.setCore_scratchReg (tl : Tile) (c : Nat) (k : Core) : (tl.setCore c k).scratchReg = tl.scratchReg := rfl
@[simp] theorem Tile.setCore_hbarcnt (tl : Tile) (c : Nat) (k : Core) : (tl.setCore c k).hbarcnt = tl.hbarcnt := rfl
@[simp] theorem Tile.setCore_segValid (tl : Tile) (c : Nat) (k : Core) : (tl.setCore c k).segValid = tl.segValid := rfl
@[simp] theorem Tile.setCore_asid (tl : Tile) (c : Nat) (k : Core) : (tl.setCore c k).asid = tl.asid := rfl
@[simp] theorem Tile.setCore_ptroot (tl : Tile) (c : Nat) (k : Core) : (tl.setCore c k).ptroot = tl.ptroot := rfl
@[simp] theorem Tile.setCore_faultq (tl : Tile) (c : Nat) (k : Core) : (tl.setCore c k).faultq = tl.faultq := rfl
@[simp] theorem Tile.setCore_gangstop (tl : Tile) (c : Nat) (k : Core) : (tl.setCore c k).gangstop = tl.gangstop := rfl
@[simp] theorem Tile.setCore_quota (tl : Tile) (c : Nat) (k : Core) : (tl.setCore c k).quota = tl.quota := rfl
@[simp] theorem Tile.setCore_vector (tl : Tile) (c : Nat) (k : Core) : (tl.setCore c k).vector = tl.vector := rfl
@[simp] theorem Tile.setCore_segs (tl : Tile) (c : Nat) (k : Core) : (tl.setCore c k).segs = tl.segs := rfl
@[simp] theorem Tile.setCore_ct (tl : Tile) (c : Nat) (k : Core) : (tl.setCore c k).ct = tl.ct := rfl
@[simp] theorem Tile.setCore_live (tl : Tile) (c : Nat) (k : Core) : (tl.setCore c k).live = tl.live := rfl
@[simp] theorem Tile.setCore_turns (tl : Tile) (c : Nat) (k : Core) : (tl.setCore c k).turns = tl.turns := rfl
@[simp] theorem Tile.setCore_lastSeq (tl : Tile) (c : Nat) (k : Core) : (tl.setCore c k).lastSeq = tl.lastSeq := rfl
@[simp] theorem Tile.setCore_residentAt (tl : Tile) (c : Nat) (k : Core) : (tl.setCore c k).residentAt = tl.residentAt := rfl
@[simp] theorem Tile.setCore_residentCount (tl : Tile) (c : Nat) (k : Core) : (tl.setCore c k).residentCount = tl.residentCount := rfl
@[simp] theorem Tile.setCore_norm (tl : Tile) (c : Nat) (k : Core) : (tl.setCore c k).norm = tl.norm := rfl
@[simp] theorem Tile.setCore_hutch (tl : Tile) (c : Nat) (k : Core) : (tl.setCore c k).hutch = tl.hutch := rfl
@[simp] theorem Tile.setCore_refusing (tl : Tile) (c : Nat) (k : Core) : (tl.setCore c k).refusing = tl.refusing := rfl
@[simp] theorem Tile.setCore_taskHead (tl : Tile) (c : Nat) (k : Core) : (tl.setCore c k).taskHead = tl.taskHead := rfl
@[simp] theorem Tile.setCore_taskSince (tl : Tile) (c : Nat) (k : Core) : (tl.setCore c k).taskSince = tl.taskSince := rfl
@[simp] theorem Tile.setCore_parkedArea (tl : Tile) (c : Nat) (k : Core) : (tl.setCore c k).parkedArea = tl.parkedArea := rfl
@[simp] theorem Tile.setCore_allots (tl : Tile) (c : Nat) (k : Core) : (tl.setCore c k).allots = tl.allots := rfl
@[simp] theorem Tile.setCore_waiters (tl : Tile) (c : Nat) (k : Core) : (tl.setCore c k).waiters = tl.waiters := rfl
@[simp] theorem Tile.setCore_accs (tl : Tile) (c : Nat) (k : Core) : (tl.setCore c k).accs = tl.accs := rfl
@[simp] theorem Tile.setCore_trestle (tl : Tile) (c : Nat) (k : Core) : (tl.setCore c k).trestle = tl.trestle := rfl
@[simp] theorem Tile.setCore_windows (tl : Tile) (c : Nat) (k : Core) : (tl.setCore c k).windows = tl.windows := rfl
@[simp] theorem Tile.setCore_copies (tl : Tile) (c : Nat) (k : Core) : (tl.setCore c k).copies = tl.copies := rfl
@[simp] theorem Tile.setCore_bookends (tl : Tile) (c : Nat) (k : Core) : (tl.setCore c k).bookends = tl.bookends := rfl
@[simp] theorem Tile.setCore_scWaiters (tl : Tile) (c : Nat) (k : Core) : (tl.setCore c k).scWaiters = tl.scWaiters := rfl
@[simp] theorem Tile.setCore_queues (tl : Tile) (c : Nat) (k : Core) : (tl.setCore c k).queues = tl.queues := rfl
@[simp] theorem Tile.setCore_dqueues (tl : Tile) (c : Nat) (k : Core) : (tl.setCore c k).dqueues = tl.dqueues := rfl
@[simp] theorem Tile.setCore_resend (tl : Tile) (c : Nat) (k : Core) : (tl.setCore c k).resend = tl.resend := rfl
@[simp] theorem Tile.setCore_hbar (tl : Tile) (c : Nat) (k : Core) : (tl.setCore c k).hbar = tl.hbar := rfl
@[simp] theorem Tile.setCore_hbarExtra (tl : Tile) (c : Nat) (k : Core) : (tl.setCore c k).hbarExtra = tl.hbarExtra := rfl
@[simp] theorem Tile.setCore_nodes (tl : Tile) (c : Nat) (k : Core) : (tl.setCore c k).nodes = tl.nodes := rfl
@[simp] theorem Tile.setCore_roots (tl : Tile) (c : Nat) (k : Core) : (tl.setCore c k).roots = tl.roots := rfl
@[simp] theorem Tile.setCore_tlb (tl : Tile) (c : Nat) (k : Core) : (tl.setCore c k).tlb = tl.tlb := rfl
@[simp] theorem Tile.setCore_tlbTree (tl : Tile) (c : Nat) (k : Core) : (tl.setCore c k).tlbTree = tl.tlbTree := rfl
@[simp] theorem Tile.setCore_walks (tl : Tile) (c : Nat) (k : Core) : (tl.setCore c k).walks = tl.walks := rfl
@[simp] theorem Tile.setCore_faultBuf (tl : Tile) (c : Nat) (k : Core) : (tl.setCore c k).faultBuf = tl.faultBuf := rfl
@[simp] theorem Tile.setCore_faultRecs (tl : Tile) (c : Nat) (k : Core) : (tl.setCore c k).faultRecs = tl.faultRecs := rfl
@[simp] theorem Tile.setCore_pipe (tl : Tile) (c : Nat) (k : Core) : (tl.setCore c k).pipe = tl.pipe := rfl
@[simp] theorem Tile.setCore_vc (tl : Tile) (c : Nat) (k : Core) : (tl.setCore c k).vc = tl.vc := rfl
@[simp] theorem Tile.setCore_failedBank (tl : Tile) (c : Nat) (k : Core) : (tl.setCore c k).failedBank = tl.failedBank := rfl
@[simp] theorem Tile.setCore_corrections (tl : Tile) (c : Nat) (k : Core) : (tl.setCore c k).corrections = tl.corrections := rfl
@[simp] theorem Tile.setCore_scrubPos (tl : Tile) (c : Nat) (k : Core) : (tl.setCore c k).scrubPos = tl.scrubPos := rfl
@[simp] theorem Tile.setCore_errs (tl : Tile) (c : Nat) (k : Core) : (tl.setCore c k).errs = tl.errs := rfl
@[simp] theorem Tile.setCore_stalls (tl : Tile) (c : Nat) (k : Core) : (tl.setCore c k).stalls = tl.stalls := rfl
@[simp] theorem Tile.setCore_arbP (tl : Tile) (c : Nat) (k : Core) : (tl.setCore c k).arbP = tl.arbP := rfl
@[simp] theorem Tile.setCore_arbAt (tl : Tile) (c : Nat) (k : Core) : (tl.setCore c k).arbAt = tl.arbAt := rfl
@[simp] theorem Tile.setCore_groupBusy (tl : Tile) (c : Nat) (k : Core) : (tl.setCore c k).groupBusy = tl.groupBusy := rfl
@[simp] theorem Tile.setCore_classes (tl : Tile) (c : Nat) (k : Core) : (tl.setCore c k).classes = tl.classes := rfl
@[simp] theorem Tile.setCore_treedepth (tl : Tile) (c : Nat) (k : Core) : (tl.setCore c k).treedepth = tl.treedepth := rfl
@[simp] theorem Tile.setCore_fbFull (tl : Tile) (c : Nat) (k : Core) : (tl.setCore c k).fbFull = tl.fbFull := rfl
@[simp] theorem Tile.setCore_classSwitch (tl : Tile) (c : Nat) (k : Core) : (tl.setCore c k).classSwitch = tl.classSwitch := rfl
@[simp] theorem Tile.setCore_postStopped (tl : Tile) (c : Nat) (k : Core) : (tl.setCore c k).postStopped = tl.postStopped := rfl
@[simp] theorem Tile.setCore_ejectClosed (tl : Tile) (c : Nat) (k : Core) : (tl.setCore c k).ejectClosed = tl.ejectClosed := rfl
@[simp] theorem Tile.setCore_idleSince (tl : Tile) (c : Nat) (k : Core) : (tl.setCore c k).idleSince = tl.idleSince := rfl
@[simp] theorem Tile.setCore_askTurn (tl : Tile) (c : Nat) (k : Core) : (tl.setCore c k).askTurn = tl.askTurn := rfl
@[simp] theorem Tile.setCore_asking (tl : Tile) (c : Nat) (k : Core) : (tl.setCore c k).asking = tl.asking := rfl
@[simp] theorem Tile.setCore_gang (tl : Tile) (c : Nat) (k : Core) : (tl.setCore c k).gang = tl.gang := rfl
@[simp] theorem Tile.setCore_fallout (tl : Tile) (c : Nat) (k : Core) : (tl.setCore c k).fallout = tl.fallout := rfl
@[simp] theorem Tile.setCore_nrspill (tl : Tile) (c : Nat) (k : Core) : (tl.setCore c k).nrspill = tl.nrspill := rfl
@[simp] theorem Tile.setCore_bbox (tl : Tile) (c : Nat) (k : Core) : (tl.setCore c k).bbox = tl.bbox := rfl
@[simp] theorem Tile.setCore_bbHead (tl : Tile) (c : Nat) (k : Core) : (tl.setCore c k).bbHead = tl.bbHead := rfl
@[simp] theorem Tile.setCore_bbWrapped (tl : Tile) (c : Nat) (k : Core) : (tl.setCore c k).bbWrapped = tl.bbWrapped := rfl
@[simp] theorem Tile.setCore_retired (tl : Tile) (c : Nat) (k : Core) : (tl.setCore c k).retired = tl.retired := rfl

@[simp] theorem Tile.setThread_name (tl : Tile) (c k : Nat) (th : Thread) : (tl.setThread c k th).name = tl.name := rfl
@[simp] theorem Tile.setThread_slotsReg (tl : Tile) (c k : Nat) (th : Thread) : (tl.setThread c k th).slotsReg = tl.slotsReg := rfl
@[simp] theorem Tile.setThread_vweight (tl : Tile) (c k : Nat) (th : Thread) : (tl.setThread c k th).vweight = tl.vweight := rfl
@[simp] theorem Tile.setThread_tasktab (tl : Tile) (c k : Nat) (th : Thread) : (tl.setThread c k th).tasktab = tl.tasktab := rfl
@[simp] theorem Tile.setThread_scratchReg (tl : Tile) (c k : Nat) (th : Thread) : (tl.setThread c k th).scratchReg = tl.scratchReg := rfl
@[simp] theorem Tile.setThread_hbarcnt (tl : Tile) (c k : Nat) (th : Thread) : (tl.setThread c k th).hbarcnt = tl.hbarcnt := rfl
@[simp] theorem Tile.setThread_segValid (tl : Tile) (c k : Nat) (th : Thread) : (tl.setThread c k th).segValid = tl.segValid := rfl
@[simp] theorem Tile.setThread_asid (tl : Tile) (c k : Nat) (th : Thread) : (tl.setThread c k th).asid = tl.asid := rfl
@[simp] theorem Tile.setThread_ptroot (tl : Tile) (c k : Nat) (th : Thread) : (tl.setThread c k th).ptroot = tl.ptroot := rfl
@[simp] theorem Tile.setThread_faultq (tl : Tile) (c k : Nat) (th : Thread) : (tl.setThread c k th).faultq = tl.faultq := rfl
@[simp] theorem Tile.setThread_gangstop (tl : Tile) (c k : Nat) (th : Thread) : (tl.setThread c k th).gangstop = tl.gangstop := rfl
@[simp] theorem Tile.setThread_quota (tl : Tile) (c k : Nat) (th : Thread) : (tl.setThread c k th).quota = tl.quota := rfl
@[simp] theorem Tile.setThread_vector (tl : Tile) (c k : Nat) (th : Thread) : (tl.setThread c k th).vector = tl.vector := rfl
@[simp] theorem Tile.setThread_segs (tl : Tile) (c k : Nat) (th : Thread) : (tl.setThread c k th).segs = tl.segs := rfl
@[simp] theorem Tile.setThread_ct (tl : Tile) (c k : Nat) (th : Thread) : (tl.setThread c k th).ct = tl.ct := rfl
@[simp] theorem Tile.setThread_live (tl : Tile) (c k : Nat) (th : Thread) : (tl.setThread c k th).live = tl.live := rfl
@[simp] theorem Tile.setThread_turns (tl : Tile) (c k : Nat) (th : Thread) : (tl.setThread c k th).turns = tl.turns := rfl
@[simp] theorem Tile.setThread_lastSeq (tl : Tile) (c k : Nat) (th : Thread) : (tl.setThread c k th).lastSeq = tl.lastSeq := rfl
@[simp] theorem Tile.setThread_residentAt (tl : Tile) (c k : Nat) (th : Thread) : (tl.setThread c k th).residentAt = tl.residentAt := rfl
@[simp] theorem Tile.setThread_residentCount (tl : Tile) (c k : Nat) (th : Thread) : (tl.setThread c k th).residentCount = tl.residentCount := rfl
@[simp] theorem Tile.setThread_norm (tl : Tile) (c k : Nat) (th : Thread) : (tl.setThread c k th).norm = tl.norm := rfl
@[simp] theorem Tile.setThread_hutch (tl : Tile) (c k : Nat) (th : Thread) : (tl.setThread c k th).hutch = tl.hutch := rfl
@[simp] theorem Tile.setThread_refusing (tl : Tile) (c k : Nat) (th : Thread) : (tl.setThread c k th).refusing = tl.refusing := rfl
@[simp] theorem Tile.setThread_taskHead (tl : Tile) (c k : Nat) (th : Thread) : (tl.setThread c k th).taskHead = tl.taskHead := rfl
@[simp] theorem Tile.setThread_taskSince (tl : Tile) (c k : Nat) (th : Thread) : (tl.setThread c k th).taskSince = tl.taskSince := rfl
@[simp] theorem Tile.setThread_parkedArea (tl : Tile) (c k : Nat) (th : Thread) : (tl.setThread c k th).parkedArea = tl.parkedArea := rfl
@[simp] theorem Tile.setThread_allots (tl : Tile) (c k : Nat) (th : Thread) : (tl.setThread c k th).allots = tl.allots := rfl
@[simp] theorem Tile.setThread_waiters (tl : Tile) (c k : Nat) (th : Thread) : (tl.setThread c k th).waiters = tl.waiters := rfl
@[simp] theorem Tile.setThread_accs (tl : Tile) (c k : Nat) (th : Thread) : (tl.setThread c k th).accs = tl.accs := rfl
@[simp] theorem Tile.setThread_trestle (tl : Tile) (c k : Nat) (th : Thread) : (tl.setThread c k th).trestle = tl.trestle := rfl
@[simp] theorem Tile.setThread_windows (tl : Tile) (c k : Nat) (th : Thread) : (tl.setThread c k th).windows = tl.windows := rfl
@[simp] theorem Tile.setThread_copies (tl : Tile) (c k : Nat) (th : Thread) : (tl.setThread c k th).copies = tl.copies := rfl
@[simp] theorem Tile.setThread_bookends (tl : Tile) (c k : Nat) (th : Thread) : (tl.setThread c k th).bookends = tl.bookends := rfl
@[simp] theorem Tile.setThread_scWaiters (tl : Tile) (c k : Nat) (th : Thread) : (tl.setThread c k th).scWaiters = tl.scWaiters := rfl
@[simp] theorem Tile.setThread_queues (tl : Tile) (c k : Nat) (th : Thread) : (tl.setThread c k th).queues = tl.queues := rfl
@[simp] theorem Tile.setThread_dqueues (tl : Tile) (c k : Nat) (th : Thread) : (tl.setThread c k th).dqueues = tl.dqueues := rfl
@[simp] theorem Tile.setThread_resend (tl : Tile) (c k : Nat) (th : Thread) : (tl.setThread c k th).resend = tl.resend := rfl
@[simp] theorem Tile.setThread_hbar (tl : Tile) (c k : Nat) (th : Thread) : (tl.setThread c k th).hbar = tl.hbar := rfl
@[simp] theorem Tile.setThread_hbarExtra (tl : Tile) (c k : Nat) (th : Thread) : (tl.setThread c k th).hbarExtra = tl.hbarExtra := rfl
@[simp] theorem Tile.setThread_nodes (tl : Tile) (c k : Nat) (th : Thread) : (tl.setThread c k th).nodes = tl.nodes := rfl
@[simp] theorem Tile.setThread_roots (tl : Tile) (c k : Nat) (th : Thread) : (tl.setThread c k th).roots = tl.roots := rfl
@[simp] theorem Tile.setThread_tlb (tl : Tile) (c k : Nat) (th : Thread) : (tl.setThread c k th).tlb = tl.tlb := rfl
@[simp] theorem Tile.setThread_tlbTree (tl : Tile) (c k : Nat) (th : Thread) : (tl.setThread c k th).tlbTree = tl.tlbTree := rfl
@[simp] theorem Tile.setThread_walks (tl : Tile) (c k : Nat) (th : Thread) : (tl.setThread c k th).walks = tl.walks := rfl
@[simp] theorem Tile.setThread_faultBuf (tl : Tile) (c k : Nat) (th : Thread) : (tl.setThread c k th).faultBuf = tl.faultBuf := rfl
@[simp] theorem Tile.setThread_faultRecs (tl : Tile) (c k : Nat) (th : Thread) : (tl.setThread c k th).faultRecs = tl.faultRecs := rfl
@[simp] theorem Tile.setThread_pipe (tl : Tile) (c k : Nat) (th : Thread) : (tl.setThread c k th).pipe = tl.pipe := rfl
@[simp] theorem Tile.setThread_vc (tl : Tile) (c k : Nat) (th : Thread) : (tl.setThread c k th).vc = tl.vc := rfl
@[simp] theorem Tile.setThread_failedBank (tl : Tile) (c k : Nat) (th : Thread) : (tl.setThread c k th).failedBank = tl.failedBank := rfl
@[simp] theorem Tile.setThread_corrections (tl : Tile) (c k : Nat) (th : Thread) : (tl.setThread c k th).corrections = tl.corrections := rfl
@[simp] theorem Tile.setThread_scrubPos (tl : Tile) (c k : Nat) (th : Thread) : (tl.setThread c k th).scrubPos = tl.scrubPos := rfl
@[simp] theorem Tile.setThread_errs (tl : Tile) (c k : Nat) (th : Thread) : (tl.setThread c k th).errs = tl.errs := rfl
@[simp] theorem Tile.setThread_stalls (tl : Tile) (c k : Nat) (th : Thread) : (tl.setThread c k th).stalls = tl.stalls := rfl
@[simp] theorem Tile.setThread_arbP (tl : Tile) (c k : Nat) (th : Thread) : (tl.setThread c k th).arbP = tl.arbP := rfl
@[simp] theorem Tile.setThread_arbAt (tl : Tile) (c k : Nat) (th : Thread) : (tl.setThread c k th).arbAt = tl.arbAt := rfl
@[simp] theorem Tile.setThread_groupBusy (tl : Tile) (c k : Nat) (th : Thread) : (tl.setThread c k th).groupBusy = tl.groupBusy := rfl
@[simp] theorem Tile.setThread_classes (tl : Tile) (c k : Nat) (th : Thread) : (tl.setThread c k th).classes = tl.classes := rfl
@[simp] theorem Tile.setThread_treedepth (tl : Tile) (c k : Nat) (th : Thread) : (tl.setThread c k th).treedepth = tl.treedepth := rfl
@[simp] theorem Tile.setThread_fbFull (tl : Tile) (c k : Nat) (th : Thread) : (tl.setThread c k th).fbFull = tl.fbFull := rfl
@[simp] theorem Tile.setThread_classSwitch (tl : Tile) (c k : Nat) (th : Thread) : (tl.setThread c k th).classSwitch = tl.classSwitch := rfl
@[simp] theorem Tile.setThread_postStopped (tl : Tile) (c k : Nat) (th : Thread) : (tl.setThread c k th).postStopped = tl.postStopped := rfl
@[simp] theorem Tile.setThread_ejectClosed (tl : Tile) (c k : Nat) (th : Thread) : (tl.setThread c k th).ejectClosed = tl.ejectClosed := rfl
@[simp] theorem Tile.setThread_idleSince (tl : Tile) (c k : Nat) (th : Thread) : (tl.setThread c k th).idleSince = tl.idleSince := rfl
@[simp] theorem Tile.setThread_askTurn (tl : Tile) (c k : Nat) (th : Thread) : (tl.setThread c k th).askTurn = tl.askTurn := rfl
@[simp] theorem Tile.setThread_asking (tl : Tile) (c k : Nat) (th : Thread) : (tl.setThread c k th).asking = tl.asking := rfl
@[simp] theorem Tile.setThread_gang (tl : Tile) (c k : Nat) (th : Thread) : (tl.setThread c k th).gang = tl.gang := rfl
@[simp] theorem Tile.setThread_fallout (tl : Tile) (c k : Nat) (th : Thread) : (tl.setThread c k th).fallout = tl.fallout := rfl
@[simp] theorem Tile.setThread_nrspill (tl : Tile) (c k : Nat) (th : Thread) : (tl.setThread c k th).nrspill = tl.nrspill := rfl
@[simp] theorem Tile.setThread_bbox (tl : Tile) (c k : Nat) (th : Thread) : (tl.setThread c k th).bbox = tl.bbox := rfl
@[simp] theorem Tile.setThread_bbHead (tl : Tile) (c k : Nat) (th : Thread) : (tl.setThread c k th).bbHead = tl.bbHead := rfl
@[simp] theorem Tile.setThread_bbWrapped (tl : Tile) (c k : Nat) (th : Thread) : (tl.setThread c k th).bbWrapped = tl.bbWrapped := rfl
@[simp] theorem Tile.setThread_retired (tl : Tile) (c k : Nat) (th : Thread) : (tl.setThread c k th).retired = tl.retired := rfl

@[simp] theorem Tile.count_name (tl : Tile) (n by_ : Nat) : (tl.count n by_).name = tl.name := rfl
@[simp] theorem Tile.count_slotsReg (tl : Tile) (n by_ : Nat) : (tl.count n by_).slotsReg = tl.slotsReg := rfl
@[simp] theorem Tile.count_vweight (tl : Tile) (n by_ : Nat) : (tl.count n by_).vweight = tl.vweight := rfl
@[simp] theorem Tile.count_tasktab (tl : Tile) (n by_ : Nat) : (tl.count n by_).tasktab = tl.tasktab := rfl
@[simp] theorem Tile.count_scratchReg (tl : Tile) (n by_ : Nat) : (tl.count n by_).scratchReg = tl.scratchReg := rfl
@[simp] theorem Tile.count_hbarcnt (tl : Tile) (n by_ : Nat) : (tl.count n by_).hbarcnt = tl.hbarcnt := rfl
@[simp] theorem Tile.count_segValid (tl : Tile) (n by_ : Nat) : (tl.count n by_).segValid = tl.segValid := rfl
@[simp] theorem Tile.count_asid (tl : Tile) (n by_ : Nat) : (tl.count n by_).asid = tl.asid := rfl
@[simp] theorem Tile.count_ptroot (tl : Tile) (n by_ : Nat) : (tl.count n by_).ptroot = tl.ptroot := rfl
@[simp] theorem Tile.count_faultq (tl : Tile) (n by_ : Nat) : (tl.count n by_).faultq = tl.faultq := rfl
@[simp] theorem Tile.count_gangstop (tl : Tile) (n by_ : Nat) : (tl.count n by_).gangstop = tl.gangstop := rfl
@[simp] theorem Tile.count_quota (tl : Tile) (n by_ : Nat) : (tl.count n by_).quota = tl.quota := rfl
@[simp] theorem Tile.count_vector (tl : Tile) (n by_ : Nat) : (tl.count n by_).vector = tl.vector := rfl
@[simp] theorem Tile.count_segs (tl : Tile) (n by_ : Nat) : (tl.count n by_).segs = tl.segs := rfl
@[simp] theorem Tile.count_live (tl : Tile) (n by_ : Nat) : (tl.count n by_).live = tl.live := rfl
@[simp] theorem Tile.count_turns (tl : Tile) (n by_ : Nat) : (tl.count n by_).turns = tl.turns := rfl
@[simp] theorem Tile.count_lastSeq (tl : Tile) (n by_ : Nat) : (tl.count n by_).lastSeq = tl.lastSeq := rfl
@[simp] theorem Tile.count_residentAt (tl : Tile) (n by_ : Nat) : (tl.count n by_).residentAt = tl.residentAt := rfl
@[simp] theorem Tile.count_residentCount (tl : Tile) (n by_ : Nat) : (tl.count n by_).residentCount = tl.residentCount := rfl
@[simp] theorem Tile.count_cores (tl : Tile) (n by_ : Nat) : (tl.count n by_).cores = tl.cores := rfl
@[simp] theorem Tile.count_norm (tl : Tile) (n by_ : Nat) : (tl.count n by_).norm = tl.norm := rfl
@[simp] theorem Tile.count_hutch (tl : Tile) (n by_ : Nat) : (tl.count n by_).hutch = tl.hutch := rfl
@[simp] theorem Tile.count_refusing (tl : Tile) (n by_ : Nat) : (tl.count n by_).refusing = tl.refusing := rfl
@[simp] theorem Tile.count_taskHead (tl : Tile) (n by_ : Nat) : (tl.count n by_).taskHead = tl.taskHead := rfl
@[simp] theorem Tile.count_taskSince (tl : Tile) (n by_ : Nat) : (tl.count n by_).taskSince = tl.taskSince := rfl
@[simp] theorem Tile.count_parkedArea (tl : Tile) (n by_ : Nat) : (tl.count n by_).parkedArea = tl.parkedArea := rfl
@[simp] theorem Tile.count_allots (tl : Tile) (n by_ : Nat) : (tl.count n by_).allots = tl.allots := rfl
@[simp] theorem Tile.count_waiters (tl : Tile) (n by_ : Nat) : (tl.count n by_).waiters = tl.waiters := rfl
@[simp] theorem Tile.count_accs (tl : Tile) (n by_ : Nat) : (tl.count n by_).accs = tl.accs := rfl
@[simp] theorem Tile.count_trestle (tl : Tile) (n by_ : Nat) : (tl.count n by_).trestle = tl.trestle := rfl
@[simp] theorem Tile.count_windows (tl : Tile) (n by_ : Nat) : (tl.count n by_).windows = tl.windows := rfl
@[simp] theorem Tile.count_copies (tl : Tile) (n by_ : Nat) : (tl.count n by_).copies = tl.copies := rfl
@[simp] theorem Tile.count_bookends (tl : Tile) (n by_ : Nat) : (tl.count n by_).bookends = tl.bookends := rfl
@[simp] theorem Tile.count_scWaiters (tl : Tile) (n by_ : Nat) : (tl.count n by_).scWaiters = tl.scWaiters := rfl
@[simp] theorem Tile.count_queues (tl : Tile) (n by_ : Nat) : (tl.count n by_).queues = tl.queues := rfl
@[simp] theorem Tile.count_dqueues (tl : Tile) (n by_ : Nat) : (tl.count n by_).dqueues = tl.dqueues := rfl
@[simp] theorem Tile.count_resend (tl : Tile) (n by_ : Nat) : (tl.count n by_).resend = tl.resend := rfl
@[simp] theorem Tile.count_hbar (tl : Tile) (n by_ : Nat) : (tl.count n by_).hbar = tl.hbar := rfl
@[simp] theorem Tile.count_hbarExtra (tl : Tile) (n by_ : Nat) : (tl.count n by_).hbarExtra = tl.hbarExtra := rfl
@[simp] theorem Tile.count_nodes (tl : Tile) (n by_ : Nat) : (tl.count n by_).nodes = tl.nodes := rfl
@[simp] theorem Tile.count_roots (tl : Tile) (n by_ : Nat) : (tl.count n by_).roots = tl.roots := rfl
@[simp] theorem Tile.count_tlb (tl : Tile) (n by_ : Nat) : (tl.count n by_).tlb = tl.tlb := rfl
@[simp] theorem Tile.count_tlbTree (tl : Tile) (n by_ : Nat) : (tl.count n by_).tlbTree = tl.tlbTree := rfl
@[simp] theorem Tile.count_walks (tl : Tile) (n by_ : Nat) : (tl.count n by_).walks = tl.walks := rfl
@[simp] theorem Tile.count_faultBuf (tl : Tile) (n by_ : Nat) : (tl.count n by_).faultBuf = tl.faultBuf := rfl
@[simp] theorem Tile.count_faultRecs (tl : Tile) (n by_ : Nat) : (tl.count n by_).faultRecs = tl.faultRecs := rfl
@[simp] theorem Tile.count_pipe (tl : Tile) (n by_ : Nat) : (tl.count n by_).pipe = tl.pipe := rfl
@[simp] theorem Tile.count_vc (tl : Tile) (n by_ : Nat) : (tl.count n by_).vc = tl.vc := rfl
@[simp] theorem Tile.count_failedBank (tl : Tile) (n by_ : Nat) : (tl.count n by_).failedBank = tl.failedBank := rfl
@[simp] theorem Tile.count_corrections (tl : Tile) (n by_ : Nat) : (tl.count n by_).corrections = tl.corrections := rfl
@[simp] theorem Tile.count_scrubPos (tl : Tile) (n by_ : Nat) : (tl.count n by_).scrubPos = tl.scrubPos := rfl
@[simp] theorem Tile.count_errs (tl : Tile) (n by_ : Nat) : (tl.count n by_).errs = tl.errs := rfl
@[simp] theorem Tile.count_stalls (tl : Tile) (n by_ : Nat) : (tl.count n by_).stalls = tl.stalls := rfl
@[simp] theorem Tile.count_arbP (tl : Tile) (n by_ : Nat) : (tl.count n by_).arbP = tl.arbP := rfl
@[simp] theorem Tile.count_arbAt (tl : Tile) (n by_ : Nat) : (tl.count n by_).arbAt = tl.arbAt := rfl
@[simp] theorem Tile.count_groupBusy (tl : Tile) (n by_ : Nat) : (tl.count n by_).groupBusy = tl.groupBusy := rfl
@[simp] theorem Tile.count_classes (tl : Tile) (n by_ : Nat) : (tl.count n by_).classes = tl.classes := rfl
@[simp] theorem Tile.count_treedepth (tl : Tile) (n by_ : Nat) : (tl.count n by_).treedepth = tl.treedepth := rfl
@[simp] theorem Tile.count_fbFull (tl : Tile) (n by_ : Nat) : (tl.count n by_).fbFull = tl.fbFull := rfl
@[simp] theorem Tile.count_classSwitch (tl : Tile) (n by_ : Nat) : (tl.count n by_).classSwitch = tl.classSwitch := rfl
@[simp] theorem Tile.count_postStopped (tl : Tile) (n by_ : Nat) : (tl.count n by_).postStopped = tl.postStopped := rfl
@[simp] theorem Tile.count_ejectClosed (tl : Tile) (n by_ : Nat) : (tl.count n by_).ejectClosed = tl.ejectClosed := rfl
@[simp] theorem Tile.count_idleSince (tl : Tile) (n by_ : Nat) : (tl.count n by_).idleSince = tl.idleSince := rfl
@[simp] theorem Tile.count_askTurn (tl : Tile) (n by_ : Nat) : (tl.count n by_).askTurn = tl.askTurn := rfl
@[simp] theorem Tile.count_asking (tl : Tile) (n by_ : Nat) : (tl.count n by_).asking = tl.asking := rfl
@[simp] theorem Tile.count_gang (tl : Tile) (n by_ : Nat) : (tl.count n by_).gang = tl.gang := rfl
@[simp] theorem Tile.count_fallout (tl : Tile) (n by_ : Nat) : (tl.count n by_).fallout = tl.fallout := rfl
@[simp] theorem Tile.count_nrspill (tl : Tile) (n by_ : Nat) : (tl.count n by_).nrspill = tl.nrspill := rfl
@[simp] theorem Tile.count_bbox (tl : Tile) (n by_ : Nat) : (tl.count n by_).bbox = tl.bbox := rfl
@[simp] theorem Tile.count_bbHead (tl : Tile) (n by_ : Nat) : (tl.count n by_).bbHead = tl.bbHead := rfl
@[simp] theorem Tile.count_bbWrapped (tl : Tile) (n by_ : Nat) : (tl.count n by_).bbWrapped = tl.bbWrapped := rfl
@[simp] theorem Tile.count_retired (tl : Tile) (n by_ : Nat) : (tl.count n by_).retired = tl.retired := rfl

@[simp] theorem Tile.bb_name (tl : Tile) (e : BbEntry) : (tl.bb e).name = tl.name := rfl
@[simp] theorem Tile.bb_slotsReg (tl : Tile) (e : BbEntry) : (tl.bb e).slotsReg = tl.slotsReg := rfl
@[simp] theorem Tile.bb_vweight (tl : Tile) (e : BbEntry) : (tl.bb e).vweight = tl.vweight := rfl
@[simp] theorem Tile.bb_tasktab (tl : Tile) (e : BbEntry) : (tl.bb e).tasktab = tl.tasktab := rfl
@[simp] theorem Tile.bb_scratchReg (tl : Tile) (e : BbEntry) : (tl.bb e).scratchReg = tl.scratchReg := rfl
@[simp] theorem Tile.bb_hbarcnt (tl : Tile) (e : BbEntry) : (tl.bb e).hbarcnt = tl.hbarcnt := rfl
@[simp] theorem Tile.bb_segValid (tl : Tile) (e : BbEntry) : (tl.bb e).segValid = tl.segValid := rfl
@[simp] theorem Tile.bb_asid (tl : Tile) (e : BbEntry) : (tl.bb e).asid = tl.asid := rfl
@[simp] theorem Tile.bb_ptroot (tl : Tile) (e : BbEntry) : (tl.bb e).ptroot = tl.ptroot := rfl
@[simp] theorem Tile.bb_faultq (tl : Tile) (e : BbEntry) : (tl.bb e).faultq = tl.faultq := rfl
@[simp] theorem Tile.bb_gangstop (tl : Tile) (e : BbEntry) : (tl.bb e).gangstop = tl.gangstop := rfl
@[simp] theorem Tile.bb_quota (tl : Tile) (e : BbEntry) : (tl.bb e).quota = tl.quota := rfl
@[simp] theorem Tile.bb_vector (tl : Tile) (e : BbEntry) : (tl.bb e).vector = tl.vector := rfl
@[simp] theorem Tile.bb_segs (tl : Tile) (e : BbEntry) : (tl.bb e).segs = tl.segs := rfl
@[simp] theorem Tile.bb_ct (tl : Tile) (e : BbEntry) : (tl.bb e).ct = tl.ct := rfl
@[simp] theorem Tile.bb_live (tl : Tile) (e : BbEntry) : (tl.bb e).live = tl.live := rfl
@[simp] theorem Tile.bb_turns (tl : Tile) (e : BbEntry) : (tl.bb e).turns = tl.turns := rfl
@[simp] theorem Tile.bb_lastSeq (tl : Tile) (e : BbEntry) : (tl.bb e).lastSeq = tl.lastSeq := rfl
@[simp] theorem Tile.bb_residentAt (tl : Tile) (e : BbEntry) : (tl.bb e).residentAt = tl.residentAt := rfl
@[simp] theorem Tile.bb_residentCount (tl : Tile) (e : BbEntry) : (tl.bb e).residentCount = tl.residentCount := rfl
@[simp] theorem Tile.bb_cores (tl : Tile) (e : BbEntry) : (tl.bb e).cores = tl.cores := rfl
@[simp] theorem Tile.bb_norm (tl : Tile) (e : BbEntry) : (tl.bb e).norm = tl.norm := rfl
@[simp] theorem Tile.bb_hutch (tl : Tile) (e : BbEntry) : (tl.bb e).hutch = tl.hutch := rfl
@[simp] theorem Tile.bb_refusing (tl : Tile) (e : BbEntry) : (tl.bb e).refusing = tl.refusing := rfl
@[simp] theorem Tile.bb_taskHead (tl : Tile) (e : BbEntry) : (tl.bb e).taskHead = tl.taskHead := rfl
@[simp] theorem Tile.bb_taskSince (tl : Tile) (e : BbEntry) : (tl.bb e).taskSince = tl.taskSince := rfl
@[simp] theorem Tile.bb_parkedArea (tl : Tile) (e : BbEntry) : (tl.bb e).parkedArea = tl.parkedArea := rfl
@[simp] theorem Tile.bb_allots (tl : Tile) (e : BbEntry) : (tl.bb e).allots = tl.allots := rfl
@[simp] theorem Tile.bb_waiters (tl : Tile) (e : BbEntry) : (tl.bb e).waiters = tl.waiters := rfl
@[simp] theorem Tile.bb_accs (tl : Tile) (e : BbEntry) : (tl.bb e).accs = tl.accs := rfl
@[simp] theorem Tile.bb_trestle (tl : Tile) (e : BbEntry) : (tl.bb e).trestle = tl.trestle := rfl
@[simp] theorem Tile.bb_windows (tl : Tile) (e : BbEntry) : (tl.bb e).windows = tl.windows := rfl
@[simp] theorem Tile.bb_copies (tl : Tile) (e : BbEntry) : (tl.bb e).copies = tl.copies := rfl
@[simp] theorem Tile.bb_bookends (tl : Tile) (e : BbEntry) : (tl.bb e).bookends = tl.bookends := rfl
@[simp] theorem Tile.bb_scWaiters (tl : Tile) (e : BbEntry) : (tl.bb e).scWaiters = tl.scWaiters := rfl
@[simp] theorem Tile.bb_queues (tl : Tile) (e : BbEntry) : (tl.bb e).queues = tl.queues := rfl
@[simp] theorem Tile.bb_dqueues (tl : Tile) (e : BbEntry) : (tl.bb e).dqueues = tl.dqueues := rfl
@[simp] theorem Tile.bb_resend (tl : Tile) (e : BbEntry) : (tl.bb e).resend = tl.resend := rfl
@[simp] theorem Tile.bb_hbar (tl : Tile) (e : BbEntry) : (tl.bb e).hbar = tl.hbar := rfl
@[simp] theorem Tile.bb_hbarExtra (tl : Tile) (e : BbEntry) : (tl.bb e).hbarExtra = tl.hbarExtra := rfl
@[simp] theorem Tile.bb_nodes (tl : Tile) (e : BbEntry) : (tl.bb e).nodes = tl.nodes := rfl
@[simp] theorem Tile.bb_roots (tl : Tile) (e : BbEntry) : (tl.bb e).roots = tl.roots := rfl
@[simp] theorem Tile.bb_tlb (tl : Tile) (e : BbEntry) : (tl.bb e).tlb = tl.tlb := rfl
@[simp] theorem Tile.bb_tlbTree (tl : Tile) (e : BbEntry) : (tl.bb e).tlbTree = tl.tlbTree := rfl
@[simp] theorem Tile.bb_walks (tl : Tile) (e : BbEntry) : (tl.bb e).walks = tl.walks := rfl
@[simp] theorem Tile.bb_faultBuf (tl : Tile) (e : BbEntry) : (tl.bb e).faultBuf = tl.faultBuf := rfl
@[simp] theorem Tile.bb_faultRecs (tl : Tile) (e : BbEntry) : (tl.bb e).faultRecs = tl.faultRecs := rfl
@[simp] theorem Tile.bb_pipe (tl : Tile) (e : BbEntry) : (tl.bb e).pipe = tl.pipe := rfl
@[simp] theorem Tile.bb_vc (tl : Tile) (e : BbEntry) : (tl.bb e).vc = tl.vc := rfl
@[simp] theorem Tile.bb_failedBank (tl : Tile) (e : BbEntry) : (tl.bb e).failedBank = tl.failedBank := rfl
@[simp] theorem Tile.bb_corrections (tl : Tile) (e : BbEntry) : (tl.bb e).corrections = tl.corrections := rfl
@[simp] theorem Tile.bb_scrubPos (tl : Tile) (e : BbEntry) : (tl.bb e).scrubPos = tl.scrubPos := rfl
@[simp] theorem Tile.bb_errs (tl : Tile) (e : BbEntry) : (tl.bb e).errs = tl.errs := rfl
@[simp] theorem Tile.bb_stalls (tl : Tile) (e : BbEntry) : (tl.bb e).stalls = tl.stalls := rfl
@[simp] theorem Tile.bb_arbP (tl : Tile) (e : BbEntry) : (tl.bb e).arbP = tl.arbP := rfl
@[simp] theorem Tile.bb_arbAt (tl : Tile) (e : BbEntry) : (tl.bb e).arbAt = tl.arbAt := rfl
@[simp] theorem Tile.bb_groupBusy (tl : Tile) (e : BbEntry) : (tl.bb e).groupBusy = tl.groupBusy := rfl
@[simp] theorem Tile.bb_classes (tl : Tile) (e : BbEntry) : (tl.bb e).classes = tl.classes := rfl
@[simp] theorem Tile.bb_treedepth (tl : Tile) (e : BbEntry) : (tl.bb e).treedepth = tl.treedepth := rfl
@[simp] theorem Tile.bb_fbFull (tl : Tile) (e : BbEntry) : (tl.bb e).fbFull = tl.fbFull := rfl
@[simp] theorem Tile.bb_classSwitch (tl : Tile) (e : BbEntry) : (tl.bb e).classSwitch = tl.classSwitch := rfl
@[simp] theorem Tile.bb_postStopped (tl : Tile) (e : BbEntry) : (tl.bb e).postStopped = tl.postStopped := rfl
@[simp] theorem Tile.bb_ejectClosed (tl : Tile) (e : BbEntry) : (tl.bb e).ejectClosed = tl.ejectClosed := rfl
@[simp] theorem Tile.bb_idleSince (tl : Tile) (e : BbEntry) : (tl.bb e).idleSince = tl.idleSince := rfl
@[simp] theorem Tile.bb_askTurn (tl : Tile) (e : BbEntry) : (tl.bb e).askTurn = tl.askTurn := rfl
@[simp] theorem Tile.bb_asking (tl : Tile) (e : BbEntry) : (tl.bb e).asking = tl.asking := rfl
@[simp] theorem Tile.bb_gang (tl : Tile) (e : BbEntry) : (tl.bb e).gang = tl.gang := rfl
@[simp] theorem Tile.bb_fallout (tl : Tile) (e : BbEntry) : (tl.bb e).fallout = tl.fallout := rfl
@[simp] theorem Tile.bb_nrspill (tl : Tile) (e : BbEntry) : (tl.bb e).nrspill = tl.nrspill := rfl
@[simp] theorem Tile.bb_retired (tl : Tile) (e : BbEntry) : (tl.bb e).retired = tl.retired := rfl

/-! ## Updates of a thread -/

@[simp] theorem Thread.setG_st (th : Thread) (r : Nat) (x : Dword) : (th.setG r x).st = th.st := by
  unfold Thread.setG; split <;> rfl
@[simp] theorem Thread.setG_bounce (th : Thread) (r : Nat) (x : Dword) : (th.setG r x).bounce = th.bounce := by
  unfold Thread.setG; split <;> rfl
@[simp] theorem Thread.setG_prio (th : Thread) (r : Nat) (x : Dword) : (th.setG r x).prio = th.prio := by
  unfold Thread.setG; split <;> rfl
@[simp] theorem Thread.setG_priv (th : Thread) (r : Nat) (x : Dword) : (th.setG r x).priv = th.priv := by
  unfold Thread.setG; split <;> rfl
@[simp] theorem Thread.setG_hops (th : Thread) (r : Nat) (x : Dword) : (th.setG r x).hops = th.hops := by
  unfold Thread.setG; split <;> rfl
@[simp] theorem Thread.setG_pc (th : Thread) (r : Nat) (x : Dword) : (th.setG r x).pc = th.pc := by
  unfold Thread.setG; split <;> rfl
@[simp] theorem Thread.setG_p (th : Thread) (r : Nat) (x : Dword) : (th.setG r x).p = th.p := by
  unfold Thread.setG; split <;> rfl
@[simp] theorem Thread.setG_k1 (th : Thread) (r : Nat) (x : Dword) : (th.setG r x).k1 = th.k1 := by
  unfold Thread.setG; split <;> rfl
@[simp] theorem Thread.setG_k2 (th : Thread) (r : Nat) (x : Dword) : (th.setG r x).k2 = th.k2 := by
  unfold Thread.setG; split <;> rfl
@[simp] theorem Thread.setG_k3 (th : Thread) (r : Nat) (x : Dword) : (th.setG r x).k3 = th.k3 := by
  unfold Thread.setG; split <;> rfl
@[simp] theorem Thread.setG_hz (th : Thread) (r : Nat) (x : Dword) : (th.setG r x).hz = th.hz := by
  unfold Thread.setG; split <;> rfl
@[simp] theorem Thread.setG_ldepth (th : Thread) (r : Nat) (x : Dword) : (th.setG r x).ldepth = th.ldepth := by
  unfold Thread.setG; split <;> rfl
@[simp] theorem Thread.setG_few (th : Thread) (r : Nat) (x : Dword) : (th.setG r x).few = th.few := by
  unfold Thread.setG; split <;> rfl
@[simp] theorem Thread.setG_frm (th : Thread) (r : Nat) (x : Dword) : (th.setG r x).frm = th.frm := by
  unfold Thread.setG; split <;> rfl
@[simp] theorem Thread.setG_flags (th : Thread) (r : Nat) (x : Dword) : (th.setG r x).flags = th.flags := by
  unfold Thread.setG; split <;> rfl
@[simp] theorem Thread.setG_vlive (th : Thread) (r : Nat) (x : Dword) : (th.setG r x).vlive = th.vlive := by
  unfold Thread.setG; split <;> rfl
@[simp] theorem Thread.setG_asid (th : Thread) (r : Nat) (x : Dword) : (th.setG r x).asid = th.asid := by
  unfold Thread.setG; split <;> rfl
@[simp] theorem Thread.setG_tid (th : Thread) (r : Nat) (x : Dword) : (th.setG r x).tid = th.tid := by
  unfold Thread.setG; split <;> rfl
@[simp] theorem Thread.setG_ava (th : Thread) (r : Nat) (x : Dword) : (th.setG r x).ava = th.ava := by
  unfold Thread.setG; split <;> rfl
@[simp] theorem Thread.setG_g0slot (th : Thread) (r : Nat) (x : Dword) : (th.setG r x).g0slot = th.g0slot := by
  unfold Thread.setG; split <;> rfl
@[simp] theorem Thread.setG_links (th : Thread) (r : Nat) (x : Dword) : (th.setG r x).links = th.links := by
  unfold Thread.setG; split <;> rfl
@[simp] theorem Thread.setG_d1 (th : Thread) (r : Nat) (x : Dword) : (th.setG r x).d1 = th.d1 := by
  unfold Thread.setG; split <;> rfl
@[simp] theorem Thread.setG_d2 (th : Thread) (r : Nat) (x : Dword) : (th.setG r x).d2 = th.d2 := by
  unfold Thread.setG; split <;> rfl
@[simp] theorem Thread.setG_linkcnt (th : Thread) (r : Nat) (x : Dword) : (th.setG r x).linkcnt = th.linkcnt := by
  unfold Thread.setG; split <;> rfl
@[simp] theorem Thread.setG_pincnt (th : Thread) (r : Nat) (x : Dword) : (th.setG r x).pincnt = th.pincnt := by
  unfold Thread.setG; split <;> rfl
@[simp] theorem Thread.setG_ppriv (th : Thread) (r : Nat) (x : Dword) : (th.setG r x).ppriv = th.ppriv := by
  unfold Thread.setG; split <;> rfl
@[simp] theorem Thread.setG_cause (th : Thread) (r : Nat) (x : Dword) : (th.setG r x).cause = th.cause := by
  unfold Thread.setG; split <;> rfl
@[simp] theorem Thread.setG_epc (th : Thread) (r : Nat) (x : Dword) : (th.setG r x).epc = th.epc := by
  unfold Thread.setG; split <;> rfl
@[simp] theorem Thread.setG_v (th : Thread) (r : Nat) (x : Dword) : (th.setG r x).v = th.v := by
  unfold Thread.setG; split <;> rfl
@[simp] theorem Thread.setG_vregs (th : Thread) (r : Nat) (x : Dword) : (th.setG r x).vregs = th.vregs := by
  unfold Thread.setG; split <;> rfl
@[simp] theorem Thread.setG_pending (th : Thread) (r : Nat) (x : Dword) : (th.setG r x).pending = th.pending := by
  unfold Thread.setG; split <;> rfl
@[simp] theorem Thread.setG_silent (th : Thread) (r : Nat) (x : Dword) : (th.setG r x).silent = th.silent := by
  unfold Thread.setG; split <;> rfl
@[simp] theorem Thread.setG_posted (th : Thread) (r : Nat) (x : Dword) : (th.setG r x).posted = th.posted := by
  unfold Thread.setG; split <;> rfl
@[simp] theorem Thread.setG_tags (th : Thread) (r : Nat) (x : Dword) : (th.setG r x).tags = th.tags := by
  unfold Thread.setG; split <;> rfl
@[simp] theorem Thread.setG_hold (th : Thread) (r : Nat) (x : Dword) : (th.setG r x).hold = th.hold := by
  unfold Thread.setG; split <;> rfl
@[simp] theorem Thread.setG_wait (th : Thread) (r : Nat) (x : Dword) : (th.setG r x).wait = th.wait := by
  unfold Thread.setG; split <;> rfl
@[simp] theorem Thread.setG_mark (th : Thread) (r : Nat) (x : Dword) : (th.setG r x).mark = th.mark := by
  unfold Thread.setG; split <;> rfl
@[simp] theorem Thread.setG_denial (th : Thread) (r : Nat) (x : Dword) : (th.setG r x).denial = th.denial := by
  unfold Thread.setG; split <;> rfl
@[simp] theorem Thread.setG_quotaTaken (th : Thread) (r : Nat) (x : Dword) : (th.setG r x).quotaTaken = th.quotaTaken := by
  unfold Thread.setG; split <;> rfl
@[simp] theorem Thread.setG_draw (th : Thread) (r : Nat) (x : Dword) : (th.setG r x).draw = th.draw := by
  unfold Thread.setG; split <;> rfl
@[simp] theorem Thread.setG_block (th : Thread) (r : Nat) (x : Dword) : (th.setG r x).block = th.block := by
  unfold Thread.setG; split <;> rfl
@[simp] theorem Thread.setG_imaged (th : Thread) (r : Nat) (x : Dword) : (th.setG r x).imaged = th.imaged := by
  unfold Thread.setG; split <;> rfl
@[simp] theorem Thread.setG_issuing (th : Thread) (r : Nat) (x : Dword) : (th.setG r x).issuing = th.issuing := by
  unfold Thread.setG; split <;> rfl
@[simp] theorem Thread.setG_locks (th : Thread) (r : Nat) (x : Dword) : (th.setG r x).locks = th.locks := by
  unfold Thread.setG; split <;> rfl
@[simp] theorem Thread.setG_depart (th : Thread) (r : Nat) (x : Dword) : (th.setG r x).depart = th.depart := by
  unfold Thread.setG; split <;> rfl
@[simp] theorem Thread.setG_departAt (th : Thread) (r : Nat) (x : Dword) : (th.setG r x).departAt = th.departAt := by
  unfold Thread.setG; split <;> rfl
@[simp] theorem Thread.setG_walking (th : Thread) (r : Nat) (x : Dword) : (th.setG r x).walking = th.walking := by
  unfold Thread.setG; split <;> rfl
@[simp] theorem Thread.setG_waitt (th : Thread) (r : Nat) (x : Dword) : (th.setG r x).waitt = th.waitt := by
  unfold Thread.setG; split <;> rfl
@[simp] theorem Thread.setG_nextTurn (th : Thread) (r : Nat) (x : Dword) : (th.setG r x).nextTurn = th.nextTurn := by
  unfold Thread.setG; split <;> rfl
@[simp] theorem Thread.setG_issuedAt (th : Thread) (r : Nat) (x : Dword) : (th.setG r x).issuedAt = th.issuedAt := by
  unfold Thread.setG; split <;> rfl
@[simp] theorem Thread.setG_yieldUntil (th : Thread) (r : Nat) (x : Dword) : (th.setG r x).yieldUntil = th.yieldUntil := by
  unfold Thread.setG; split <;> rfl
@[simp] theorem Thread.setG_acks (th : Thread) (r : Nat) (x : Dword) : (th.setG r x).acks = th.acks := by
  unfold Thread.setG; split <;> rfl
@[simp] theorem Thread.setG_sent (th : Thread) (r : Nat) (x : Dword) : (th.setG r x).sent = th.sent := by
  unfold Thread.setG; split <;> rfl
@[simp] theorem Thread.setG_ackNo (th : Thread) (r : Nat) (x : Dword) : (th.setG r x).ackNo = th.ackNo := by
  unfold Thread.setG; split <;> rfl
@[simp] theorem Thread.setG_switching (th : Thread) (r : Nat) (x : Dword) : (th.setG r x).switching = th.switching := by
  unfold Thread.setG; split <;> rfl
@[simp] theorem Thread.setG_scratch (th : Thread) (r : Nat) (x : Dword) : (th.setG r x).scratch = th.scratch := by
  unfold Thread.setG; split <;> rfl
@[simp] theorem Thread.setG_faultAt (th : Thread) (r : Nat) (x : Dword) : (th.setG r x).faultAt = th.faultAt := by
  unfold Thread.setG; split <;> rfl
@[simp] theorem Thread.setG_faultVa (th : Thread) (r : Nat) (x : Dword) : (th.setG r x).faultVa = th.faultVa := by
  unfold Thread.setG; split <;> rfl
@[simp] theorem Thread.setG_haltedFrom (th : Thread) (r : Nat) (x : Dword) : (th.setG r x).haltedFrom = th.haltedFrom := by
  unfold Thread.setG; split <;> rfl

@[simp] theorem Thread.setP_st (th : Thread) (q : Nat) (b : Bool) : (th.setP q b).st = th.st := by
  unfold Thread.setP; split <;> rfl
@[simp] theorem Thread.setP_bounce (th : Thread) (q : Nat) (b : Bool) : (th.setP q b).bounce = th.bounce := by
  unfold Thread.setP; split <;> rfl
@[simp] theorem Thread.setP_prio (th : Thread) (q : Nat) (b : Bool) : (th.setP q b).prio = th.prio := by
  unfold Thread.setP; split <;> rfl
@[simp] theorem Thread.setP_priv (th : Thread) (q : Nat) (b : Bool) : (th.setP q b).priv = th.priv := by
  unfold Thread.setP; split <;> rfl
@[simp] theorem Thread.setP_hops (th : Thread) (q : Nat) (b : Bool) : (th.setP q b).hops = th.hops := by
  unfold Thread.setP; split <;> rfl
@[simp] theorem Thread.setP_pc (th : Thread) (q : Nat) (b : Bool) : (th.setP q b).pc = th.pc := by
  unfold Thread.setP; split <;> rfl
@[simp] theorem Thread.setP_k1 (th : Thread) (q : Nat) (b : Bool) : (th.setP q b).k1 = th.k1 := by
  unfold Thread.setP; split <;> rfl
@[simp] theorem Thread.setP_k2 (th : Thread) (q : Nat) (b : Bool) : (th.setP q b).k2 = th.k2 := by
  unfold Thread.setP; split <;> rfl
@[simp] theorem Thread.setP_k3 (th : Thread) (q : Nat) (b : Bool) : (th.setP q b).k3 = th.k3 := by
  unfold Thread.setP; split <;> rfl
@[simp] theorem Thread.setP_hz (th : Thread) (q : Nat) (b : Bool) : (th.setP q b).hz = th.hz := by
  unfold Thread.setP; split <;> rfl
@[simp] theorem Thread.setP_ldepth (th : Thread) (q : Nat) (b : Bool) : (th.setP q b).ldepth = th.ldepth := by
  unfold Thread.setP; split <;> rfl
@[simp] theorem Thread.setP_few (th : Thread) (q : Nat) (b : Bool) : (th.setP q b).few = th.few := by
  unfold Thread.setP; split <;> rfl
@[simp] theorem Thread.setP_frm (th : Thread) (q : Nat) (b : Bool) : (th.setP q b).frm = th.frm := by
  unfold Thread.setP; split <;> rfl
@[simp] theorem Thread.setP_flags (th : Thread) (q : Nat) (b : Bool) : (th.setP q b).flags = th.flags := by
  unfold Thread.setP; split <;> rfl
@[simp] theorem Thread.setP_vlive (th : Thread) (q : Nat) (b : Bool) : (th.setP q b).vlive = th.vlive := by
  unfold Thread.setP; split <;> rfl
@[simp] theorem Thread.setP_asid (th : Thread) (q : Nat) (b : Bool) : (th.setP q b).asid = th.asid := by
  unfold Thread.setP; split <;> rfl
@[simp] theorem Thread.setP_tid (th : Thread) (q : Nat) (b : Bool) : (th.setP q b).tid = th.tid := by
  unfold Thread.setP; split <;> rfl
@[simp] theorem Thread.setP_ava (th : Thread) (q : Nat) (b : Bool) : (th.setP q b).ava = th.ava := by
  unfold Thread.setP; split <;> rfl
@[simp] theorem Thread.setP_g0slot (th : Thread) (q : Nat) (b : Bool) : (th.setP q b).g0slot = th.g0slot := by
  unfold Thread.setP; split <;> rfl
@[simp] theorem Thread.setP_g (th : Thread) (q : Nat) (b : Bool) : (th.setP q b).g = th.g := by
  unfold Thread.setP; split <;> rfl
@[simp] theorem Thread.setP_links (th : Thread) (q : Nat) (b : Bool) : (th.setP q b).links = th.links := by
  unfold Thread.setP; split <;> rfl
@[simp] theorem Thread.setP_d1 (th : Thread) (q : Nat) (b : Bool) : (th.setP q b).d1 = th.d1 := by
  unfold Thread.setP; split <;> rfl
@[simp] theorem Thread.setP_d2 (th : Thread) (q : Nat) (b : Bool) : (th.setP q b).d2 = th.d2 := by
  unfold Thread.setP; split <;> rfl
@[simp] theorem Thread.setP_linkcnt (th : Thread) (q : Nat) (b : Bool) : (th.setP q b).linkcnt = th.linkcnt := by
  unfold Thread.setP; split <;> rfl
@[simp] theorem Thread.setP_pincnt (th : Thread) (q : Nat) (b : Bool) : (th.setP q b).pincnt = th.pincnt := by
  unfold Thread.setP; split <;> rfl
@[simp] theorem Thread.setP_ppriv (th : Thread) (q : Nat) (b : Bool) : (th.setP q b).ppriv = th.ppriv := by
  unfold Thread.setP; split <;> rfl
@[simp] theorem Thread.setP_cause (th : Thread) (q : Nat) (b : Bool) : (th.setP q b).cause = th.cause := by
  unfold Thread.setP; split <;> rfl
@[simp] theorem Thread.setP_epc (th : Thread) (q : Nat) (b : Bool) : (th.setP q b).epc = th.epc := by
  unfold Thread.setP; split <;> rfl
@[simp] theorem Thread.setP_v (th : Thread) (q : Nat) (b : Bool) : (th.setP q b).v = th.v := by
  unfold Thread.setP; split <;> rfl
@[simp] theorem Thread.setP_vregs (th : Thread) (q : Nat) (b : Bool) : (th.setP q b).vregs = th.vregs := by
  unfold Thread.setP; split <;> rfl
@[simp] theorem Thread.setP_pending (th : Thread) (q : Nat) (b : Bool) : (th.setP q b).pending = th.pending := by
  unfold Thread.setP; split <;> rfl
@[simp] theorem Thread.setP_silent (th : Thread) (q : Nat) (b : Bool) : (th.setP q b).silent = th.silent := by
  unfold Thread.setP; split <;> rfl
@[simp] theorem Thread.setP_posted (th : Thread) (q : Nat) (b : Bool) : (th.setP q b).posted = th.posted := by
  unfold Thread.setP; split <;> rfl
@[simp] theorem Thread.setP_tags (th : Thread) (q : Nat) (b : Bool) : (th.setP q b).tags = th.tags := by
  unfold Thread.setP; split <;> rfl
@[simp] theorem Thread.setP_hold (th : Thread) (q : Nat) (b : Bool) : (th.setP q b).hold = th.hold := by
  unfold Thread.setP; split <;> rfl
@[simp] theorem Thread.setP_wait (th : Thread) (q : Nat) (b : Bool) : (th.setP q b).wait = th.wait := by
  unfold Thread.setP; split <;> rfl
@[simp] theorem Thread.setP_mark (th : Thread) (q : Nat) (b : Bool) : (th.setP q b).mark = th.mark := by
  unfold Thread.setP; split <;> rfl
@[simp] theorem Thread.setP_denial (th : Thread) (q : Nat) (b : Bool) : (th.setP q b).denial = th.denial := by
  unfold Thread.setP; split <;> rfl
@[simp] theorem Thread.setP_quotaTaken (th : Thread) (q : Nat) (b : Bool) : (th.setP q b).quotaTaken = th.quotaTaken := by
  unfold Thread.setP; split <;> rfl
@[simp] theorem Thread.setP_draw (th : Thread) (q : Nat) (b : Bool) : (th.setP q b).draw = th.draw := by
  unfold Thread.setP; split <;> rfl
@[simp] theorem Thread.setP_block (th : Thread) (q : Nat) (b : Bool) : (th.setP q b).block = th.block := by
  unfold Thread.setP; split <;> rfl
@[simp] theorem Thread.setP_imaged (th : Thread) (q : Nat) (b : Bool) : (th.setP q b).imaged = th.imaged := by
  unfold Thread.setP; split <;> rfl
@[simp] theorem Thread.setP_issuing (th : Thread) (q : Nat) (b : Bool) : (th.setP q b).issuing = th.issuing := by
  unfold Thread.setP; split <;> rfl
@[simp] theorem Thread.setP_locks (th : Thread) (q : Nat) (b : Bool) : (th.setP q b).locks = th.locks := by
  unfold Thread.setP; split <;> rfl
@[simp] theorem Thread.setP_depart (th : Thread) (q : Nat) (b : Bool) : (th.setP q b).depart = th.depart := by
  unfold Thread.setP; split <;> rfl
@[simp] theorem Thread.setP_departAt (th : Thread) (q : Nat) (b : Bool) : (th.setP q b).departAt = th.departAt := by
  unfold Thread.setP; split <;> rfl
@[simp] theorem Thread.setP_walking (th : Thread) (q : Nat) (b : Bool) : (th.setP q b).walking = th.walking := by
  unfold Thread.setP; split <;> rfl
@[simp] theorem Thread.setP_waitt (th : Thread) (q : Nat) (b : Bool) : (th.setP q b).waitt = th.waitt := by
  unfold Thread.setP; split <;> rfl
@[simp] theorem Thread.setP_nextTurn (th : Thread) (q : Nat) (b : Bool) : (th.setP q b).nextTurn = th.nextTurn := by
  unfold Thread.setP; split <;> rfl
@[simp] theorem Thread.setP_issuedAt (th : Thread) (q : Nat) (b : Bool) : (th.setP q b).issuedAt = th.issuedAt := by
  unfold Thread.setP; split <;> rfl
@[simp] theorem Thread.setP_yieldUntil (th : Thread) (q : Nat) (b : Bool) : (th.setP q b).yieldUntil = th.yieldUntil := by
  unfold Thread.setP; split <;> rfl
@[simp] theorem Thread.setP_acks (th : Thread) (q : Nat) (b : Bool) : (th.setP q b).acks = th.acks := by
  unfold Thread.setP; split <;> rfl
@[simp] theorem Thread.setP_sent (th : Thread) (q : Nat) (b : Bool) : (th.setP q b).sent = th.sent := by
  unfold Thread.setP; split <;> rfl
@[simp] theorem Thread.setP_ackNo (th : Thread) (q : Nat) (b : Bool) : (th.setP q b).ackNo = th.ackNo := by
  unfold Thread.setP; split <;> rfl
@[simp] theorem Thread.setP_switching (th : Thread) (q : Nat) (b : Bool) : (th.setP q b).switching = th.switching := by
  unfold Thread.setP; split <;> rfl
@[simp] theorem Thread.setP_scratch (th : Thread) (q : Nat) (b : Bool) : (th.setP q b).scratch = th.scratch := by
  unfold Thread.setP; split <;> rfl
@[simp] theorem Thread.setP_faultAt (th : Thread) (q : Nat) (b : Bool) : (th.setP q b).faultAt = th.faultAt := by
  unfold Thread.setP; split <;> rfl
@[simp] theorem Thread.setP_faultVa (th : Thread) (q : Nat) (b : Bool) : (th.setP q b).faultVa = th.faultVa := by
  unfold Thread.setP; split <;> rfl
@[simp] theorem Thread.setP_haltedFrom (th : Thread) (q : Nat) (b : Bool) : (th.setP q b).haltedFrom = th.haltedFrom := by
  unfold Thread.setP; split <;> rfl

@[simp] theorem Thread.setK_st (th : Thread) (k : Nat) (x : BitVec 16) : (th.setK k x).st = th.st := by
  unfold Thread.setK; simp only []; split; · rfl
  split; · rfl
  split <;> rfl
@[simp] theorem Thread.setK_bounce (th : Thread) (k : Nat) (x : BitVec 16) : (th.setK k x).bounce = th.bounce := by
  unfold Thread.setK; simp only []; split; · rfl
  split; · rfl
  split <;> rfl
@[simp] theorem Thread.setK_prio (th : Thread) (k : Nat) (x : BitVec 16) : (th.setK k x).prio = th.prio := by
  unfold Thread.setK; simp only []; split; · rfl
  split; · rfl
  split <;> rfl
@[simp] theorem Thread.setK_priv (th : Thread) (k : Nat) (x : BitVec 16) : (th.setK k x).priv = th.priv := by
  unfold Thread.setK; simp only []; split; · rfl
  split; · rfl
  split <;> rfl
@[simp] theorem Thread.setK_hops (th : Thread) (k : Nat) (x : BitVec 16) : (th.setK k x).hops = th.hops := by
  unfold Thread.setK; simp only []; split; · rfl
  split; · rfl
  split <;> rfl
@[simp] theorem Thread.setK_pc (th : Thread) (k : Nat) (x : BitVec 16) : (th.setK k x).pc = th.pc := by
  unfold Thread.setK; simp only []; split; · rfl
  split; · rfl
  split <;> rfl
@[simp] theorem Thread.setK_p (th : Thread) (k : Nat) (x : BitVec 16) : (th.setK k x).p = th.p := by
  unfold Thread.setK; simp only []; split; · rfl
  split; · rfl
  split <;> rfl
@[simp] theorem Thread.setK_hz (th : Thread) (k : Nat) (x : BitVec 16) : (th.setK k x).hz = th.hz := by
  unfold Thread.setK; simp only []; split; · rfl
  split; · rfl
  split <;> rfl
@[simp] theorem Thread.setK_ldepth (th : Thread) (k : Nat) (x : BitVec 16) : (th.setK k x).ldepth = th.ldepth := by
  unfold Thread.setK; simp only []; split; · rfl
  split; · rfl
  split <;> rfl
@[simp] theorem Thread.setK_few (th : Thread) (k : Nat) (x : BitVec 16) : (th.setK k x).few = th.few := by
  unfold Thread.setK; simp only []; split; · rfl
  split; · rfl
  split <;> rfl
@[simp] theorem Thread.setK_frm (th : Thread) (k : Nat) (x : BitVec 16) : (th.setK k x).frm = th.frm := by
  unfold Thread.setK; simp only []; split; · rfl
  split; · rfl
  split <;> rfl
@[simp] theorem Thread.setK_flags (th : Thread) (k : Nat) (x : BitVec 16) : (th.setK k x).flags = th.flags := by
  unfold Thread.setK; simp only []; split; · rfl
  split; · rfl
  split <;> rfl
@[simp] theorem Thread.setK_vlive (th : Thread) (k : Nat) (x : BitVec 16) : (th.setK k x).vlive = th.vlive := by
  unfold Thread.setK; simp only []; split; · rfl
  split; · rfl
  split <;> rfl
@[simp] theorem Thread.setK_asid (th : Thread) (k : Nat) (x : BitVec 16) : (th.setK k x).asid = th.asid := by
  unfold Thread.setK; simp only []; split; · rfl
  split; · rfl
  split <;> rfl
@[simp] theorem Thread.setK_tid (th : Thread) (k : Nat) (x : BitVec 16) : (th.setK k x).tid = th.tid := by
  unfold Thread.setK; simp only []; split; · rfl
  split; · rfl
  split <;> rfl
@[simp] theorem Thread.setK_ava (th : Thread) (k : Nat) (x : BitVec 16) : (th.setK k x).ava = th.ava := by
  unfold Thread.setK; simp only []; split; · rfl
  split; · rfl
  split <;> rfl
@[simp] theorem Thread.setK_g0slot (th : Thread) (k : Nat) (x : BitVec 16) : (th.setK k x).g0slot = th.g0slot := by
  unfold Thread.setK; simp only []; split; · rfl
  split; · rfl
  split <;> rfl
@[simp] theorem Thread.setK_g (th : Thread) (k : Nat) (x : BitVec 16) : (th.setK k x).g = th.g := by
  unfold Thread.setK; simp only []; split; · rfl
  split; · rfl
  split <;> rfl
@[simp] theorem Thread.setK_links (th : Thread) (k : Nat) (x : BitVec 16) : (th.setK k x).links = th.links := by
  unfold Thread.setK; simp only []; split; · rfl
  split; · rfl
  split <;> rfl
@[simp] theorem Thread.setK_d1 (th : Thread) (k : Nat) (x : BitVec 16) : (th.setK k x).d1 = th.d1 := by
  unfold Thread.setK; simp only []; split; · rfl
  split; · rfl
  split <;> rfl
@[simp] theorem Thread.setK_d2 (th : Thread) (k : Nat) (x : BitVec 16) : (th.setK k x).d2 = th.d2 := by
  unfold Thread.setK; simp only []; split; · rfl
  split; · rfl
  split <;> rfl
@[simp] theorem Thread.setK_linkcnt (th : Thread) (k : Nat) (x : BitVec 16) : (th.setK k x).linkcnt = th.linkcnt := by
  unfold Thread.setK; simp only []; split; · rfl
  split; · rfl
  split <;> rfl
@[simp] theorem Thread.setK_pincnt (th : Thread) (k : Nat) (x : BitVec 16) : (th.setK k x).pincnt = th.pincnt := by
  unfold Thread.setK; simp only []; split; · rfl
  split; · rfl
  split <;> rfl
@[simp] theorem Thread.setK_ppriv (th : Thread) (k : Nat) (x : BitVec 16) : (th.setK k x).ppriv = th.ppriv := by
  unfold Thread.setK; simp only []; split; · rfl
  split; · rfl
  split <;> rfl
@[simp] theorem Thread.setK_cause (th : Thread) (k : Nat) (x : BitVec 16) : (th.setK k x).cause = th.cause := by
  unfold Thread.setK; simp only []; split; · rfl
  split; · rfl
  split <;> rfl
@[simp] theorem Thread.setK_epc (th : Thread) (k : Nat) (x : BitVec 16) : (th.setK k x).epc = th.epc := by
  unfold Thread.setK; simp only []; split; · rfl
  split; · rfl
  split <;> rfl
@[simp] theorem Thread.setK_v (th : Thread) (k : Nat) (x : BitVec 16) : (th.setK k x).v = th.v := by
  unfold Thread.setK; simp only []; split; · rfl
  split; · rfl
  split <;> rfl
@[simp] theorem Thread.setK_vregs (th : Thread) (k : Nat) (x : BitVec 16) : (th.setK k x).vregs = th.vregs := by
  unfold Thread.setK; simp only []; split; · rfl
  split; · rfl
  split <;> rfl
@[simp] theorem Thread.setK_pending (th : Thread) (k : Nat) (x : BitVec 16) : (th.setK k x).pending = th.pending := by
  unfold Thread.setK; simp only []; split; · rfl
  split; · rfl
  split <;> rfl
@[simp] theorem Thread.setK_silent (th : Thread) (k : Nat) (x : BitVec 16) : (th.setK k x).silent = th.silent := by
  unfold Thread.setK; simp only []; split; · rfl
  split; · rfl
  split <;> rfl
@[simp] theorem Thread.setK_posted (th : Thread) (k : Nat) (x : BitVec 16) : (th.setK k x).posted = th.posted := by
  unfold Thread.setK; simp only []; split; · rfl
  split; · rfl
  split <;> rfl
@[simp] theorem Thread.setK_tags (th : Thread) (k : Nat) (x : BitVec 16) : (th.setK k x).tags = th.tags := by
  unfold Thread.setK; simp only []; split; · rfl
  split; · rfl
  split <;> rfl
@[simp] theorem Thread.setK_hold (th : Thread) (k : Nat) (x : BitVec 16) : (th.setK k x).hold = th.hold := by
  unfold Thread.setK; simp only []; split; · rfl
  split; · rfl
  split <;> rfl
@[simp] theorem Thread.setK_wait (th : Thread) (k : Nat) (x : BitVec 16) : (th.setK k x).wait = th.wait := by
  unfold Thread.setK; simp only []; split; · rfl
  split; · rfl
  split <;> rfl
@[simp] theorem Thread.setK_mark (th : Thread) (k : Nat) (x : BitVec 16) : (th.setK k x).mark = th.mark := by
  unfold Thread.setK; simp only []; split; · rfl
  split; · rfl
  split <;> rfl
@[simp] theorem Thread.setK_denial (th : Thread) (k : Nat) (x : BitVec 16) : (th.setK k x).denial = th.denial := by
  unfold Thread.setK; simp only []; split; · rfl
  split; · rfl
  split <;> rfl
@[simp] theorem Thread.setK_quotaTaken (th : Thread) (k : Nat) (x : BitVec 16) : (th.setK k x).quotaTaken = th.quotaTaken := by
  unfold Thread.setK; simp only []; split; · rfl
  split; · rfl
  split <;> rfl
@[simp] theorem Thread.setK_draw (th : Thread) (k : Nat) (x : BitVec 16) : (th.setK k x).draw = th.draw := by
  unfold Thread.setK; simp only []; split; · rfl
  split; · rfl
  split <;> rfl
@[simp] theorem Thread.setK_block (th : Thread) (k : Nat) (x : BitVec 16) : (th.setK k x).block = th.block := by
  unfold Thread.setK; simp only []; split; · rfl
  split; · rfl
  split <;> rfl
@[simp] theorem Thread.setK_imaged (th : Thread) (k : Nat) (x : BitVec 16) : (th.setK k x).imaged = th.imaged := by
  unfold Thread.setK; simp only []; split; · rfl
  split; · rfl
  split <;> rfl
@[simp] theorem Thread.setK_issuing (th : Thread) (k : Nat) (x : BitVec 16) : (th.setK k x).issuing = th.issuing := by
  unfold Thread.setK; simp only []; split; · rfl
  split; · rfl
  split <;> rfl
@[simp] theorem Thread.setK_locks (th : Thread) (k : Nat) (x : BitVec 16) : (th.setK k x).locks = th.locks := by
  unfold Thread.setK; simp only []; split; · rfl
  split; · rfl
  split <;> rfl
@[simp] theorem Thread.setK_depart (th : Thread) (k : Nat) (x : BitVec 16) : (th.setK k x).depart = th.depart := by
  unfold Thread.setK; simp only []; split; · rfl
  split; · rfl
  split <;> rfl
@[simp] theorem Thread.setK_departAt (th : Thread) (k : Nat) (x : BitVec 16) : (th.setK k x).departAt = th.departAt := by
  unfold Thread.setK; simp only []; split; · rfl
  split; · rfl
  split <;> rfl
@[simp] theorem Thread.setK_walking (th : Thread) (k : Nat) (x : BitVec 16) : (th.setK k x).walking = th.walking := by
  unfold Thread.setK; simp only []; split; · rfl
  split; · rfl
  split <;> rfl
@[simp] theorem Thread.setK_waitt (th : Thread) (k : Nat) (x : BitVec 16) : (th.setK k x).waitt = th.waitt := by
  unfold Thread.setK; simp only []; split; · rfl
  split; · rfl
  split <;> rfl
@[simp] theorem Thread.setK_nextTurn (th : Thread) (k : Nat) (x : BitVec 16) : (th.setK k x).nextTurn = th.nextTurn := by
  unfold Thread.setK; simp only []; split; · rfl
  split; · rfl
  split <;> rfl
@[simp] theorem Thread.setK_issuedAt (th : Thread) (k : Nat) (x : BitVec 16) : (th.setK k x).issuedAt = th.issuedAt := by
  unfold Thread.setK; simp only []; split; · rfl
  split; · rfl
  split <;> rfl
@[simp] theorem Thread.setK_yieldUntil (th : Thread) (k : Nat) (x : BitVec 16) : (th.setK k x).yieldUntil = th.yieldUntil := by
  unfold Thread.setK; simp only []; split; · rfl
  split; · rfl
  split <;> rfl
@[simp] theorem Thread.setK_acks (th : Thread) (k : Nat) (x : BitVec 16) : (th.setK k x).acks = th.acks := by
  unfold Thread.setK; simp only []; split; · rfl
  split; · rfl
  split <;> rfl
@[simp] theorem Thread.setK_sent (th : Thread) (k : Nat) (x : BitVec 16) : (th.setK k x).sent = th.sent := by
  unfold Thread.setK; simp only []; split; · rfl
  split; · rfl
  split <;> rfl
@[simp] theorem Thread.setK_ackNo (th : Thread) (k : Nat) (x : BitVec 16) : (th.setK k x).ackNo = th.ackNo := by
  unfold Thread.setK; simp only []; split; · rfl
  split; · rfl
  split <;> rfl
@[simp] theorem Thread.setK_switching (th : Thread) (k : Nat) (x : BitVec 16) : (th.setK k x).switching = th.switching := by
  unfold Thread.setK; simp only []; split; · rfl
  split; · rfl
  split <;> rfl
@[simp] theorem Thread.setK_scratch (th : Thread) (k : Nat) (x : BitVec 16) : (th.setK k x).scratch = th.scratch := by
  unfold Thread.setK; simp only []; split; · rfl
  split; · rfl
  split <;> rfl
@[simp] theorem Thread.setK_faultAt (th : Thread) (k : Nat) (x : BitVec 16) : (th.setK k x).faultAt = th.faultAt := by
  unfold Thread.setK; simp only []; split; · rfl
  split; · rfl
  split <;> rfl
@[simp] theorem Thread.setK_faultVa (th : Thread) (k : Nat) (x : BitVec 16) : (th.setK k x).faultVa = th.faultVa := by
  unfold Thread.setK; simp only []; split; · rfl
  split; · rfl
  split <;> rfl
@[simp] theorem Thread.setK_haltedFrom (th : Thread) (k : Nat) (x : BitVec 16) : (th.setK k x).haltedFrom = th.haltedFrom := by
  unfold Thread.setK; simp only []; split; · rfl
  split; · rfl
  split <;> rfl

@[simp] theorem Thread.setV_st (th : Thread) (v : Nat) (x : Line) : (th.setV v x).st = th.st := rfl
@[simp] theorem Thread.setV_bounce (th : Thread) (v : Nat) (x : Line) : (th.setV v x).bounce = th.bounce := rfl
@[simp] theorem Thread.setV_prio (th : Thread) (v : Nat) (x : Line) : (th.setV v x).prio = th.prio := rfl
@[simp] theorem Thread.setV_priv (th : Thread) (v : Nat) (x : Line) : (th.setV v x).priv = th.priv := rfl
@[simp] theorem Thread.setV_hops (th : Thread) (v : Nat) (x : Line) : (th.setV v x).hops = th.hops := rfl
@[simp] theorem Thread.setV_pc (th : Thread) (v : Nat) (x : Line) : (th.setV v x).pc = th.pc := rfl
@[simp] theorem Thread.setV_p (th : Thread) (v : Nat) (x : Line) : (th.setV v x).p = th.p := rfl
@[simp] theorem Thread.setV_k1 (th : Thread) (v : Nat) (x : Line) : (th.setV v x).k1 = th.k1 := rfl
@[simp] theorem Thread.setV_k2 (th : Thread) (v : Nat) (x : Line) : (th.setV v x).k2 = th.k2 := rfl
@[simp] theorem Thread.setV_k3 (th : Thread) (v : Nat) (x : Line) : (th.setV v x).k3 = th.k3 := rfl
@[simp] theorem Thread.setV_hz (th : Thread) (v : Nat) (x : Line) : (th.setV v x).hz = th.hz := rfl
@[simp] theorem Thread.setV_ldepth (th : Thread) (v : Nat) (x : Line) : (th.setV v x).ldepth = th.ldepth := rfl
@[simp] theorem Thread.setV_few (th : Thread) (v : Nat) (x : Line) : (th.setV v x).few = th.few := rfl
@[simp] theorem Thread.setV_frm (th : Thread) (v : Nat) (x : Line) : (th.setV v x).frm = th.frm := rfl
@[simp] theorem Thread.setV_flags (th : Thread) (v : Nat) (x : Line) : (th.setV v x).flags = th.flags := rfl
@[simp] theorem Thread.setV_asid (th : Thread) (v : Nat) (x : Line) : (th.setV v x).asid = th.asid := rfl
@[simp] theorem Thread.setV_tid (th : Thread) (v : Nat) (x : Line) : (th.setV v x).tid = th.tid := rfl
@[simp] theorem Thread.setV_ava (th : Thread) (v : Nat) (x : Line) : (th.setV v x).ava = th.ava := rfl
@[simp] theorem Thread.setV_g0slot (th : Thread) (v : Nat) (x : Line) : (th.setV v x).g0slot = th.g0slot := rfl
@[simp] theorem Thread.setV_g (th : Thread) (v : Nat) (x : Line) : (th.setV v x).g = th.g := rfl
@[simp] theorem Thread.setV_links (th : Thread) (v : Nat) (x : Line) : (th.setV v x).links = th.links := rfl
@[simp] theorem Thread.setV_d1 (th : Thread) (v : Nat) (x : Line) : (th.setV v x).d1 = th.d1 := rfl
@[simp] theorem Thread.setV_d2 (th : Thread) (v : Nat) (x : Line) : (th.setV v x).d2 = th.d2 := rfl
@[simp] theorem Thread.setV_linkcnt (th : Thread) (v : Nat) (x : Line) : (th.setV v x).linkcnt = th.linkcnt := rfl
@[simp] theorem Thread.setV_pincnt (th : Thread) (v : Nat) (x : Line) : (th.setV v x).pincnt = th.pincnt := rfl
@[simp] theorem Thread.setV_ppriv (th : Thread) (v : Nat) (x : Line) : (th.setV v x).ppriv = th.ppriv := rfl
@[simp] theorem Thread.setV_cause (th : Thread) (v : Nat) (x : Line) : (th.setV v x).cause = th.cause := rfl
@[simp] theorem Thread.setV_epc (th : Thread) (v : Nat) (x : Line) : (th.setV v x).epc = th.epc := rfl
@[simp] theorem Thread.setV_vregs (th : Thread) (v : Nat) (x : Line) : (th.setV v x).vregs = th.vregs := rfl
@[simp] theorem Thread.setV_pending (th : Thread) (v : Nat) (x : Line) : (th.setV v x).pending = th.pending := rfl
@[simp] theorem Thread.setV_silent (th : Thread) (v : Nat) (x : Line) : (th.setV v x).silent = th.silent := rfl
@[simp] theorem Thread.setV_posted (th : Thread) (v : Nat) (x : Line) : (th.setV v x).posted = th.posted := rfl
@[simp] theorem Thread.setV_tags (th : Thread) (v : Nat) (x : Line) : (th.setV v x).tags = th.tags := rfl
@[simp] theorem Thread.setV_hold (th : Thread) (v : Nat) (x : Line) : (th.setV v x).hold = th.hold := rfl
@[simp] theorem Thread.setV_wait (th : Thread) (v : Nat) (x : Line) : (th.setV v x).wait = th.wait := rfl
@[simp] theorem Thread.setV_mark (th : Thread) (v : Nat) (x : Line) : (th.setV v x).mark = th.mark := rfl
@[simp] theorem Thread.setV_denial (th : Thread) (v : Nat) (x : Line) : (th.setV v x).denial = th.denial := rfl
@[simp] theorem Thread.setV_quotaTaken (th : Thread) (v : Nat) (x : Line) : (th.setV v x).quotaTaken = th.quotaTaken := rfl
@[simp] theorem Thread.setV_draw (th : Thread) (v : Nat) (x : Line) : (th.setV v x).draw = th.draw := rfl
@[simp] theorem Thread.setV_block (th : Thread) (v : Nat) (x : Line) : (th.setV v x).block = th.block := rfl
@[simp] theorem Thread.setV_imaged (th : Thread) (v : Nat) (x : Line) : (th.setV v x).imaged = th.imaged := rfl
@[simp] theorem Thread.setV_issuing (th : Thread) (v : Nat) (x : Line) : (th.setV v x).issuing = th.issuing := rfl
@[simp] theorem Thread.setV_locks (th : Thread) (v : Nat) (x : Line) : (th.setV v x).locks = th.locks := rfl
@[simp] theorem Thread.setV_depart (th : Thread) (v : Nat) (x : Line) : (th.setV v x).depart = th.depart := rfl
@[simp] theorem Thread.setV_departAt (th : Thread) (v : Nat) (x : Line) : (th.setV v x).departAt = th.departAt := rfl
@[simp] theorem Thread.setV_walking (th : Thread) (v : Nat) (x : Line) : (th.setV v x).walking = th.walking := rfl
@[simp] theorem Thread.setV_waitt (th : Thread) (v : Nat) (x : Line) : (th.setV v x).waitt = th.waitt := rfl
@[simp] theorem Thread.setV_nextTurn (th : Thread) (v : Nat) (x : Line) : (th.setV v x).nextTurn = th.nextTurn := rfl
@[simp] theorem Thread.setV_issuedAt (th : Thread) (v : Nat) (x : Line) : (th.setV v x).issuedAt = th.issuedAt := rfl
@[simp] theorem Thread.setV_yieldUntil (th : Thread) (v : Nat) (x : Line) : (th.setV v x).yieldUntil = th.yieldUntil := rfl
@[simp] theorem Thread.setV_acks (th : Thread) (v : Nat) (x : Line) : (th.setV v x).acks = th.acks := rfl
@[simp] theorem Thread.setV_sent (th : Thread) (v : Nat) (x : Line) : (th.setV v x).sent = th.sent := rfl
@[simp] theorem Thread.setV_ackNo (th : Thread) (v : Nat) (x : Line) : (th.setV v x).ackNo = th.ackNo := rfl
@[simp] theorem Thread.setV_switching (th : Thread) (v : Nat) (x : Line) : (th.setV v x).switching = th.switching := rfl
@[simp] theorem Thread.setV_scratch (th : Thread) (v : Nat) (x : Line) : (th.setV v x).scratch = th.scratch := rfl
@[simp] theorem Thread.setV_faultAt (th : Thread) (v : Nat) (x : Line) : (th.setV v x).faultAt = th.faultAt := rfl
@[simp] theorem Thread.setV_faultVa (th : Thread) (v : Nat) (x : Line) : (th.setV v x).faultVa = th.faultVa := rfl
@[simp] theorem Thread.setV_haltedFrom (th : Thread) (v : Nat) (x : Line) : (th.setV v x).haltedFrom = th.haltedFrom := rfl

@[simp] theorem Thread.freeV_st (th : Thread) (v : Nat) : (th.freeV v).st = th.st := rfl
@[simp] theorem Thread.freeV_bounce (th : Thread) (v : Nat) : (th.freeV v).bounce = th.bounce := rfl
@[simp] theorem Thread.freeV_prio (th : Thread) (v : Nat) : (th.freeV v).prio = th.prio := rfl
@[simp] theorem Thread.freeV_priv (th : Thread) (v : Nat) : (th.freeV v).priv = th.priv := rfl
@[simp] theorem Thread.freeV_hops (th : Thread) (v : Nat) : (th.freeV v).hops = th.hops := rfl
@[simp] theorem Thread.freeV_pc (th : Thread) (v : Nat) : (th.freeV v).pc = th.pc := rfl
@[simp] theorem Thread.freeV_p (th : Thread) (v : Nat) : (th.freeV v).p = th.p := rfl
@[simp] theorem Thread.freeV_k1 (th : Thread) (v : Nat) : (th.freeV v).k1 = th.k1 := rfl
@[simp] theorem Thread.freeV_k2 (th : Thread) (v : Nat) : (th.freeV v).k2 = th.k2 := rfl
@[simp] theorem Thread.freeV_k3 (th : Thread) (v : Nat) : (th.freeV v).k3 = th.k3 := rfl
@[simp] theorem Thread.freeV_hz (th : Thread) (v : Nat) : (th.freeV v).hz = th.hz := rfl
@[simp] theorem Thread.freeV_ldepth (th : Thread) (v : Nat) : (th.freeV v).ldepth = th.ldepth := rfl
@[simp] theorem Thread.freeV_few (th : Thread) (v : Nat) : (th.freeV v).few = th.few := rfl
@[simp] theorem Thread.freeV_frm (th : Thread) (v : Nat) : (th.freeV v).frm = th.frm := rfl
@[simp] theorem Thread.freeV_flags (th : Thread) (v : Nat) : (th.freeV v).flags = th.flags := rfl
@[simp] theorem Thread.freeV_asid (th : Thread) (v : Nat) : (th.freeV v).asid = th.asid := rfl
@[simp] theorem Thread.freeV_tid (th : Thread) (v : Nat) : (th.freeV v).tid = th.tid := rfl
@[simp] theorem Thread.freeV_ava (th : Thread) (v : Nat) : (th.freeV v).ava = th.ava := rfl
@[simp] theorem Thread.freeV_g0slot (th : Thread) (v : Nat) : (th.freeV v).g0slot = th.g0slot := rfl
@[simp] theorem Thread.freeV_g (th : Thread) (v : Nat) : (th.freeV v).g = th.g := rfl
@[simp] theorem Thread.freeV_links (th : Thread) (v : Nat) : (th.freeV v).links = th.links := rfl
@[simp] theorem Thread.freeV_d1 (th : Thread) (v : Nat) : (th.freeV v).d1 = th.d1 := rfl
@[simp] theorem Thread.freeV_d2 (th : Thread) (v : Nat) : (th.freeV v).d2 = th.d2 := rfl
@[simp] theorem Thread.freeV_linkcnt (th : Thread) (v : Nat) : (th.freeV v).linkcnt = th.linkcnt := rfl
@[simp] theorem Thread.freeV_pincnt (th : Thread) (v : Nat) : (th.freeV v).pincnt = th.pincnt := rfl
@[simp] theorem Thread.freeV_ppriv (th : Thread) (v : Nat) : (th.freeV v).ppriv = th.ppriv := rfl
@[simp] theorem Thread.freeV_cause (th : Thread) (v : Nat) : (th.freeV v).cause = th.cause := rfl
@[simp] theorem Thread.freeV_epc (th : Thread) (v : Nat) : (th.freeV v).epc = th.epc := rfl
@[simp] theorem Thread.freeV_vregs (th : Thread) (v : Nat) : (th.freeV v).vregs = th.vregs := rfl
@[simp] theorem Thread.freeV_pending (th : Thread) (v : Nat) : (th.freeV v).pending = th.pending := rfl
@[simp] theorem Thread.freeV_silent (th : Thread) (v : Nat) : (th.freeV v).silent = th.silent := rfl
@[simp] theorem Thread.freeV_posted (th : Thread) (v : Nat) : (th.freeV v).posted = th.posted := rfl
@[simp] theorem Thread.freeV_tags (th : Thread) (v : Nat) : (th.freeV v).tags = th.tags := rfl
@[simp] theorem Thread.freeV_hold (th : Thread) (v : Nat) : (th.freeV v).hold = th.hold := rfl
@[simp] theorem Thread.freeV_wait (th : Thread) (v : Nat) : (th.freeV v).wait = th.wait := rfl
@[simp] theorem Thread.freeV_mark (th : Thread) (v : Nat) : (th.freeV v).mark = th.mark := rfl
@[simp] theorem Thread.freeV_denial (th : Thread) (v : Nat) : (th.freeV v).denial = th.denial := rfl
@[simp] theorem Thread.freeV_quotaTaken (th : Thread) (v : Nat) : (th.freeV v).quotaTaken = th.quotaTaken := rfl
@[simp] theorem Thread.freeV_draw (th : Thread) (v : Nat) : (th.freeV v).draw = th.draw := rfl
@[simp] theorem Thread.freeV_block (th : Thread) (v : Nat) : (th.freeV v).block = th.block := rfl
@[simp] theorem Thread.freeV_imaged (th : Thread) (v : Nat) : (th.freeV v).imaged = th.imaged := rfl
@[simp] theorem Thread.freeV_issuing (th : Thread) (v : Nat) : (th.freeV v).issuing = th.issuing := rfl
@[simp] theorem Thread.freeV_locks (th : Thread) (v : Nat) : (th.freeV v).locks = th.locks := rfl
@[simp] theorem Thread.freeV_depart (th : Thread) (v : Nat) : (th.freeV v).depart = th.depart := rfl
@[simp] theorem Thread.freeV_departAt (th : Thread) (v : Nat) : (th.freeV v).departAt = th.departAt := rfl
@[simp] theorem Thread.freeV_walking (th : Thread) (v : Nat) : (th.freeV v).walking = th.walking := rfl
@[simp] theorem Thread.freeV_waitt (th : Thread) (v : Nat) : (th.freeV v).waitt = th.waitt := rfl
@[simp] theorem Thread.freeV_nextTurn (th : Thread) (v : Nat) : (th.freeV v).nextTurn = th.nextTurn := rfl
@[simp] theorem Thread.freeV_issuedAt (th : Thread) (v : Nat) : (th.freeV v).issuedAt = th.issuedAt := rfl
@[simp] theorem Thread.freeV_yieldUntil (th : Thread) (v : Nat) : (th.freeV v).yieldUntil = th.yieldUntil := rfl
@[simp] theorem Thread.freeV_acks (th : Thread) (v : Nat) : (th.freeV v).acks = th.acks := rfl
@[simp] theorem Thread.freeV_sent (th : Thread) (v : Nat) : (th.freeV v).sent = th.sent := rfl
@[simp] theorem Thread.freeV_ackNo (th : Thread) (v : Nat) : (th.freeV v).ackNo = th.ackNo := rfl
@[simp] theorem Thread.freeV_switching (th : Thread) (v : Nat) : (th.freeV v).switching = th.switching := rfl
@[simp] theorem Thread.freeV_parity (th : Thread) (v : Nat) : (th.freeV v).parity = th.parity := rfl
@[simp] theorem Thread.freeV_scratch (th : Thread) (v : Nat) : (th.freeV v).scratch = th.scratch := rfl
@[simp] theorem Thread.freeV_faultAt (th : Thread) (v : Nat) : (th.freeV v).faultAt = th.faultAt := rfl
@[simp] theorem Thread.freeV_faultVa (th : Thread) (v : Nat) : (th.freeV v).faultVa = th.faultVa := rfl
@[simp] theorem Thread.freeV_haltedFrom (th : Thread) (v : Nat) : (th.freeV v).haltedFrom = th.haltedFrom := rfl

@[simp] theorem Thread.await_st (th : Thread) (p : Pending) : (th.await p).st = th.st := rfl
@[simp] theorem Thread.await_bounce (th : Thread) (p : Pending) : (th.await p).bounce = th.bounce := rfl
@[simp] theorem Thread.await_prio (th : Thread) (p : Pending) : (th.await p).prio = th.prio := rfl
@[simp] theorem Thread.await_priv (th : Thread) (p : Pending) : (th.await p).priv = th.priv := rfl
@[simp] theorem Thread.await_hops (th : Thread) (p : Pending) : (th.await p).hops = th.hops := rfl
@[simp] theorem Thread.await_pc (th : Thread) (p : Pending) : (th.await p).pc = th.pc := rfl
@[simp] theorem Thread.await_p (th : Thread) (p : Pending) : (th.await p).p = th.p := rfl
@[simp] theorem Thread.await_k1 (th : Thread) (p : Pending) : (th.await p).k1 = th.k1 := rfl
@[simp] theorem Thread.await_k2 (th : Thread) (p : Pending) : (th.await p).k2 = th.k2 := rfl
@[simp] theorem Thread.await_k3 (th : Thread) (p : Pending) : (th.await p).k3 = th.k3 := rfl
@[simp] theorem Thread.await_hz (th : Thread) (p : Pending) : (th.await p).hz = th.hz := rfl
@[simp] theorem Thread.await_ldepth (th : Thread) (p : Pending) : (th.await p).ldepth = th.ldepth := rfl
@[simp] theorem Thread.await_few (th : Thread) (p : Pending) : (th.await p).few = th.few := rfl
@[simp] theorem Thread.await_frm (th : Thread) (p : Pending) : (th.await p).frm = th.frm := rfl
@[simp] theorem Thread.await_flags (th : Thread) (p : Pending) : (th.await p).flags = th.flags := rfl
@[simp] theorem Thread.await_vlive (th : Thread) (p : Pending) : (th.await p).vlive = th.vlive := rfl
@[simp] theorem Thread.await_asid (th : Thread) (p : Pending) : (th.await p).asid = th.asid := rfl
@[simp] theorem Thread.await_tid (th : Thread) (p : Pending) : (th.await p).tid = th.tid := rfl
@[simp] theorem Thread.await_ava (th : Thread) (p : Pending) : (th.await p).ava = th.ava := rfl
@[simp] theorem Thread.await_g0slot (th : Thread) (p : Pending) : (th.await p).g0slot = th.g0slot := rfl
@[simp] theorem Thread.await_g (th : Thread) (p : Pending) : (th.await p).g = th.g := rfl
@[simp] theorem Thread.await_links (th : Thread) (p : Pending) : (th.await p).links = th.links := rfl
@[simp] theorem Thread.await_d1 (th : Thread) (p : Pending) : (th.await p).d1 = th.d1 := rfl
@[simp] theorem Thread.await_d2 (th : Thread) (p : Pending) : (th.await p).d2 = th.d2 := rfl
@[simp] theorem Thread.await_linkcnt (th : Thread) (p : Pending) : (th.await p).linkcnt = th.linkcnt := rfl
@[simp] theorem Thread.await_pincnt (th : Thread) (p : Pending) : (th.await p).pincnt = th.pincnt := rfl
@[simp] theorem Thread.await_ppriv (th : Thread) (p : Pending) : (th.await p).ppriv = th.ppriv := rfl
@[simp] theorem Thread.await_cause (th : Thread) (p : Pending) : (th.await p).cause = th.cause := rfl
@[simp] theorem Thread.await_epc (th : Thread) (p : Pending) : (th.await p).epc = th.epc := rfl
@[simp] theorem Thread.await_v (th : Thread) (p : Pending) : (th.await p).v = th.v := rfl
@[simp] theorem Thread.await_vregs (th : Thread) (p : Pending) : (th.await p).vregs = th.vregs := rfl
@[simp] theorem Thread.await_posted (th : Thread) (p : Pending) : (th.await p).posted = th.posted := rfl
@[simp] theorem Thread.await_hold (th : Thread) (p : Pending) : (th.await p).hold = th.hold := rfl
@[simp] theorem Thread.await_wait (th : Thread) (p : Pending) : (th.await p).wait = th.wait := rfl
@[simp] theorem Thread.await_mark (th : Thread) (p : Pending) : (th.await p).mark = th.mark := rfl
@[simp] theorem Thread.await_denial (th : Thread) (p : Pending) : (th.await p).denial = th.denial := rfl
@[simp] theorem Thread.await_quotaTaken (th : Thread) (p : Pending) : (th.await p).quotaTaken = th.quotaTaken := rfl
@[simp] theorem Thread.await_draw (th : Thread) (p : Pending) : (th.await p).draw = th.draw := rfl
@[simp] theorem Thread.await_block (th : Thread) (p : Pending) : (th.await p).block = th.block := rfl
@[simp] theorem Thread.await_imaged (th : Thread) (p : Pending) : (th.await p).imaged = th.imaged := rfl
@[simp] theorem Thread.await_issuing (th : Thread) (p : Pending) : (th.await p).issuing = th.issuing := rfl
@[simp] theorem Thread.await_locks (th : Thread) (p : Pending) : (th.await p).locks = th.locks := rfl
@[simp] theorem Thread.await_depart (th : Thread) (p : Pending) : (th.await p).depart = th.depart := rfl
@[simp] theorem Thread.await_departAt (th : Thread) (p : Pending) : (th.await p).departAt = th.departAt := rfl
@[simp] theorem Thread.await_walking (th : Thread) (p : Pending) : (th.await p).walking = th.walking := rfl
@[simp] theorem Thread.await_waitt (th : Thread) (p : Pending) : (th.await p).waitt = th.waitt := rfl
@[simp] theorem Thread.await_nextTurn (th : Thread) (p : Pending) : (th.await p).nextTurn = th.nextTurn := rfl
@[simp] theorem Thread.await_issuedAt (th : Thread) (p : Pending) : (th.await p).issuedAt = th.issuedAt := rfl
@[simp] theorem Thread.await_yieldUntil (th : Thread) (p : Pending) : (th.await p).yieldUntil = th.yieldUntil := rfl
@[simp] theorem Thread.await_acks (th : Thread) (p : Pending) : (th.await p).acks = th.acks := rfl
@[simp] theorem Thread.await_sent (th : Thread) (p : Pending) : (th.await p).sent = th.sent := rfl
@[simp] theorem Thread.await_ackNo (th : Thread) (p : Pending) : (th.await p).ackNo = th.ackNo := rfl
@[simp] theorem Thread.await_switching (th : Thread) (p : Pending) : (th.await p).switching = th.switching := rfl
@[simp] theorem Thread.await_parity (th : Thread) (p : Pending) : (th.await p).parity = th.parity := rfl
@[simp] theorem Thread.await_scratch (th : Thread) (p : Pending) : (th.await p).scratch = th.scratch := rfl
@[simp] theorem Thread.await_faultAt (th : Thread) (p : Pending) : (th.await p).faultAt = th.faultAt := rfl
@[simp] theorem Thread.await_faultVa (th : Thread) (p : Pending) : (th.await p).faultVa = th.faultVa := rfl
@[simp] theorem Thread.await_haltedFrom (th : Thread) (p : Pending) : (th.await p).haltedFrom = th.haltedFrom := rfl

@[simp] theorem Thread.pends_st (th : Thread) (ready : Bool) (ds : List Dest) (ws : List RegWrite) (flags : BitVec 5) : (th.pends ready ds ws flags).st = th.st := rfl
@[simp] theorem Thread.pends_bounce (th : Thread) (ready : Bool) (ds : List Dest) (ws : List RegWrite) (flags : BitVec 5) : (th.pends ready ds ws flags).bounce = th.bounce := rfl
@[simp] theorem Thread.pends_prio (th : Thread) (ready : Bool) (ds : List Dest) (ws : List RegWrite) (flags : BitVec 5) : (th.pends ready ds ws flags).prio = th.prio := rfl
@[simp] theorem Thread.pends_priv (th : Thread) (ready : Bool) (ds : List Dest) (ws : List RegWrite) (flags : BitVec 5) : (th.pends ready ds ws flags).priv = th.priv := rfl
@[simp] theorem Thread.pends_hops (th : Thread) (ready : Bool) (ds : List Dest) (ws : List RegWrite) (flags : BitVec 5) : (th.pends ready ds ws flags).hops = th.hops := rfl
@[simp] theorem Thread.pends_pc (th : Thread) (ready : Bool) (ds : List Dest) (ws : List RegWrite) (flags : BitVec 5) : (th.pends ready ds ws flags).pc = th.pc := rfl
@[simp] theorem Thread.pends_p (th : Thread) (ready : Bool) (ds : List Dest) (ws : List RegWrite) (flags : BitVec 5) : (th.pends ready ds ws flags).p = th.p := rfl
@[simp] theorem Thread.pends_k1 (th : Thread) (ready : Bool) (ds : List Dest) (ws : List RegWrite) (flags : BitVec 5) : (th.pends ready ds ws flags).k1 = th.k1 := rfl
@[simp] theorem Thread.pends_k2 (th : Thread) (ready : Bool) (ds : List Dest) (ws : List RegWrite) (flags : BitVec 5) : (th.pends ready ds ws flags).k2 = th.k2 := rfl
@[simp] theorem Thread.pends_k3 (th : Thread) (ready : Bool) (ds : List Dest) (ws : List RegWrite) (flags : BitVec 5) : (th.pends ready ds ws flags).k3 = th.k3 := rfl
@[simp] theorem Thread.pends_hz (th : Thread) (ready : Bool) (ds : List Dest) (ws : List RegWrite) (flags : BitVec 5) : (th.pends ready ds ws flags).hz = th.hz := rfl
@[simp] theorem Thread.pends_ldepth (th : Thread) (ready : Bool) (ds : List Dest) (ws : List RegWrite) (flags : BitVec 5) : (th.pends ready ds ws flags).ldepth = th.ldepth := rfl
@[simp] theorem Thread.pends_few (th : Thread) (ready : Bool) (ds : List Dest) (ws : List RegWrite) (flags : BitVec 5) : (th.pends ready ds ws flags).few = th.few := rfl
@[simp] theorem Thread.pends_frm (th : Thread) (ready : Bool) (ds : List Dest) (ws : List RegWrite) (flags : BitVec 5) : (th.pends ready ds ws flags).frm = th.frm := rfl
@[simp] theorem Thread.pends_vlive (th : Thread) (ready : Bool) (ds : List Dest) (ws : List RegWrite) (flags : BitVec 5) : (th.pends ready ds ws flags).vlive = th.vlive := rfl
@[simp] theorem Thread.pends_asid (th : Thread) (ready : Bool) (ds : List Dest) (ws : List RegWrite) (flags : BitVec 5) : (th.pends ready ds ws flags).asid = th.asid := rfl
@[simp] theorem Thread.pends_tid (th : Thread) (ready : Bool) (ds : List Dest) (ws : List RegWrite) (flags : BitVec 5) : (th.pends ready ds ws flags).tid = th.tid := rfl
@[simp] theorem Thread.pends_ava (th : Thread) (ready : Bool) (ds : List Dest) (ws : List RegWrite) (flags : BitVec 5) : (th.pends ready ds ws flags).ava = th.ava := rfl
@[simp] theorem Thread.pends_g0slot (th : Thread) (ready : Bool) (ds : List Dest) (ws : List RegWrite) (flags : BitVec 5) : (th.pends ready ds ws flags).g0slot = th.g0slot := rfl
@[simp] theorem Thread.pends_g (th : Thread) (ready : Bool) (ds : List Dest) (ws : List RegWrite) (flags : BitVec 5) : (th.pends ready ds ws flags).g = th.g := rfl
@[simp] theorem Thread.pends_links (th : Thread) (ready : Bool) (ds : List Dest) (ws : List RegWrite) (flags : BitVec 5) : (th.pends ready ds ws flags).links = th.links := rfl
@[simp] theorem Thread.pends_d1 (th : Thread) (ready : Bool) (ds : List Dest) (ws : List RegWrite) (flags : BitVec 5) : (th.pends ready ds ws flags).d1 = th.d1 := rfl
@[simp] theorem Thread.pends_d2 (th : Thread) (ready : Bool) (ds : List Dest) (ws : List RegWrite) (flags : BitVec 5) : (th.pends ready ds ws flags).d2 = th.d2 := rfl
@[simp] theorem Thread.pends_linkcnt (th : Thread) (ready : Bool) (ds : List Dest) (ws : List RegWrite) (flags : BitVec 5) : (th.pends ready ds ws flags).linkcnt = th.linkcnt := rfl
@[simp] theorem Thread.pends_pincnt (th : Thread) (ready : Bool) (ds : List Dest) (ws : List RegWrite) (flags : BitVec 5) : (th.pends ready ds ws flags).pincnt = th.pincnt := rfl
@[simp] theorem Thread.pends_ppriv (th : Thread) (ready : Bool) (ds : List Dest) (ws : List RegWrite) (flags : BitVec 5) : (th.pends ready ds ws flags).ppriv = th.ppriv := rfl
@[simp] theorem Thread.pends_cause (th : Thread) (ready : Bool) (ds : List Dest) (ws : List RegWrite) (flags : BitVec 5) : (th.pends ready ds ws flags).cause = th.cause := rfl
@[simp] theorem Thread.pends_epc (th : Thread) (ready : Bool) (ds : List Dest) (ws : List RegWrite) (flags : BitVec 5) : (th.pends ready ds ws flags).epc = th.epc := rfl
@[simp] theorem Thread.pends_v (th : Thread) (ready : Bool) (ds : List Dest) (ws : List RegWrite) (flags : BitVec 5) : (th.pends ready ds ws flags).v = th.v := rfl
@[simp] theorem Thread.pends_vregs (th : Thread) (ready : Bool) (ds : List Dest) (ws : List RegWrite) (flags : BitVec 5) : (th.pends ready ds ws flags).vregs = th.vregs := rfl
@[simp] theorem Thread.pends_posted (th : Thread) (ready : Bool) (ds : List Dest) (ws : List RegWrite) (flags : BitVec 5) : (th.pends ready ds ws flags).posted = th.posted := rfl
@[simp] theorem Thread.pends_hold (th : Thread) (ready : Bool) (ds : List Dest) (ws : List RegWrite) (flags : BitVec 5) : (th.pends ready ds ws flags).hold = th.hold := rfl
@[simp] theorem Thread.pends_wait (th : Thread) (ready : Bool) (ds : List Dest) (ws : List RegWrite) (flags : BitVec 5) : (th.pends ready ds ws flags).wait = th.wait := rfl
@[simp] theorem Thread.pends_mark (th : Thread) (ready : Bool) (ds : List Dest) (ws : List RegWrite) (flags : BitVec 5) : (th.pends ready ds ws flags).mark = th.mark := rfl
@[simp] theorem Thread.pends_denial (th : Thread) (ready : Bool) (ds : List Dest) (ws : List RegWrite) (flags : BitVec 5) : (th.pends ready ds ws flags).denial = th.denial := rfl
@[simp] theorem Thread.pends_quotaTaken (th : Thread) (ready : Bool) (ds : List Dest) (ws : List RegWrite) (flags : BitVec 5) : (th.pends ready ds ws flags).quotaTaken = th.quotaTaken := rfl
@[simp] theorem Thread.pends_draw (th : Thread) (ready : Bool) (ds : List Dest) (ws : List RegWrite) (flags : BitVec 5) : (th.pends ready ds ws flags).draw = th.draw := rfl
@[simp] theorem Thread.pends_block (th : Thread) (ready : Bool) (ds : List Dest) (ws : List RegWrite) (flags : BitVec 5) : (th.pends ready ds ws flags).block = th.block := rfl
@[simp] theorem Thread.pends_imaged (th : Thread) (ready : Bool) (ds : List Dest) (ws : List RegWrite) (flags : BitVec 5) : (th.pends ready ds ws flags).imaged = th.imaged := rfl
@[simp] theorem Thread.pends_issuing (th : Thread) (ready : Bool) (ds : List Dest) (ws : List RegWrite) (flags : BitVec 5) : (th.pends ready ds ws flags).issuing = th.issuing := rfl
@[simp] theorem Thread.pends_locks (th : Thread) (ready : Bool) (ds : List Dest) (ws : List RegWrite) (flags : BitVec 5) : (th.pends ready ds ws flags).locks = th.locks := rfl
@[simp] theorem Thread.pends_depart (th : Thread) (ready : Bool) (ds : List Dest) (ws : List RegWrite) (flags : BitVec 5) : (th.pends ready ds ws flags).depart = th.depart := rfl
@[simp] theorem Thread.pends_departAt (th : Thread) (ready : Bool) (ds : List Dest) (ws : List RegWrite) (flags : BitVec 5) : (th.pends ready ds ws flags).departAt = th.departAt := rfl
@[simp] theorem Thread.pends_walking (th : Thread) (ready : Bool) (ds : List Dest) (ws : List RegWrite) (flags : BitVec 5) : (th.pends ready ds ws flags).walking = th.walking := rfl
@[simp] theorem Thread.pends_waitt (th : Thread) (ready : Bool) (ds : List Dest) (ws : List RegWrite) (flags : BitVec 5) : (th.pends ready ds ws flags).waitt = th.waitt := rfl
@[simp] theorem Thread.pends_nextTurn (th : Thread) (ready : Bool) (ds : List Dest) (ws : List RegWrite) (flags : BitVec 5) : (th.pends ready ds ws flags).nextTurn = th.nextTurn := rfl
@[simp] theorem Thread.pends_issuedAt (th : Thread) (ready : Bool) (ds : List Dest) (ws : List RegWrite) (flags : BitVec 5) : (th.pends ready ds ws flags).issuedAt = th.issuedAt := rfl
@[simp] theorem Thread.pends_yieldUntil (th : Thread) (ready : Bool) (ds : List Dest) (ws : List RegWrite) (flags : BitVec 5) : (th.pends ready ds ws flags).yieldUntil = th.yieldUntil := rfl
@[simp] theorem Thread.pends_acks (th : Thread) (ready : Bool) (ds : List Dest) (ws : List RegWrite) (flags : BitVec 5) : (th.pends ready ds ws flags).acks = th.acks := rfl
@[simp] theorem Thread.pends_sent (th : Thread) (ready : Bool) (ds : List Dest) (ws : List RegWrite) (flags : BitVec 5) : (th.pends ready ds ws flags).sent = th.sent := rfl
@[simp] theorem Thread.pends_ackNo (th : Thread) (ready : Bool) (ds : List Dest) (ws : List RegWrite) (flags : BitVec 5) : (th.pends ready ds ws flags).ackNo = th.ackNo := rfl
@[simp] theorem Thread.pends_switching (th : Thread) (ready : Bool) (ds : List Dest) (ws : List RegWrite) (flags : BitVec 5) : (th.pends ready ds ws flags).switching = th.switching := rfl
@[simp] theorem Thread.pends_parity (th : Thread) (ready : Bool) (ds : List Dest) (ws : List RegWrite) (flags : BitVec 5) : (th.pends ready ds ws flags).parity = th.parity := rfl
@[simp] theorem Thread.pends_scratch (th : Thread) (ready : Bool) (ds : List Dest) (ws : List RegWrite) (flags : BitVec 5) : (th.pends ready ds ws flags).scratch = th.scratch := rfl
@[simp] theorem Thread.pends_faultAt (th : Thread) (ready : Bool) (ds : List Dest) (ws : List RegWrite) (flags : BitVec 5) : (th.pends ready ds ws flags).faultAt = th.faultAt := rfl
@[simp] theorem Thread.pends_faultVa (th : Thread) (ready : Bool) (ds : List Dest) (ws : List RegWrite) (flags : BitVec 5) : (th.pends ready ds ws flags).faultVa = th.faultVa := rfl
@[simp] theorem Thread.pends_haltedFrom (th : Thread) (ready : Bool) (ds : List Dest) (ws : List RegWrite) (flags : BitVec 5) : (th.pends ready ds ws flags).haltedFrom = th.haltedFrom := rfl

@[simp] theorem Thread.push_st (th : Thread) (c : CodeAddr) : (th.push c).st = th.st := rfl
@[simp] theorem Thread.push_bounce (th : Thread) (c : CodeAddr) : (th.push c).bounce = th.bounce := rfl
@[simp] theorem Thread.push_prio (th : Thread) (c : CodeAddr) : (th.push c).prio = th.prio := rfl
@[simp] theorem Thread.push_priv (th : Thread) (c : CodeAddr) : (th.push c).priv = th.priv := rfl
@[simp] theorem Thread.push_hops (th : Thread) (c : CodeAddr) : (th.push c).hops = th.hops := rfl
@[simp] theorem Thread.push_pc (th : Thread) (c : CodeAddr) : (th.push c).pc = th.pc := rfl
@[simp] theorem Thread.push_p (th : Thread) (c : CodeAddr) : (th.push c).p = th.p := rfl
@[simp] theorem Thread.push_k1 (th : Thread) (c : CodeAddr) : (th.push c).k1 = th.k1 := rfl
@[simp] theorem Thread.push_k2 (th : Thread) (c : CodeAddr) : (th.push c).k2 = th.k2 := rfl
@[simp] theorem Thread.push_k3 (th : Thread) (c : CodeAddr) : (th.push c).k3 = th.k3 := rfl
@[simp] theorem Thread.push_hz (th : Thread) (c : CodeAddr) : (th.push c).hz = th.hz := rfl
@[simp] theorem Thread.push_few (th : Thread) (c : CodeAddr) : (th.push c).few = th.few := rfl
@[simp] theorem Thread.push_frm (th : Thread) (c : CodeAddr) : (th.push c).frm = th.frm := rfl
@[simp] theorem Thread.push_flags (th : Thread) (c : CodeAddr) : (th.push c).flags = th.flags := rfl
@[simp] theorem Thread.push_vlive (th : Thread) (c : CodeAddr) : (th.push c).vlive = th.vlive := rfl
@[simp] theorem Thread.push_asid (th : Thread) (c : CodeAddr) : (th.push c).asid = th.asid := rfl
@[simp] theorem Thread.push_tid (th : Thread) (c : CodeAddr) : (th.push c).tid = th.tid := rfl
@[simp] theorem Thread.push_ava (th : Thread) (c : CodeAddr) : (th.push c).ava = th.ava := rfl
@[simp] theorem Thread.push_g0slot (th : Thread) (c : CodeAddr) : (th.push c).g0slot = th.g0slot := rfl
@[simp] theorem Thread.push_g (th : Thread) (c : CodeAddr) : (th.push c).g = th.g := rfl
@[simp] theorem Thread.push_d1 (th : Thread) (c : CodeAddr) : (th.push c).d1 = th.d1 := rfl
@[simp] theorem Thread.push_d2 (th : Thread) (c : CodeAddr) : (th.push c).d2 = th.d2 := rfl
@[simp] theorem Thread.push_linkcnt (th : Thread) (c : CodeAddr) : (th.push c).linkcnt = th.linkcnt := rfl
@[simp] theorem Thread.push_pincnt (th : Thread) (c : CodeAddr) : (th.push c).pincnt = th.pincnt := rfl
@[simp] theorem Thread.push_ppriv (th : Thread) (c : CodeAddr) : (th.push c).ppriv = th.ppriv := rfl
@[simp] theorem Thread.push_cause (th : Thread) (c : CodeAddr) : (th.push c).cause = th.cause := rfl
@[simp] theorem Thread.push_epc (th : Thread) (c : CodeAddr) : (th.push c).epc = th.epc := rfl
@[simp] theorem Thread.push_v (th : Thread) (c : CodeAddr) : (th.push c).v = th.v := rfl
@[simp] theorem Thread.push_vregs (th : Thread) (c : CodeAddr) : (th.push c).vregs = th.vregs := rfl
@[simp] theorem Thread.push_pending (th : Thread) (c : CodeAddr) : (th.push c).pending = th.pending := rfl
@[simp] theorem Thread.push_silent (th : Thread) (c : CodeAddr) : (th.push c).silent = th.silent := rfl
@[simp] theorem Thread.push_posted (th : Thread) (c : CodeAddr) : (th.push c).posted = th.posted := rfl
@[simp] theorem Thread.push_tags (th : Thread) (c : CodeAddr) : (th.push c).tags = th.tags := rfl
@[simp] theorem Thread.push_hold (th : Thread) (c : CodeAddr) : (th.push c).hold = th.hold := rfl
@[simp] theorem Thread.push_wait (th : Thread) (c : CodeAddr) : (th.push c).wait = th.wait := rfl
@[simp] theorem Thread.push_mark (th : Thread) (c : CodeAddr) : (th.push c).mark = th.mark := rfl
@[simp] theorem Thread.push_denial (th : Thread) (c : CodeAddr) : (th.push c).denial = th.denial := rfl
@[simp] theorem Thread.push_quotaTaken (th : Thread) (c : CodeAddr) : (th.push c).quotaTaken = th.quotaTaken := rfl
@[simp] theorem Thread.push_draw (th : Thread) (c : CodeAddr) : (th.push c).draw = th.draw := rfl
@[simp] theorem Thread.push_block (th : Thread) (c : CodeAddr) : (th.push c).block = th.block := rfl
@[simp] theorem Thread.push_imaged (th : Thread) (c : CodeAddr) : (th.push c).imaged = th.imaged := rfl
@[simp] theorem Thread.push_issuing (th : Thread) (c : CodeAddr) : (th.push c).issuing = th.issuing := rfl
@[simp] theorem Thread.push_locks (th : Thread) (c : CodeAddr) : (th.push c).locks = th.locks := rfl
@[simp] theorem Thread.push_depart (th : Thread) (c : CodeAddr) : (th.push c).depart = th.depart := rfl
@[simp] theorem Thread.push_departAt (th : Thread) (c : CodeAddr) : (th.push c).departAt = th.departAt := rfl
@[simp] theorem Thread.push_walking (th : Thread) (c : CodeAddr) : (th.push c).walking = th.walking := rfl
@[simp] theorem Thread.push_waitt (th : Thread) (c : CodeAddr) : (th.push c).waitt = th.waitt := rfl
@[simp] theorem Thread.push_nextTurn (th : Thread) (c : CodeAddr) : (th.push c).nextTurn = th.nextTurn := rfl
@[simp] theorem Thread.push_issuedAt (th : Thread) (c : CodeAddr) : (th.push c).issuedAt = th.issuedAt := rfl
@[simp] theorem Thread.push_yieldUntil (th : Thread) (c : CodeAddr) : (th.push c).yieldUntil = th.yieldUntil := rfl
@[simp] theorem Thread.push_acks (th : Thread) (c : CodeAddr) : (th.push c).acks = th.acks := rfl
@[simp] theorem Thread.push_sent (th : Thread) (c : CodeAddr) : (th.push c).sent = th.sent := rfl
@[simp] theorem Thread.push_ackNo (th : Thread) (c : CodeAddr) : (th.push c).ackNo = th.ackNo := rfl
@[simp] theorem Thread.push_switching (th : Thread) (c : CodeAddr) : (th.push c).switching = th.switching := rfl
@[simp] theorem Thread.push_parity (th : Thread) (c : CodeAddr) : (th.push c).parity = th.parity := rfl
@[simp] theorem Thread.push_scratch (th : Thread) (c : CodeAddr) : (th.push c).scratch = th.scratch := rfl
@[simp] theorem Thread.push_faultAt (th : Thread) (c : CodeAddr) : (th.push c).faultAt = th.faultAt := rfl
@[simp] theorem Thread.push_faultVa (th : Thread) (c : CodeAddr) : (th.push c).faultVa = th.faultVa := rfl
@[simp] theorem Thread.push_haltedFrom (th : Thread) (c : CodeAddr) : (th.push c).haltedFrom = th.haltedFrom := rfl

@[simp] theorem Thread.pop_st (th : Thread) : (th.pop).st = th.st := rfl
@[simp] theorem Thread.pop_bounce (th : Thread) : (th.pop).bounce = th.bounce := rfl
@[simp] theorem Thread.pop_prio (th : Thread) : (th.pop).prio = th.prio := rfl
@[simp] theorem Thread.pop_priv (th : Thread) : (th.pop).priv = th.priv := rfl
@[simp] theorem Thread.pop_hops (th : Thread) : (th.pop).hops = th.hops := rfl
@[simp] theorem Thread.pop_pc (th : Thread) : (th.pop).pc = th.pc := rfl
@[simp] theorem Thread.pop_p (th : Thread) : (th.pop).p = th.p := rfl
@[simp] theorem Thread.pop_k1 (th : Thread) : (th.pop).k1 = th.k1 := rfl
@[simp] theorem Thread.pop_k2 (th : Thread) : (th.pop).k2 = th.k2 := rfl
@[simp] theorem Thread.pop_k3 (th : Thread) : (th.pop).k3 = th.k3 := rfl
@[simp] theorem Thread.pop_hz (th : Thread) : (th.pop).hz = th.hz := rfl
@[simp] theorem Thread.pop_few (th : Thread) : (th.pop).few = th.few := rfl
@[simp] theorem Thread.pop_frm (th : Thread) : (th.pop).frm = th.frm := rfl
@[simp] theorem Thread.pop_flags (th : Thread) : (th.pop).flags = th.flags := rfl
@[simp] theorem Thread.pop_vlive (th : Thread) : (th.pop).vlive = th.vlive := rfl
@[simp] theorem Thread.pop_asid (th : Thread) : (th.pop).asid = th.asid := rfl
@[simp] theorem Thread.pop_tid (th : Thread) : (th.pop).tid = th.tid := rfl
@[simp] theorem Thread.pop_ava (th : Thread) : (th.pop).ava = th.ava := rfl
@[simp] theorem Thread.pop_g0slot (th : Thread) : (th.pop).g0slot = th.g0slot := rfl
@[simp] theorem Thread.pop_g (th : Thread) : (th.pop).g = th.g := rfl
@[simp] theorem Thread.pop_d1 (th : Thread) : (th.pop).d1 = th.d1 := rfl
@[simp] theorem Thread.pop_d2 (th : Thread) : (th.pop).d2 = th.d2 := rfl
@[simp] theorem Thread.pop_linkcnt (th : Thread) : (th.pop).linkcnt = th.linkcnt := rfl
@[simp] theorem Thread.pop_pincnt (th : Thread) : (th.pop).pincnt = th.pincnt := rfl
@[simp] theorem Thread.pop_ppriv (th : Thread) : (th.pop).ppriv = th.ppriv := rfl
@[simp] theorem Thread.pop_cause (th : Thread) : (th.pop).cause = th.cause := rfl
@[simp] theorem Thread.pop_epc (th : Thread) : (th.pop).epc = th.epc := rfl
@[simp] theorem Thread.pop_v (th : Thread) : (th.pop).v = th.v := rfl
@[simp] theorem Thread.pop_vregs (th : Thread) : (th.pop).vregs = th.vregs := rfl
@[simp] theorem Thread.pop_pending (th : Thread) : (th.pop).pending = th.pending := rfl
@[simp] theorem Thread.pop_silent (th : Thread) : (th.pop).silent = th.silent := rfl
@[simp] theorem Thread.pop_posted (th : Thread) : (th.pop).posted = th.posted := rfl
@[simp] theorem Thread.pop_tags (th : Thread) : (th.pop).tags = th.tags := rfl
@[simp] theorem Thread.pop_hold (th : Thread) : (th.pop).hold = th.hold := rfl
@[simp] theorem Thread.pop_wait (th : Thread) : (th.pop).wait = th.wait := rfl
@[simp] theorem Thread.pop_mark (th : Thread) : (th.pop).mark = th.mark := rfl
@[simp] theorem Thread.pop_denial (th : Thread) : (th.pop).denial = th.denial := rfl
@[simp] theorem Thread.pop_quotaTaken (th : Thread) : (th.pop).quotaTaken = th.quotaTaken := rfl
@[simp] theorem Thread.pop_draw (th : Thread) : (th.pop).draw = th.draw := rfl
@[simp] theorem Thread.pop_block (th : Thread) : (th.pop).block = th.block := rfl
@[simp] theorem Thread.pop_imaged (th : Thread) : (th.pop).imaged = th.imaged := rfl
@[simp] theorem Thread.pop_issuing (th : Thread) : (th.pop).issuing = th.issuing := rfl
@[simp] theorem Thread.pop_locks (th : Thread) : (th.pop).locks = th.locks := rfl
@[simp] theorem Thread.pop_depart (th : Thread) : (th.pop).depart = th.depart := rfl
@[simp] theorem Thread.pop_departAt (th : Thread) : (th.pop).departAt = th.departAt := rfl
@[simp] theorem Thread.pop_walking (th : Thread) : (th.pop).walking = th.walking := rfl
@[simp] theorem Thread.pop_waitt (th : Thread) : (th.pop).waitt = th.waitt := rfl
@[simp] theorem Thread.pop_nextTurn (th : Thread) : (th.pop).nextTurn = th.nextTurn := rfl
@[simp] theorem Thread.pop_issuedAt (th : Thread) : (th.pop).issuedAt = th.issuedAt := rfl
@[simp] theorem Thread.pop_yieldUntil (th : Thread) : (th.pop).yieldUntil = th.yieldUntil := rfl
@[simp] theorem Thread.pop_acks (th : Thread) : (th.pop).acks = th.acks := rfl
@[simp] theorem Thread.pop_sent (th : Thread) : (th.pop).sent = th.sent := rfl
@[simp] theorem Thread.pop_ackNo (th : Thread) : (th.pop).ackNo = th.ackNo := rfl
@[simp] theorem Thread.pop_switching (th : Thread) : (th.pop).switching = th.switching := rfl
@[simp] theorem Thread.pop_parity (th : Thread) : (th.pop).parity = th.parity := rfl
@[simp] theorem Thread.pop_scratch (th : Thread) : (th.pop).scratch = th.scratch := rfl
@[simp] theorem Thread.pop_faultAt (th : Thread) : (th.pop).faultAt = th.faultAt := rfl
@[simp] theorem Thread.pop_faultVa (th : Thread) : (th.pop).faultVa = th.faultVa := rfl
@[simp] theorem Thread.pop_haltedFrom (th : Thread) : (th.pop).haltedFrom = th.haltedFrom := rfl

@[simp] theorem Thread.leave_st (th : Thread) : (th.leave).st = th.st := rfl
@[simp] theorem Thread.leave_bounce (th : Thread) : (th.leave).bounce = th.bounce := rfl
@[simp] theorem Thread.leave_prio (th : Thread) : (th.leave).prio = th.prio := rfl
@[simp] theorem Thread.leave_hops (th : Thread) : (th.leave).hops = th.hops := rfl
@[simp] theorem Thread.leave_p (th : Thread) : (th.leave).p = th.p := rfl
@[simp] theorem Thread.leave_k1 (th : Thread) : (th.leave).k1 = th.k1 := rfl
@[simp] theorem Thread.leave_k2 (th : Thread) : (th.leave).k2 = th.k2 := rfl
@[simp] theorem Thread.leave_k3 (th : Thread) : (th.leave).k3 = th.k3 := rfl
@[simp] theorem Thread.leave_hz (th : Thread) : (th.leave).hz = th.hz := rfl
@[simp] theorem Thread.leave_ldepth (th : Thread) : (th.leave).ldepth = th.ldepth := rfl
@[simp] theorem Thread.leave_few (th : Thread) : (th.leave).few = th.few := rfl
@[simp] theorem Thread.leave_frm (th : Thread) : (th.leave).frm = th.frm := rfl
@[simp] theorem Thread.leave_flags (th : Thread) : (th.leave).flags = th.flags := rfl
@[simp] theorem Thread.leave_vlive (th : Thread) : (th.leave).vlive = th.vlive := rfl
@[simp] theorem Thread.leave_asid (th : Thread) : (th.leave).asid = th.asid := rfl
@[simp] theorem Thread.leave_tid (th : Thread) : (th.leave).tid = th.tid := rfl
@[simp] theorem Thread.leave_ava (th : Thread) : (th.leave).ava = th.ava := rfl
@[simp] theorem Thread.leave_g0slot (th : Thread) : (th.leave).g0slot = th.g0slot := rfl
@[simp] theorem Thread.leave_g (th : Thread) : (th.leave).g = th.g := rfl
@[simp] theorem Thread.leave_links (th : Thread) : (th.leave).links = th.links := rfl
@[simp] theorem Thread.leave_d1 (th : Thread) : (th.leave).d1 = th.d1 := rfl
@[simp] theorem Thread.leave_d2 (th : Thread) : (th.leave).d2 = th.d2 := rfl
@[simp] theorem Thread.leave_linkcnt (th : Thread) : (th.leave).linkcnt = th.linkcnt := rfl
@[simp] theorem Thread.leave_pincnt (th : Thread) : (th.leave).pincnt = th.pincnt := rfl
@[simp] theorem Thread.leave_cause (th : Thread) : (th.leave).cause = th.cause := rfl
@[simp] theorem Thread.leave_epc (th : Thread) : (th.leave).epc = th.epc := rfl
@[simp] theorem Thread.leave_v (th : Thread) : (th.leave).v = th.v := rfl
@[simp] theorem Thread.leave_vregs (th : Thread) : (th.leave).vregs = th.vregs := rfl
@[simp] theorem Thread.leave_pending (th : Thread) : (th.leave).pending = th.pending := rfl
@[simp] theorem Thread.leave_silent (th : Thread) : (th.leave).silent = th.silent := rfl
@[simp] theorem Thread.leave_posted (th : Thread) : (th.leave).posted = th.posted := rfl
@[simp] theorem Thread.leave_tags (th : Thread) : (th.leave).tags = th.tags := rfl
@[simp] theorem Thread.leave_hold (th : Thread) : (th.leave).hold = th.hold := rfl
@[simp] theorem Thread.leave_wait (th : Thread) : (th.leave).wait = th.wait := rfl
@[simp] theorem Thread.leave_mark (th : Thread) : (th.leave).mark = th.mark := rfl
@[simp] theorem Thread.leave_denial (th : Thread) : (th.leave).denial = th.denial := rfl
@[simp] theorem Thread.leave_quotaTaken (th : Thread) : (th.leave).quotaTaken = th.quotaTaken := rfl
@[simp] theorem Thread.leave_draw (th : Thread) : (th.leave).draw = th.draw := rfl
@[simp] theorem Thread.leave_block (th : Thread) : (th.leave).block = th.block := rfl
@[simp] theorem Thread.leave_imaged (th : Thread) : (th.leave).imaged = th.imaged := rfl
@[simp] theorem Thread.leave_issuing (th : Thread) : (th.leave).issuing = th.issuing := rfl
@[simp] theorem Thread.leave_locks (th : Thread) : (th.leave).locks = th.locks := rfl
@[simp] theorem Thread.leave_depart (th : Thread) : (th.leave).depart = th.depart := rfl
@[simp] theorem Thread.leave_departAt (th : Thread) : (th.leave).departAt = th.departAt := rfl
@[simp] theorem Thread.leave_walking (th : Thread) : (th.leave).walking = th.walking := rfl
@[simp] theorem Thread.leave_waitt (th : Thread) : (th.leave).waitt = th.waitt := rfl
@[simp] theorem Thread.leave_nextTurn (th : Thread) : (th.leave).nextTurn = th.nextTurn := rfl
@[simp] theorem Thread.leave_issuedAt (th : Thread) : (th.leave).issuedAt = th.issuedAt := rfl
@[simp] theorem Thread.leave_yieldUntil (th : Thread) : (th.leave).yieldUntil = th.yieldUntil := rfl
@[simp] theorem Thread.leave_acks (th : Thread) : (th.leave).acks = th.acks := rfl
@[simp] theorem Thread.leave_sent (th : Thread) : (th.leave).sent = th.sent := rfl
@[simp] theorem Thread.leave_ackNo (th : Thread) : (th.leave).ackNo = th.ackNo := rfl
@[simp] theorem Thread.leave_switching (th : Thread) : (th.leave).switching = th.switching := rfl
@[simp] theorem Thread.leave_parity (th : Thread) : (th.leave).parity = th.parity := rfl
@[simp] theorem Thread.leave_scratch (th : Thread) : (th.leave).scratch = th.scratch := rfl
@[simp] theorem Thread.leave_faultAt (th : Thread) : (th.leave).faultAt = th.faultAt := rfl
@[simp] theorem Thread.leave_faultVa (th : Thread) : (th.leave).faultVa = th.faultVa := rfl
@[simp] theorem Thread.leave_haltedFrom (th : Thread) : (th.leave).haltedFrom = th.haltedFrom := rfl

@[simp] theorem Thread.enter_bounce (th : Thread) (vec fw : CodeAddr) (c : BitVec 8) (v : Dword) (e : CodeAddr) : (th.enter vec fw c v e).bounce = th.bounce := by
  unfold Thread.enter Thread.dropOldest; simp only []; split <;> rfl
@[simp] theorem Thread.enter_prio (th : Thread) (vec fw : CodeAddr) (c : BitVec 8) (v : Dword) (e : CodeAddr) : (th.enter vec fw c v e).prio = th.prio := by
  unfold Thread.enter Thread.dropOldest; simp only []; split <;> rfl
@[simp] theorem Thread.enter_hops (th : Thread) (vec fw : CodeAddr) (c : BitVec 8) (v : Dword) (e : CodeAddr) : (th.enter vec fw c v e).hops = th.hops := by
  unfold Thread.enter Thread.dropOldest; simp only []; split <;> rfl
@[simp] theorem Thread.enter_p (th : Thread) (vec fw : CodeAddr) (c : BitVec 8) (v : Dword) (e : CodeAddr) : (th.enter vec fw c v e).p = th.p := by
  unfold Thread.enter Thread.dropOldest; simp only []; split <;> rfl
@[simp] theorem Thread.enter_k1 (th : Thread) (vec fw : CodeAddr) (c : BitVec 8) (v : Dword) (e : CodeAddr) : (th.enter vec fw c v e).k1 = th.k1 := by
  unfold Thread.enter Thread.dropOldest; simp only []; split <;> rfl
@[simp] theorem Thread.enter_k2 (th : Thread) (vec fw : CodeAddr) (c : BitVec 8) (v : Dword) (e : CodeAddr) : (th.enter vec fw c v e).k2 = th.k2 := by
  unfold Thread.enter Thread.dropOldest; simp only []; split <;> rfl
@[simp] theorem Thread.enter_k3 (th : Thread) (vec fw : CodeAddr) (c : BitVec 8) (v : Dword) (e : CodeAddr) : (th.enter vec fw c v e).k3 = th.k3 := by
  unfold Thread.enter Thread.dropOldest; simp only []; split <;> rfl
@[simp] theorem Thread.enter_hz (th : Thread) (vec fw : CodeAddr) (c : BitVec 8) (v : Dword) (e : CodeAddr) : (th.enter vec fw c v e).hz = th.hz := by
  unfold Thread.enter Thread.dropOldest; simp only []; split <;> rfl
@[simp] theorem Thread.enter_few (th : Thread) (vec fw : CodeAddr) (c : BitVec 8) (v : Dword) (e : CodeAddr) : (th.enter vec fw c v e).few = th.few := by
  unfold Thread.enter Thread.dropOldest; simp only []; split <;> rfl
@[simp] theorem Thread.enter_frm (th : Thread) (vec fw : CodeAddr) (c : BitVec 8) (v : Dword) (e : CodeAddr) : (th.enter vec fw c v e).frm = th.frm := by
  unfold Thread.enter Thread.dropOldest; simp only []; split <;> rfl
@[simp] theorem Thread.enter_flags (th : Thread) (vec fw : CodeAddr) (c : BitVec 8) (v : Dword) (e : CodeAddr) : (th.enter vec fw c v e).flags = th.flags := by
  unfold Thread.enter Thread.dropOldest; simp only []; split <;> rfl
@[simp] theorem Thread.enter_vlive (th : Thread) (vec fw : CodeAddr) (c : BitVec 8) (v : Dword) (e : CodeAddr) : (th.enter vec fw c v e).vlive = th.vlive := by
  unfold Thread.enter Thread.dropOldest; simp only []; split <;> rfl
@[simp] theorem Thread.enter_asid (th : Thread) (vec fw : CodeAddr) (c : BitVec 8) (v : Dword) (e : CodeAddr) : (th.enter vec fw c v e).asid = th.asid := by
  unfold Thread.enter Thread.dropOldest; simp only []; split <;> rfl
@[simp] theorem Thread.enter_tid (th : Thread) (vec fw : CodeAddr) (c : BitVec 8) (v : Dword) (e : CodeAddr) : (th.enter vec fw c v e).tid = th.tid := by
  unfold Thread.enter Thread.dropOldest; simp only []; split <;> rfl
@[simp] theorem Thread.enter_g (th : Thread) (vec fw : CodeAddr) (c : BitVec 8) (v : Dword) (e : CodeAddr) : (th.enter vec fw c v e).g = th.g := by
  unfold Thread.enter Thread.dropOldest; simp only []; split <;> rfl
@[simp] theorem Thread.enter_d1 (th : Thread) (vec fw : CodeAddr) (c : BitVec 8) (v : Dword) (e : CodeAddr) : (th.enter vec fw c v e).d1 = th.d1 := by
  unfold Thread.enter Thread.dropOldest; simp only []; split <;> rfl
@[simp] theorem Thread.enter_d2 (th : Thread) (vec fw : CodeAddr) (c : BitVec 8) (v : Dword) (e : CodeAddr) : (th.enter vec fw c v e).d2 = th.d2 := by
  unfold Thread.enter Thread.dropOldest; simp only []; split <;> rfl
@[simp] theorem Thread.enter_linkcnt (th : Thread) (vec fw : CodeAddr) (c : BitVec 8) (v : Dword) (e : CodeAddr) : (th.enter vec fw c v e).linkcnt = th.linkcnt := by
  unfold Thread.enter Thread.dropOldest; simp only []; split <;> rfl
@[simp] theorem Thread.enter_pincnt (th : Thread) (vec fw : CodeAddr) (c : BitVec 8) (v : Dword) (e : CodeAddr) : (th.enter vec fw c v e).pincnt = th.pincnt := by
  unfold Thread.enter Thread.dropOldest; simp only []; split <;> rfl
@[simp] theorem Thread.enter_v (th : Thread) (vec fw : CodeAddr) (c : BitVec 8) (v : Dword) (e : CodeAddr) : (th.enter vec fw c v e).v = th.v := by
  unfold Thread.enter Thread.dropOldest; simp only []; split <;> rfl
@[simp] theorem Thread.enter_vregs (th : Thread) (vec fw : CodeAddr) (c : BitVec 8) (v : Dword) (e : CodeAddr) : (th.enter vec fw c v e).vregs = th.vregs := by
  unfold Thread.enter Thread.dropOldest; simp only []; split <;> rfl
@[simp] theorem Thread.enter_pending (th : Thread) (vec fw : CodeAddr) (c : BitVec 8) (v : Dword) (e : CodeAddr) : (th.enter vec fw c v e).pending = th.pending := by
  unfold Thread.enter Thread.dropOldest; simp only []; split <;> rfl
@[simp] theorem Thread.enter_silent (th : Thread) (vec fw : CodeAddr) (c : BitVec 8) (v : Dword) (e : CodeAddr) : (th.enter vec fw c v e).silent = th.silent := by
  unfold Thread.enter Thread.dropOldest; simp only []; split <;> rfl
@[simp] theorem Thread.enter_posted (th : Thread) (vec fw : CodeAddr) (c : BitVec 8) (v : Dword) (e : CodeAddr) : (th.enter vec fw c v e).posted = th.posted := by
  unfold Thread.enter Thread.dropOldest; simp only []; split <;> rfl
@[simp] theorem Thread.enter_tags (th : Thread) (vec fw : CodeAddr) (c : BitVec 8) (v : Dword) (e : CodeAddr) : (th.enter vec fw c v e).tags = th.tags := by
  unfold Thread.enter Thread.dropOldest; simp only []; split <;> rfl
@[simp] theorem Thread.enter_mark (th : Thread) (vec fw : CodeAddr) (c : BitVec 8) (v : Dword) (e : CodeAddr) : (th.enter vec fw c v e).mark = th.mark := by
  unfold Thread.enter Thread.dropOldest; simp only []; split <;> rfl
@[simp] theorem Thread.enter_denial (th : Thread) (vec fw : CodeAddr) (c : BitVec 8) (v : Dword) (e : CodeAddr) : (th.enter vec fw c v e).denial = th.denial := by
  unfold Thread.enter Thread.dropOldest; simp only []; split <;> rfl
@[simp] theorem Thread.enter_quotaTaken (th : Thread) (vec fw : CodeAddr) (c : BitVec 8) (v : Dword) (e : CodeAddr) : (th.enter vec fw c v e).quotaTaken = th.quotaTaken := by
  unfold Thread.enter Thread.dropOldest; simp only []; split <;> rfl
@[simp] theorem Thread.enter_draw (th : Thread) (vec fw : CodeAddr) (c : BitVec 8) (v : Dword) (e : CodeAddr) : (th.enter vec fw c v e).draw = th.draw := by
  unfold Thread.enter Thread.dropOldest; simp only []; split <;> rfl
@[simp] theorem Thread.enter_locks (th : Thread) (vec fw : CodeAddr) (c : BitVec 8) (v : Dword) (e : CodeAddr) : (th.enter vec fw c v e).locks = th.locks := by
  unfold Thread.enter Thread.dropOldest; simp only []; split <;> rfl
@[simp] theorem Thread.enter_waitt (th : Thread) (vec fw : CodeAddr) (c : BitVec 8) (v : Dword) (e : CodeAddr) : (th.enter vec fw c v e).waitt = th.waitt := by
  unfold Thread.enter Thread.dropOldest; simp only []; split <;> rfl
@[simp] theorem Thread.enter_nextTurn (th : Thread) (vec fw : CodeAddr) (c : BitVec 8) (v : Dword) (e : CodeAddr) : (th.enter vec fw c v e).nextTurn = th.nextTurn := by
  unfold Thread.enter Thread.dropOldest; simp only []; split <;> rfl
@[simp] theorem Thread.enter_issuedAt (th : Thread) (vec fw : CodeAddr) (c : BitVec 8) (v : Dword) (e : CodeAddr) : (th.enter vec fw c v e).issuedAt = th.issuedAt := by
  unfold Thread.enter Thread.dropOldest; simp only []; split <;> rfl
@[simp] theorem Thread.enter_yieldUntil (th : Thread) (vec fw : CodeAddr) (c : BitVec 8) (v : Dword) (e : CodeAddr) : (th.enter vec fw c v e).yieldUntil = th.yieldUntil := by
  unfold Thread.enter Thread.dropOldest; simp only []; split <;> rfl
@[simp] theorem Thread.enter_acks (th : Thread) (vec fw : CodeAddr) (c : BitVec 8) (v : Dword) (e : CodeAddr) : (th.enter vec fw c v e).acks = th.acks := by
  unfold Thread.enter Thread.dropOldest; simp only []; split <;> rfl
@[simp] theorem Thread.enter_sent (th : Thread) (vec fw : CodeAddr) (c : BitVec 8) (v : Dword) (e : CodeAddr) : (th.enter vec fw c v e).sent = th.sent := by
  unfold Thread.enter Thread.dropOldest; simp only []; split <;> rfl
@[simp] theorem Thread.enter_ackNo (th : Thread) (vec fw : CodeAddr) (c : BitVec 8) (v : Dword) (e : CodeAddr) : (th.enter vec fw c v e).ackNo = th.ackNo := by
  unfold Thread.enter Thread.dropOldest; simp only []; split <;> rfl
@[simp] theorem Thread.enter_switching (th : Thread) (vec fw : CodeAddr) (c : BitVec 8) (v : Dword) (e : CodeAddr) : (th.enter vec fw c v e).switching = th.switching := by
  unfold Thread.enter Thread.dropOldest; simp only []; split <;> rfl
@[simp] theorem Thread.enter_parity (th : Thread) (vec fw : CodeAddr) (c : BitVec 8) (v : Dword) (e : CodeAddr) : (th.enter vec fw c v e).parity = th.parity := by
  unfold Thread.enter Thread.dropOldest; simp only []; split <;> rfl
@[simp] theorem Thread.enter_scratch (th : Thread) (vec fw : CodeAddr) (c : BitVec 8) (v : Dword) (e : CodeAddr) : (th.enter vec fw c v e).scratch = th.scratch := by
  unfold Thread.enter Thread.dropOldest; simp only []; split <;> rfl
@[simp] theorem Thread.enter_faultAt (th : Thread) (vec fw : CodeAddr) (c : BitVec 8) (v : Dword) (e : CodeAddr) : (th.enter vec fw c v e).faultAt = th.faultAt := by
  unfold Thread.enter Thread.dropOldest; simp only []; split <;> rfl
@[simp] theorem Thread.enter_faultVa (th : Thread) (vec fw : CodeAddr) (c : BitVec 8) (v : Dword) (e : CodeAddr) : (th.enter vec fw c v e).faultVa = th.faultVa := by
  unfold Thread.enter Thread.dropOldest; simp only []; split <;> rfl
@[simp] theorem Thread.enter_haltedFrom (th : Thread) (vec fw : CodeAddr) (c : BitVec 8) (v : Dword) (e : CodeAddr) : (th.enter vec fw c v e).haltedFrom = th.haltedFrom := by
  unfold Thread.enter Thread.dropOldest; simp only []; split <;> rfl

@[simp] theorem Thread.write_st (th : Thread) (w : RegWrite) : (th.write w).st = th.st := by
  rcases w with ⟨d, x⟩ | n
  · cases d <;> simp [Thread.write]
  · simp [Thread.write]
@[simp] theorem Thread.write_bounce (th : Thread) (w : RegWrite) : (th.write w).bounce = th.bounce := by
  rcases w with ⟨d, x⟩ | n
  · cases d <;> simp [Thread.write]
  · simp [Thread.write]
@[simp] theorem Thread.write_prio (th : Thread) (w : RegWrite) : (th.write w).prio = th.prio := by
  rcases w with ⟨d, x⟩ | n
  · cases d <;> simp [Thread.write]
  · simp [Thread.write]
@[simp] theorem Thread.write_priv (th : Thread) (w : RegWrite) : (th.write w).priv = th.priv := by
  rcases w with ⟨d, x⟩ | n
  · cases d <;> simp [Thread.write]
  · simp [Thread.write]
@[simp] theorem Thread.write_hops (th : Thread) (w : RegWrite) : (th.write w).hops = th.hops := by
  rcases w with ⟨d, x⟩ | n
  · cases d <;> simp [Thread.write]
  · simp [Thread.write]
@[simp] theorem Thread.write_pc (th : Thread) (w : RegWrite) : (th.write w).pc = th.pc := by
  rcases w with ⟨d, x⟩ | n
  · cases d <;> simp [Thread.write]
  · simp [Thread.write]
@[simp] theorem Thread.write_hz (th : Thread) (w : RegWrite) : (th.write w).hz = th.hz := by
  rcases w with ⟨d, x⟩ | n
  · cases d <;> simp [Thread.write]
  · simp [Thread.write]
@[simp] theorem Thread.write_ldepth (th : Thread) (w : RegWrite) : (th.write w).ldepth = th.ldepth := by
  rcases w with ⟨d, x⟩ | n
  · cases d <;> simp [Thread.write]
  · simp [Thread.write]
@[simp] theorem Thread.write_few (th : Thread) (w : RegWrite) : (th.write w).few = th.few := by
  rcases w with ⟨d, x⟩ | n
  · cases d <;> simp [Thread.write]
  · simp [Thread.write]
@[simp] theorem Thread.write_frm (th : Thread) (w : RegWrite) : (th.write w).frm = th.frm := by
  rcases w with ⟨d, x⟩ | n
  · cases d <;> simp [Thread.write]
  · simp [Thread.write]
@[simp] theorem Thread.write_flags (th : Thread) (w : RegWrite) : (th.write w).flags = th.flags := by
  rcases w with ⟨d, x⟩ | n
  · cases d <;> simp [Thread.write]
  · simp [Thread.write]
@[simp] theorem Thread.write_asid (th : Thread) (w : RegWrite) : (th.write w).asid = th.asid := by
  rcases w with ⟨d, x⟩ | n
  · cases d <;> simp [Thread.write]
  · simp [Thread.write]
@[simp] theorem Thread.write_tid (th : Thread) (w : RegWrite) : (th.write w).tid = th.tid := by
  rcases w with ⟨d, x⟩ | n
  · cases d <;> simp [Thread.write]
  · simp [Thread.write]
@[simp] theorem Thread.write_ava (th : Thread) (w : RegWrite) : (th.write w).ava = th.ava := by
  rcases w with ⟨d, x⟩ | n
  · cases d <;> simp [Thread.write]
  · simp [Thread.write]
@[simp] theorem Thread.write_g0slot (th : Thread) (w : RegWrite) : (th.write w).g0slot = th.g0slot := by
  rcases w with ⟨d, x⟩ | n
  · cases d <;> simp [Thread.write]
  · simp [Thread.write]
@[simp] theorem Thread.write_links (th : Thread) (w : RegWrite) : (th.write w).links = th.links := by
  rcases w with ⟨d, x⟩ | n
  · cases d <;> simp [Thread.write]
  · simp [Thread.write]
@[simp] theorem Thread.write_d1 (th : Thread) (w : RegWrite) : (th.write w).d1 = th.d1 := by
  rcases w with ⟨d, x⟩ | n
  · cases d <;> simp [Thread.write]
  · simp [Thread.write]
@[simp] theorem Thread.write_d2 (th : Thread) (w : RegWrite) : (th.write w).d2 = th.d2 := by
  rcases w with ⟨d, x⟩ | n
  · cases d <;> simp [Thread.write]
  · simp [Thread.write]
@[simp] theorem Thread.write_linkcnt (th : Thread) (w : RegWrite) : (th.write w).linkcnt = th.linkcnt := by
  rcases w with ⟨d, x⟩ | n
  · cases d <;> simp [Thread.write]
  · simp [Thread.write]
@[simp] theorem Thread.write_pincnt (th : Thread) (w : RegWrite) : (th.write w).pincnt = th.pincnt := by
  rcases w with ⟨d, x⟩ | n
  · cases d <;> simp [Thread.write]
  · simp [Thread.write]
@[simp] theorem Thread.write_ppriv (th : Thread) (w : RegWrite) : (th.write w).ppriv = th.ppriv := by
  rcases w with ⟨d, x⟩ | n
  · cases d <;> simp [Thread.write]
  · simp [Thread.write]
@[simp] theorem Thread.write_cause (th : Thread) (w : RegWrite) : (th.write w).cause = th.cause := by
  rcases w with ⟨d, x⟩ | n
  · cases d <;> simp [Thread.write]
  · simp [Thread.write]
@[simp] theorem Thread.write_epc (th : Thread) (w : RegWrite) : (th.write w).epc = th.epc := by
  rcases w with ⟨d, x⟩ | n
  · cases d <;> simp [Thread.write]
  · simp [Thread.write]
@[simp] theorem Thread.write_vregs (th : Thread) (w : RegWrite) : (th.write w).vregs = th.vregs := by
  rcases w with ⟨d, x⟩ | n
  · cases d <;> simp [Thread.write]
  · simp [Thread.write]
@[simp] theorem Thread.write_pending (th : Thread) (w : RegWrite) : (th.write w).pending = th.pending := by
  rcases w with ⟨d, x⟩ | n
  · cases d <;> simp [Thread.write]
  · simp [Thread.write]
@[simp] theorem Thread.write_silent (th : Thread) (w : RegWrite) : (th.write w).silent = th.silent := by
  rcases w with ⟨d, x⟩ | n
  · cases d <;> simp [Thread.write]
  · simp [Thread.write]
@[simp] theorem Thread.write_posted (th : Thread) (w : RegWrite) : (th.write w).posted = th.posted := by
  rcases w with ⟨d, x⟩ | n
  · cases d <;> simp [Thread.write]
  · simp [Thread.write]
@[simp] theorem Thread.write_tags (th : Thread) (w : RegWrite) : (th.write w).tags = th.tags := by
  rcases w with ⟨d, x⟩ | n
  · cases d <;> simp [Thread.write]
  · simp [Thread.write]
@[simp] theorem Thread.write_hold (th : Thread) (w : RegWrite) : (th.write w).hold = th.hold := by
  rcases w with ⟨d, x⟩ | n
  · cases d <;> simp [Thread.write]
  · simp [Thread.write]
@[simp] theorem Thread.write_wait (th : Thread) (w : RegWrite) : (th.write w).wait = th.wait := by
  rcases w with ⟨d, x⟩ | n
  · cases d <;> simp [Thread.write]
  · simp [Thread.write]
@[simp] theorem Thread.write_mark (th : Thread) (w : RegWrite) : (th.write w).mark = th.mark := by
  rcases w with ⟨d, x⟩ | n
  · cases d <;> simp [Thread.write]
  · simp [Thread.write]
@[simp] theorem Thread.write_denial (th : Thread) (w : RegWrite) : (th.write w).denial = th.denial := by
  rcases w with ⟨d, x⟩ | n
  · cases d <;> simp [Thread.write]
  · simp [Thread.write]
@[simp] theorem Thread.write_quotaTaken (th : Thread) (w : RegWrite) : (th.write w).quotaTaken = th.quotaTaken := by
  rcases w with ⟨d, x⟩ | n
  · cases d <;> simp [Thread.write]
  · simp [Thread.write]
@[simp] theorem Thread.write_draw (th : Thread) (w : RegWrite) : (th.write w).draw = th.draw := by
  rcases w with ⟨d, x⟩ | n
  · cases d <;> simp [Thread.write]
  · simp [Thread.write]
@[simp] theorem Thread.write_block (th : Thread) (w : RegWrite) : (th.write w).block = th.block := by
  rcases w with ⟨d, x⟩ | n
  · cases d <;> simp [Thread.write]
  · simp [Thread.write]
@[simp] theorem Thread.write_imaged (th : Thread) (w : RegWrite) : (th.write w).imaged = th.imaged := by
  rcases w with ⟨d, x⟩ | n
  · cases d <;> simp [Thread.write]
  · simp [Thread.write]
@[simp] theorem Thread.write_issuing (th : Thread) (w : RegWrite) : (th.write w).issuing = th.issuing := by
  rcases w with ⟨d, x⟩ | n
  · cases d <;> simp [Thread.write]
  · simp [Thread.write]
@[simp] theorem Thread.write_locks (th : Thread) (w : RegWrite) : (th.write w).locks = th.locks := by
  rcases w with ⟨d, x⟩ | n
  · cases d <;> simp [Thread.write]
  · simp [Thread.write]
@[simp] theorem Thread.write_depart (th : Thread) (w : RegWrite) : (th.write w).depart = th.depart := by
  rcases w with ⟨d, x⟩ | n
  · cases d <;> simp [Thread.write]
  · simp [Thread.write]
@[simp] theorem Thread.write_departAt (th : Thread) (w : RegWrite) : (th.write w).departAt = th.departAt := by
  rcases w with ⟨d, x⟩ | n
  · cases d <;> simp [Thread.write]
  · simp [Thread.write]
@[simp] theorem Thread.write_walking (th : Thread) (w : RegWrite) : (th.write w).walking = th.walking := by
  rcases w with ⟨d, x⟩ | n
  · cases d <;> simp [Thread.write]
  · simp [Thread.write]
@[simp] theorem Thread.write_waitt (th : Thread) (w : RegWrite) : (th.write w).waitt = th.waitt := by
  rcases w with ⟨d, x⟩ | n
  · cases d <;> simp [Thread.write]
  · simp [Thread.write]
@[simp] theorem Thread.write_nextTurn (th : Thread) (w : RegWrite) : (th.write w).nextTurn = th.nextTurn := by
  rcases w with ⟨d, x⟩ | n
  · cases d <;> simp [Thread.write]
  · simp [Thread.write]
@[simp] theorem Thread.write_issuedAt (th : Thread) (w : RegWrite) : (th.write w).issuedAt = th.issuedAt := by
  rcases w with ⟨d, x⟩ | n
  · cases d <;> simp [Thread.write]
  · simp [Thread.write]
@[simp] theorem Thread.write_yieldUntil (th : Thread) (w : RegWrite) : (th.write w).yieldUntil = th.yieldUntil := by
  rcases w with ⟨d, x⟩ | n
  · cases d <;> simp [Thread.write]
  · simp [Thread.write]
@[simp] theorem Thread.write_acks (th : Thread) (w : RegWrite) : (th.write w).acks = th.acks := by
  rcases w with ⟨d, x⟩ | n
  · cases d <;> simp [Thread.write]
  · simp [Thread.write]
@[simp] theorem Thread.write_sent (th : Thread) (w : RegWrite) : (th.write w).sent = th.sent := by
  rcases w with ⟨d, x⟩ | n
  · cases d <;> simp [Thread.write]
  · simp [Thread.write]
@[simp] theorem Thread.write_ackNo (th : Thread) (w : RegWrite) : (th.write w).ackNo = th.ackNo := by
  rcases w with ⟨d, x⟩ | n
  · cases d <;> simp [Thread.write]
  · simp [Thread.write]
@[simp] theorem Thread.write_switching (th : Thread) (w : RegWrite) : (th.write w).switching = th.switching := by
  rcases w with ⟨d, x⟩ | n
  · cases d <;> simp [Thread.write]
  · simp [Thread.write]
@[simp] theorem Thread.write_scratch (th : Thread) (w : RegWrite) : (th.write w).scratch = th.scratch := by
  rcases w with ⟨d, x⟩ | n
  · cases d <;> simp [Thread.write]
  · simp [Thread.write]
@[simp] theorem Thread.write_faultAt (th : Thread) (w : RegWrite) : (th.write w).faultAt = th.faultAt := by
  rcases w with ⟨d, x⟩ | n
  · cases d <;> simp [Thread.write]
  · simp [Thread.write]
@[simp] theorem Thread.write_faultVa (th : Thread) (w : RegWrite) : (th.write w).faultVa = th.faultVa := by
  rcases w with ⟨d, x⟩ | n
  · cases d <;> simp [Thread.write]
  · simp [Thread.write]
@[simp] theorem Thread.write_haltedFrom (th : Thread) (w : RegWrite) : (th.write w).haltedFrom = th.haltedFrom := by
  rcases w with ⟨d, x⟩ | n
  · cases d <;> simp [Thread.write]
  · simp [Thread.write]

@[simp] theorem Thread.writes_st (th : Thread) (ws : List RegWrite) : (th.writes ws).st = th.st := by
  unfold Thread.writes
  induction ws generalizing th with
  | nil => rfl
  | cons w ws ih => rw [List.foldl_cons, ih, Thread.write_st]
@[simp] theorem Thread.writes_bounce (th : Thread) (ws : List RegWrite) : (th.writes ws).bounce = th.bounce := by
  unfold Thread.writes
  induction ws generalizing th with
  | nil => rfl
  | cons w ws ih => rw [List.foldl_cons, ih, Thread.write_bounce]
@[simp] theorem Thread.writes_prio (th : Thread) (ws : List RegWrite) : (th.writes ws).prio = th.prio := by
  unfold Thread.writes
  induction ws generalizing th with
  | nil => rfl
  | cons w ws ih => rw [List.foldl_cons, ih, Thread.write_prio]
@[simp] theorem Thread.writes_priv (th : Thread) (ws : List RegWrite) : (th.writes ws).priv = th.priv := by
  unfold Thread.writes
  induction ws generalizing th with
  | nil => rfl
  | cons w ws ih => rw [List.foldl_cons, ih, Thread.write_priv]
@[simp] theorem Thread.writes_hops (th : Thread) (ws : List RegWrite) : (th.writes ws).hops = th.hops := by
  unfold Thread.writes
  induction ws generalizing th with
  | nil => rfl
  | cons w ws ih => rw [List.foldl_cons, ih, Thread.write_hops]
@[simp] theorem Thread.writes_pc (th : Thread) (ws : List RegWrite) : (th.writes ws).pc = th.pc := by
  unfold Thread.writes
  induction ws generalizing th with
  | nil => rfl
  | cons w ws ih => rw [List.foldl_cons, ih, Thread.write_pc]
@[simp] theorem Thread.writes_hz (th : Thread) (ws : List RegWrite) : (th.writes ws).hz = th.hz := by
  unfold Thread.writes
  induction ws generalizing th with
  | nil => rfl
  | cons w ws ih => rw [List.foldl_cons, ih, Thread.write_hz]
@[simp] theorem Thread.writes_ldepth (th : Thread) (ws : List RegWrite) : (th.writes ws).ldepth = th.ldepth := by
  unfold Thread.writes
  induction ws generalizing th with
  | nil => rfl
  | cons w ws ih => rw [List.foldl_cons, ih, Thread.write_ldepth]
@[simp] theorem Thread.writes_few (th : Thread) (ws : List RegWrite) : (th.writes ws).few = th.few := by
  unfold Thread.writes
  induction ws generalizing th with
  | nil => rfl
  | cons w ws ih => rw [List.foldl_cons, ih, Thread.write_few]
@[simp] theorem Thread.writes_frm (th : Thread) (ws : List RegWrite) : (th.writes ws).frm = th.frm := by
  unfold Thread.writes
  induction ws generalizing th with
  | nil => rfl
  | cons w ws ih => rw [List.foldl_cons, ih, Thread.write_frm]
@[simp] theorem Thread.writes_flags (th : Thread) (ws : List RegWrite) : (th.writes ws).flags = th.flags := by
  unfold Thread.writes
  induction ws generalizing th with
  | nil => rfl
  | cons w ws ih => rw [List.foldl_cons, ih, Thread.write_flags]
@[simp] theorem Thread.writes_asid (th : Thread) (ws : List RegWrite) : (th.writes ws).asid = th.asid := by
  unfold Thread.writes
  induction ws generalizing th with
  | nil => rfl
  | cons w ws ih => rw [List.foldl_cons, ih, Thread.write_asid]
@[simp] theorem Thread.writes_tid (th : Thread) (ws : List RegWrite) : (th.writes ws).tid = th.tid := by
  unfold Thread.writes
  induction ws generalizing th with
  | nil => rfl
  | cons w ws ih => rw [List.foldl_cons, ih, Thread.write_tid]
@[simp] theorem Thread.writes_ava (th : Thread) (ws : List RegWrite) : (th.writes ws).ava = th.ava := by
  unfold Thread.writes
  induction ws generalizing th with
  | nil => rfl
  | cons w ws ih => rw [List.foldl_cons, ih, Thread.write_ava]
@[simp] theorem Thread.writes_g0slot (th : Thread) (ws : List RegWrite) : (th.writes ws).g0slot = th.g0slot := by
  unfold Thread.writes
  induction ws generalizing th with
  | nil => rfl
  | cons w ws ih => rw [List.foldl_cons, ih, Thread.write_g0slot]
@[simp] theorem Thread.writes_links (th : Thread) (ws : List RegWrite) : (th.writes ws).links = th.links := by
  unfold Thread.writes
  induction ws generalizing th with
  | nil => rfl
  | cons w ws ih => rw [List.foldl_cons, ih, Thread.write_links]
@[simp] theorem Thread.writes_d1 (th : Thread) (ws : List RegWrite) : (th.writes ws).d1 = th.d1 := by
  unfold Thread.writes
  induction ws generalizing th with
  | nil => rfl
  | cons w ws ih => rw [List.foldl_cons, ih, Thread.write_d1]
@[simp] theorem Thread.writes_d2 (th : Thread) (ws : List RegWrite) : (th.writes ws).d2 = th.d2 := by
  unfold Thread.writes
  induction ws generalizing th with
  | nil => rfl
  | cons w ws ih => rw [List.foldl_cons, ih, Thread.write_d2]
@[simp] theorem Thread.writes_linkcnt (th : Thread) (ws : List RegWrite) : (th.writes ws).linkcnt = th.linkcnt := by
  unfold Thread.writes
  induction ws generalizing th with
  | nil => rfl
  | cons w ws ih => rw [List.foldl_cons, ih, Thread.write_linkcnt]
@[simp] theorem Thread.writes_pincnt (th : Thread) (ws : List RegWrite) : (th.writes ws).pincnt = th.pincnt := by
  unfold Thread.writes
  induction ws generalizing th with
  | nil => rfl
  | cons w ws ih => rw [List.foldl_cons, ih, Thread.write_pincnt]
@[simp] theorem Thread.writes_ppriv (th : Thread) (ws : List RegWrite) : (th.writes ws).ppriv = th.ppriv := by
  unfold Thread.writes
  induction ws generalizing th with
  | nil => rfl
  | cons w ws ih => rw [List.foldl_cons, ih, Thread.write_ppriv]
@[simp] theorem Thread.writes_cause (th : Thread) (ws : List RegWrite) : (th.writes ws).cause = th.cause := by
  unfold Thread.writes
  induction ws generalizing th with
  | nil => rfl
  | cons w ws ih => rw [List.foldl_cons, ih, Thread.write_cause]
@[simp] theorem Thread.writes_epc (th : Thread) (ws : List RegWrite) : (th.writes ws).epc = th.epc := by
  unfold Thread.writes
  induction ws generalizing th with
  | nil => rfl
  | cons w ws ih => rw [List.foldl_cons, ih, Thread.write_epc]
@[simp] theorem Thread.writes_vregs (th : Thread) (ws : List RegWrite) : (th.writes ws).vregs = th.vregs := by
  unfold Thread.writes
  induction ws generalizing th with
  | nil => rfl
  | cons w ws ih => rw [List.foldl_cons, ih, Thread.write_vregs]
@[simp] theorem Thread.writes_pending (th : Thread) (ws : List RegWrite) : (th.writes ws).pending = th.pending := by
  unfold Thread.writes
  induction ws generalizing th with
  | nil => rfl
  | cons w ws ih => rw [List.foldl_cons, ih, Thread.write_pending]
@[simp] theorem Thread.writes_silent (th : Thread) (ws : List RegWrite) : (th.writes ws).silent = th.silent := by
  unfold Thread.writes
  induction ws generalizing th with
  | nil => rfl
  | cons w ws ih => rw [List.foldl_cons, ih, Thread.write_silent]
@[simp] theorem Thread.writes_posted (th : Thread) (ws : List RegWrite) : (th.writes ws).posted = th.posted := by
  unfold Thread.writes
  induction ws generalizing th with
  | nil => rfl
  | cons w ws ih => rw [List.foldl_cons, ih, Thread.write_posted]
@[simp] theorem Thread.writes_tags (th : Thread) (ws : List RegWrite) : (th.writes ws).tags = th.tags := by
  unfold Thread.writes
  induction ws generalizing th with
  | nil => rfl
  | cons w ws ih => rw [List.foldl_cons, ih, Thread.write_tags]
@[simp] theorem Thread.writes_hold (th : Thread) (ws : List RegWrite) : (th.writes ws).hold = th.hold := by
  unfold Thread.writes
  induction ws generalizing th with
  | nil => rfl
  | cons w ws ih => rw [List.foldl_cons, ih, Thread.write_hold]
@[simp] theorem Thread.writes_wait (th : Thread) (ws : List RegWrite) : (th.writes ws).wait = th.wait := by
  unfold Thread.writes
  induction ws generalizing th with
  | nil => rfl
  | cons w ws ih => rw [List.foldl_cons, ih, Thread.write_wait]
@[simp] theorem Thread.writes_mark (th : Thread) (ws : List RegWrite) : (th.writes ws).mark = th.mark := by
  unfold Thread.writes
  induction ws generalizing th with
  | nil => rfl
  | cons w ws ih => rw [List.foldl_cons, ih, Thread.write_mark]
@[simp] theorem Thread.writes_denial (th : Thread) (ws : List RegWrite) : (th.writes ws).denial = th.denial := by
  unfold Thread.writes
  induction ws generalizing th with
  | nil => rfl
  | cons w ws ih => rw [List.foldl_cons, ih, Thread.write_denial]
@[simp] theorem Thread.writes_quotaTaken (th : Thread) (ws : List RegWrite) : (th.writes ws).quotaTaken = th.quotaTaken := by
  unfold Thread.writes
  induction ws generalizing th with
  | nil => rfl
  | cons w ws ih => rw [List.foldl_cons, ih, Thread.write_quotaTaken]
@[simp] theorem Thread.writes_draw (th : Thread) (ws : List RegWrite) : (th.writes ws).draw = th.draw := by
  unfold Thread.writes
  induction ws generalizing th with
  | nil => rfl
  | cons w ws ih => rw [List.foldl_cons, ih, Thread.write_draw]
@[simp] theorem Thread.writes_block (th : Thread) (ws : List RegWrite) : (th.writes ws).block = th.block := by
  unfold Thread.writes
  induction ws generalizing th with
  | nil => rfl
  | cons w ws ih => rw [List.foldl_cons, ih, Thread.write_block]
@[simp] theorem Thread.writes_imaged (th : Thread) (ws : List RegWrite) : (th.writes ws).imaged = th.imaged := by
  unfold Thread.writes
  induction ws generalizing th with
  | nil => rfl
  | cons w ws ih => rw [List.foldl_cons, ih, Thread.write_imaged]
@[simp] theorem Thread.writes_issuing (th : Thread) (ws : List RegWrite) : (th.writes ws).issuing = th.issuing := by
  unfold Thread.writes
  induction ws generalizing th with
  | nil => rfl
  | cons w ws ih => rw [List.foldl_cons, ih, Thread.write_issuing]
@[simp] theorem Thread.writes_locks (th : Thread) (ws : List RegWrite) : (th.writes ws).locks = th.locks := by
  unfold Thread.writes
  induction ws generalizing th with
  | nil => rfl
  | cons w ws ih => rw [List.foldl_cons, ih, Thread.write_locks]
@[simp] theorem Thread.writes_depart (th : Thread) (ws : List RegWrite) : (th.writes ws).depart = th.depart := by
  unfold Thread.writes
  induction ws generalizing th with
  | nil => rfl
  | cons w ws ih => rw [List.foldl_cons, ih, Thread.write_depart]
@[simp] theorem Thread.writes_departAt (th : Thread) (ws : List RegWrite) : (th.writes ws).departAt = th.departAt := by
  unfold Thread.writes
  induction ws generalizing th with
  | nil => rfl
  | cons w ws ih => rw [List.foldl_cons, ih, Thread.write_departAt]
@[simp] theorem Thread.writes_walking (th : Thread) (ws : List RegWrite) : (th.writes ws).walking = th.walking := by
  unfold Thread.writes
  induction ws generalizing th with
  | nil => rfl
  | cons w ws ih => rw [List.foldl_cons, ih, Thread.write_walking]
@[simp] theorem Thread.writes_waitt (th : Thread) (ws : List RegWrite) : (th.writes ws).waitt = th.waitt := by
  unfold Thread.writes
  induction ws generalizing th with
  | nil => rfl
  | cons w ws ih => rw [List.foldl_cons, ih, Thread.write_waitt]
@[simp] theorem Thread.writes_nextTurn (th : Thread) (ws : List RegWrite) : (th.writes ws).nextTurn = th.nextTurn := by
  unfold Thread.writes
  induction ws generalizing th with
  | nil => rfl
  | cons w ws ih => rw [List.foldl_cons, ih, Thread.write_nextTurn]
@[simp] theorem Thread.writes_issuedAt (th : Thread) (ws : List RegWrite) : (th.writes ws).issuedAt = th.issuedAt := by
  unfold Thread.writes
  induction ws generalizing th with
  | nil => rfl
  | cons w ws ih => rw [List.foldl_cons, ih, Thread.write_issuedAt]
@[simp] theorem Thread.writes_yieldUntil (th : Thread) (ws : List RegWrite) : (th.writes ws).yieldUntil = th.yieldUntil := by
  unfold Thread.writes
  induction ws generalizing th with
  | nil => rfl
  | cons w ws ih => rw [List.foldl_cons, ih, Thread.write_yieldUntil]
@[simp] theorem Thread.writes_acks (th : Thread) (ws : List RegWrite) : (th.writes ws).acks = th.acks := by
  unfold Thread.writes
  induction ws generalizing th with
  | nil => rfl
  | cons w ws ih => rw [List.foldl_cons, ih, Thread.write_acks]
@[simp] theorem Thread.writes_sent (th : Thread) (ws : List RegWrite) : (th.writes ws).sent = th.sent := by
  unfold Thread.writes
  induction ws generalizing th with
  | nil => rfl
  | cons w ws ih => rw [List.foldl_cons, ih, Thread.write_sent]
@[simp] theorem Thread.writes_ackNo (th : Thread) (ws : List RegWrite) : (th.writes ws).ackNo = th.ackNo := by
  unfold Thread.writes
  induction ws generalizing th with
  | nil => rfl
  | cons w ws ih => rw [List.foldl_cons, ih, Thread.write_ackNo]
@[simp] theorem Thread.writes_switching (th : Thread) (ws : List RegWrite) : (th.writes ws).switching = th.switching := by
  unfold Thread.writes
  induction ws generalizing th with
  | nil => rfl
  | cons w ws ih => rw [List.foldl_cons, ih, Thread.write_switching]
@[simp] theorem Thread.writes_scratch (th : Thread) (ws : List RegWrite) : (th.writes ws).scratch = th.scratch := by
  unfold Thread.writes
  induction ws generalizing th with
  | nil => rfl
  | cons w ws ih => rw [List.foldl_cons, ih, Thread.write_scratch]
@[simp] theorem Thread.writes_faultAt (th : Thread) (ws : List RegWrite) : (th.writes ws).faultAt = th.faultAt := by
  unfold Thread.writes
  induction ws generalizing th with
  | nil => rfl
  | cons w ws ih => rw [List.foldl_cons, ih, Thread.write_faultAt]
@[simp] theorem Thread.writes_faultVa (th : Thread) (ws : List RegWrite) : (th.writes ws).faultVa = th.faultVa := by
  unfold Thread.writes
  induction ws generalizing th with
  | nil => rfl
  | cons w ws ih => rw [List.foldl_cons, ih, Thread.write_faultVa]
@[simp] theorem Thread.writes_haltedFrom (th : Thread) (ws : List RegWrite) : (th.writes ws).haltedFrom = th.haltedFrom := by
  unfold Thread.writes
  induction ws generalizing th with
  | nil => rfl
  | cons w ws ih => rw [List.foldl_cons, ih, Thread.write_haltedFrom]

/-- The values trap entry writes (12 R273). -/
@[simp] theorem Thread.enter_st (th : Thread) (vec fw : CodeAddr) (c : BitVec 8) (v : Dword) (e : CodeAddr) :
    (th.enter vec fw c v e).st = .ready := rfl
@[simp] theorem Thread.enter_epc (th : Thread) (vec fw : CodeAddr) (c : BitVec 8) (v : Dword) (e : CodeAddr) :
    (th.enter vec fw c v e).epc = e := rfl
@[simp] theorem Thread.enter_cause (th : Thread) (vec fw : CodeAddr) (c : BitVec 8) (v : Dword) (e : CodeAddr) :
    (th.enter vec fw c v e).cause = c := rfl
@[simp] theorem Thread.pends_silent (th : Thread) (ready : Bool) (ds : List Dest) (ws : List RegWrite) (flags : BitVec 5) :
    (th.pends ready ds ws flags).silent = if (live ds).isEmpty && flags != 0 then
      th.silent ++ [{ tag := th.tags, dests := live ds, ready := ready, writes := ws, flags := flags }] else th.silent := by
  simp [Thread.pends, Thread.await]
@[simp] theorem Thread.enter_g0slot (th : Thread) (vec fw : CodeAddr) (c : BitVec 8) (v : Dword) (e : CodeAddr) :
    (th.enter vec fw c v e).g0slot = 0 := rfl
@[simp] theorem Thread.enter_wait (th : Thread) (vec fw : CodeAddr) (c : BitVec 8) (v : Dword) (e : CodeAddr) :
    (th.enter vec fw c v e).wait = none := rfl
@[simp] theorem Thread.enter_ppriv (th : Thread) (vec fw : CodeAddr) (c : BitVec 8) (v : Dword) (e : CodeAddr) :
    (th.enter vec fw c v e).ppriv = th.priv := by
  unfold Thread.enter Thread.dropOldest; simp only []; split <;> rfl
@[simp] theorem Thread.enter_priv (th : Thread) (vec fw : CodeAddr) (c : BitVec 8) (v : Dword) (e : CodeAddr) :
    (th.enter vec fw c v e).priv = if th.priv = 3 then 3 else 1 := by
  unfold Thread.enter Thread.dropOldest; simp only []; split <;> rfl
@[simp] theorem Thread.enter_pc (th : Thread) (vec fw : CodeAddr) (c : BitVec 8) (v : Dword) (e : CodeAddr) :
    (th.enter vec fw c v e).pc = if th.priv = 3 then fw else vec := by
  unfold Thread.enter Thread.dropOldest; simp only []; split <;> rfl

end Sys2Proof.Machine
end

