-- ==== Sys2Proof/Laws/Tables.lean ====
section
/-! SUPPORT. Tables with a default: what a key reads as after a write, and through it a tile, core, thread and module after an
update. -/
namespace Sys2Proof

namespace Tab

variable {α : Type}

@[simp] theorem get_set_same (d v : α) (m : Tab α) (k : Nat) : Tab.get d (Tab.set m k v) k = v := by
  induction m with
  | nil => simp [Tab.set, Tab.get]
  | cons e m ih =>
    obtain ⟨j, w⟩ := e
    simp only [Tab.set]
    split
    · simp [Tab.get]
    · split
      · simp [Tab.get]
      · rename_i h _
        simp [Tab.get, h, ih]

theorem get_set_ne (d v : α) (m : Tab α) {k i : Nat} (h : i ≠ k) : Tab.get d (Tab.set m k v) i = Tab.get d m i := by
  induction m with
  | nil => simp [Tab.set, Tab.get, h.symm]
  | cons e m ih =>
    obtain ⟨j, w⟩ := e
    simp only [Tab.set]
    split
    · subst j; simp [Tab.get, h.symm]
    · split
      · simp [Tab.get, h.symm]
      · simp [Tab.get, ih]

theorem get_set (d v : α) (m : Tab α) (k i : Nat) : Tab.get d (Tab.set m k v) i = if i = k then v else Tab.get d m i := by
  split
  · subst_vars; simp
  · exact get_set_ne d v m ‹_›

end Tab

namespace Machine

/-! ## Tiles -/

@[simp] theorem State.module_setTile (s : State) (t md : Nat) (tl : Tile) : (s.setTile t tl).module md = s.module md := rfl

@[simp] theorem State.module_mapTile (s : State) (t md : Nat) (f : Tile → Tile) : (s.mapTile t f).module md = s.module md := rfl

@[simp] theorem State.tile_setTile_same (s : State) (t : Nat) (tl : Tile) : (s.setTile t tl).tile t = tl := by
  simp [State.tile, State.setTile]

theorem State.tile_setTile_ne (s : State) {t u : Nat} (tl : Tile) (h : u ≠ t) : (s.setTile t tl).tile u = s.tile u := by
  simp only [State.tile, State.module_setTile]
  exact Tab.get_set_ne _ _ _ h

@[simp] theorem State.tile_mapTile_same (s : State) (t : Nat) (f : Tile → Tile) : (s.mapTile t f).tile t = f (s.tile t) := by
  simp [State.mapTile]

theorem State.tile_mapTile_ne (s : State) {t u : Nat} (f : Tile → Tile) (h : u ≠ t) : (s.mapTile t f).tile u = s.tile u :=
  State.tile_setTile_ne s _ h

/-- Updates outside the tiles leave every tile. -/
theorem State.tile_congr {s t : State} (h : t.tiles = s.tiles) (hm : t.mods = s.mods) (n : Nat) : t.tile n = s.tile n := by
  simp [State.tile, State.module, h, hm]

@[simp] theorem State.tile_store (s : State) (a : Nat) (bs : List Byte) (n : Nat) : (s.store a bs).tile n = s.tile n := rfl
@[simp] theorem State.tile_setDword (s : State) (a : Nat) (v : Dword) (n : Nat) : (s.setDword a v).tile n = s.tile n := rfl
@[simp] theorem State.tile_setEmpty (s : State) (a : Nat) (e : Bool) (n : Nat) : (s.setEmpty a e).tile n = s.tile n := rfl
@[simp] theorem State.tile_setPoison (s : State) (a : Nat) (e : Bool) (n : Nat) : (s.setPoison a e).tile n = s.tile n := rfl
@[simp] theorem State.tile_send (s : State) (cls src dst asid len : Nat) (body : Payload) (n : Nat) :
    (s.send cls src dst asid len body).tile n = s.tile n := rfl
@[simp] theorem State.tile_dropPacket (s : State) (i n : Nat) : (s.dropPacket i).tile n = s.tile n := rfl

/-! ## Cores and threads -/

@[simp] theorem Tile.core_setCore_same (tl : Tile) (c : Nat) (k : Core) : (tl.setCore c k).core c = k := by
  simp [Tile.core, Tile.setCore]

theorem Tile.core_setCore_ne (tl : Tile) {c i : Nat} (k : Core) (h : i ≠ c) : (tl.setCore c k).core i = tl.core i :=
  Tab.get_set_ne _ _ _ h

@[simp] theorem Tile.thread_setThread_same (tl : Tile) (c k : Nat) (th : Thread) : (tl.setThread c k th).thread c k = th := by
  simp [Tile.thread, Tile.setThread]

theorem Tile.thread_setThread_ne (tl : Tile) {c k i j : Nat} (th : Thread) (h : (i, j) ≠ (c, k)) :
    (tl.setThread c k th).thread i j = tl.thread i j := by
  simp only [Tile.thread, Tile.setThread]
  by_cases hi : i = c
  · subst hi
    have hj : j ≠ k := fun e => h (by rw [e])
    simp [Tab.get_set_ne _ _ _ hj]
  · rw [Tile.core_setCore_ne _ _ hi]

@[simp] theorem Tile.core_count (tl : Tile) (n b c : Nat) : (tl.count n b).core c = tl.core c := rfl
@[simp] theorem Tile.thread_count (tl : Tile) (n b c k : Nat) : (tl.count n b).thread c k = tl.thread c k := rfl
@[simp] theorem Tile.core_bb (tl : Tile) (e : BbEntry) (c : Nat) : (tl.bb e).core c = tl.core c := rfl
@[simp] theorem Tile.thread_bb (tl : Tile) (e : BbEntry) (c k : Nat) : (tl.bb e).thread c k = tl.thread c k := rfl

@[simp] theorem State.thread_setThread_same (s : State) (t c k : Nat) (th : Thread) : (s.setThread t c k th).thread t c k = th := by
  simp [State.thread, State.setThread]

theorem State.thread_setThread_ne (s : State) {t c k u i j : Nat} (th : Thread) (h : (u, i, j) ≠ (t, c, k)) :
    (s.setThread t c k th).thread u i j = s.thread u i j := by
  simp only [State.thread, State.setThread]
  by_cases hu : u = t
  · subst hu
    rw [State.tile_mapTile_same]
    exact Tile.thread_setThread_ne _ _ (fun e => h (by rw [e]))
  · rw [State.tile_mapTile_ne _ _ hu]

@[simp] theorem State.thread_count (s : State) (t n b u c k : Nat) : (s.count t n b).thread u c k = s.thread u c k := by
  simp only [State.thread, State.count]
  by_cases hu : u = t
  · subst hu; simp
  · rw [State.tile_mapTile_ne _ _ hu]

@[simp] theorem State.thread_bb (s : State) (t kd d : Nat) (tid : BitVec 32) (c k u i j : Nat) :
    (s.bb t kd d tid c k).thread u i j = s.thread u i j := by
  simp only [State.thread, State.bb]
  by_cases hu : u = t
  · subst hu; simp
  · rw [State.tile_mapTile_ne _ _ hu]

@[simp] theorem State.here_eq (s : State) : s.here = s.cur.1 := rfl

@[simp] theorem State.me_setMe (s : State) (th : Thread) : (s.setMe th).me = th := by
  simp [State.me, State.setMe, State.setThread_cur]

@[simp] theorem State.me_issued (s : State) (th : Thread) : (s.issued th).me = th := by
  simp [State.me, State.issued, State.setMe]

@[simp] theorem State.me_retire (s : State) (n : Nat) (th : Thread) :
    (s.retire n th).me = { th with pc := s.me.pc + BitVec.ofNat 48 n } := by
  simp [State.retire]

/-! ## Modules -/

@[simp] theorem State.module_setModule_same (s : State) (n : Nat) (m : Module) : (s.setModule n m).module n = m := by
  simp [State.module, State.setModule]

theorem State.module_setModule_ne (s : State) {n i : Nat} (m : Module) (h : i ≠ n) : (s.setModule n m).module i = s.module i :=
  Tab.get_set_ne _ _ _ h

/-! ## Registers -/

/-- g0 reads zero whatever was written (01 R20). -/
@[simp] theorem Thread.rg_zero (th : Thread) : th.rg 0 = 0 := by simp [Thread.rg]

theorem Thread.rg_setG_same (th : Thread) (r : BitVec 5) (x : Dword) (h : r ≠ 0) : (th.setG r.toNat x).rg r = x := by
  have : r.toNat ≠ 0 := fun e => h (BitVec.eq_of_toNat_eq (by simpa using e))
  simp only [Thread.rg, Thread.setG, if_neg h, if_neg this, Tab.get_set_same]

theorem Thread.rg_setG_ne (th : Thread) {r q : BitVec 5} (x : Dword) (h : q ≠ r) : (th.setG r.toNat x).rg q = th.rg q := by
  have : q.toNat ≠ r.toNat := fun e => h (BitVec.eq_of_toNat_eq e)
  unfold Thread.rg Thread.setG
  split
  · rfl
  · split
    · rfl
    · exact Tab.get_set_ne _ _ _ this

/-- The writes that a form's single destination gives. -/
@[simp] theorem Thread.writes_nil (th : Thread) : th.writes [] = th := rfl

@[simp] theorem Thread.writes_toG (th : Thread) (r : BitVec 5) (x : Dword) : th.writes [toG r x] = th.setG r.toNat x := by
  simp [Thread.writes, toG, gd, Thread.write]

@[simp] theorem Thread.writes_toP (th : Thread) (q : BitVec 4) (b : Bool) : th.writes [toP q b] = th.setP q.toNat b := by
  cases b <;> simp [Thread.writes, toP, pd, Thread.write]

end Machine

end Sys2Proof
end

