-- ==== Sys2Proof/Laws/Memory.lean ====
section
/-! SUPPORT. Memory: a read after a write, and that every write keeps the canonical form (14 R301). -/
namespace Sys2Proof.Machine

namespace Mem

theorem read_without_same (a : Nat) (m : List Host.Cell) : read (without a m) a = 0 := by
  induction m with
  | nil => rfl
  | cons e m ih =>
    obtain ⟨b, w⟩ := e
    simp only [without]
    split
    · exact ih
    · rename_i h; simp [read, h, ih]

theorem read_without_ne {a i : Nat} (m : List Host.Cell) (h : i ≠ a) : read (without a m) i = read m i := by
  induction m with
  | nil => rfl
  | cons e m ih =>
    obtain ⟨b, w⟩ := e
    simp only [without]
    split
    · subst b; simp [read, h.symm, ih]
    · simp [read, ih]

theorem read_insert_same (a : Nat) (v : Byte) (m : List Host.Cell) : read (insert a v (without a m)) a = v := by
  induction m with
  | nil => simp [without, insert, read]
  | cons e m ih =>
    obtain ⟨b, w⟩ := e
    simp only [without]
    split
    · exact ih
    · rename_i h
      simp only [insert]
      split
      · simp [read]
      · simp [read, h, ih]

theorem read_insert_ne {a i : Nat} (v : Byte) (m : List Host.Cell) (h : i ≠ a) : read (insert a v m) i = read m i := by
  induction m with
  | nil => simp [insert, read, h.symm]
  | cons e m ih =>
    obtain ⟨b, w⟩ := e
    simp only [insert]
    split
    · simp [read, h.symm]
    · simp [read, ih]

/-- A byte reads as written. -/
theorem read_write_same (m : List Host.Cell) (a : Nat) (v : Byte) : read (write m a v) a = v := by
  unfold write
  split
  · subst v; exact read_without_same a m
  · exact read_insert_same a v m

/-- A write leaves every other byte. -/
theorem read_write_ne (m : List Host.Cell) {a i : Nat} (v : Byte) (h : i ≠ a) : read (write m a v) i = read m i := by
  unfold write
  split
  · exact read_without_ne m h
  · rw [read_insert_ne _ _ h, read_without_ne m h]

/-- Bytes outside the written range read as before. -/
theorem read_writeAll_outside (m : List Host.Cell) (a i : Nat) (bs : List Byte) (h : i < a ∨ a + bs.length ≤ i) :
    read (writeAll m a bs) i = read m i := by
  induction bs generalizing m a with
  | nil => rfl
  | cons b bs ih =>
    simp only [List.length_cons] at h
    rw [writeAll, ih _ _ (by omega), read_write_ne _ _ (by omega)]

/-- Bytes inside the written range read as written. -/
theorem read_writeAll_inside (m : List Host.Cell) (a i : Nat) (bs : List Byte) (h : i < bs.length) :
    read (writeAll m a bs) (a + i) = bs[i] := by
  induction bs generalizing m a i with
  | nil => simp at h
  | cons b bs ih =>
    rw [writeAll]
    cases i with
    | zero => rw [read_writeAll_outside _ _ _ _ (by omega)]; exact read_write_same m a b
    | succ i =>
      have := ih (write m a b) (a + 1) i (by simpa using h)
      rw [show a + (i + 1) = a + 1 + i by omega]
      simpa using this

/-! ### The canonical form -/

/-- The canonical form as a proposition: the addresses rise and no listed byte is 0. -/
def Canonical (m : List Host.Cell) : Prop := m.Pairwise (fun x y => x.1 < y.1) ∧ ∀ x ∈ m, x.2 ≠ 0

theorem rising_iff (m : List Host.Cell) : rising m = true ↔ Canonical m := by
  induction m with
  | nil => simp [rising, Canonical]
  | cons e m ih =>
    obtain ⟨a, v⟩ := e
    cases m with
    | nil => simp [rising, Canonical]
    | cons f m =>
      obtain ⟨b, w⟩ := f
      simp only [rising, Bool.and_eq_true, bne_iff_ne, ne_eq, decide_eq_true_eq, ih]
      constructor
      · rintro ⟨⟨hv, hab⟩, hp, hz⟩
        refine ⟨List.pairwise_cons.2 ⟨?_, hp⟩, ?_⟩
        · intro y hy
          rcases List.mem_cons.1 hy with rfl | hy
          · exact hab
          · exact Nat.lt_trans hab ((List.pairwise_cons.1 hp).1 y hy)
        · intro x hx
          rcases List.mem_cons.1 hx with rfl | hx
          · exact hv
          · exact hz x hx
      · rintro ⟨hp, hz⟩
        obtain ⟨h1, h2⟩ := List.pairwise_cons.1 hp
        exact ⟨⟨hz (a, v) (by simp), h1 (b, w) (by simp)⟩, h2, fun x hx => hz x (List.mem_cons_of_mem _ hx)⟩

theorem mem_without {a : Nat} {x : Host.Cell} {m : List Host.Cell} : x ∈ without a m ↔ x ∈ m ∧ x.1 ≠ a := by
  induction m with
  | nil => simp [without]
  | cons e m ih =>
    obtain ⟨b, w⟩ := e
    simp only [without]
    split
    · subst b
      rw [ih, List.mem_cons]
      constructor
      · rintro ⟨h, n⟩; exact ⟨.inr h, n⟩
      · rintro ⟨rfl | h, n⟩
        · exact absurd rfl n
        · exact ⟨h, n⟩
    · rename_i hb
      rw [List.mem_cons, ih, List.mem_cons]
      constructor
      · rintro (rfl | ⟨h, n⟩)
        · exact ⟨.inl rfl, hb⟩
        · exact ⟨.inr h, n⟩
      · rintro ⟨rfl | h, n⟩
        · exact .inl rfl
        · exact .inr ⟨h, n⟩

theorem without_sublist (a : Nat) (m : List Host.Cell) : (without a m).Sublist m := by
  induction m with
  | nil => exact .slnil
  | cons e m ih =>
    obtain ⟨b, w⟩ := e
    simp only [without]
    split
    · exact ih.cons _
    · exact ih.cons_cons _

theorem canonical_without {m : List Host.Cell} (a : Nat) (h : Canonical m) : Canonical (without a m) :=
  ⟨h.1.sublist (without_sublist a m), fun x hx => h.2 x (mem_without.1 hx).1⟩

theorem mem_insert {a : Nat} {v : Byte} {x : Host.Cell} {m : List Host.Cell} : x ∈ insert a v m ↔ x = (a, v) ∨ x ∈ m := by
  induction m with
  | nil => simp [insert]
  | cons e m ih =>
    obtain ⟨b, w⟩ := e
    simp only [insert]
    split
    · simp
    · simp only [List.mem_cons, ih]
      constructor
      · rintro (h | h | h)
        · exact .inr (.inl h)
        · exact .inl h
        · exact .inr (.inr h)
      · rintro (h | h | h)
        · exact .inr (.inl h)
        · exact .inl h
        · exact .inr (.inr h)

theorem canonical_insert {m : List Host.Cell} {a : Nat} {v : Byte} (hv : v ≠ 0) (ha : ∀ x ∈ m, x.1 ≠ a) (h : Canonical m) :
    Canonical (insert a v m) := by
  refine ⟨?_, fun x hx => ?_⟩
  · induction m with
    | nil => simp [insert]
    | cons e m ih =>
      obtain ⟨b, w⟩ := e
      obtain ⟨h1, h2⟩ := List.pairwise_cons.1 h.1
      simp only [insert]
      split
      · rename_i hab
        have hb : b ≠ a := ha (b, w) (by simp)
        refine List.pairwise_cons.2 ⟨fun y hy => ?_, h.1⟩
        rcases List.mem_cons.1 hy with rfl | hy
        · exact Nat.lt_of_le_of_ne hab hb.symm
        · exact Nat.lt_of_le_of_lt hab (h1 y hy)
      · rename_i hab
        refine List.pairwise_cons.2 ⟨fun y hy => ?_, ih (fun x hx => ha x (List.mem_cons_of_mem _ hx))
          ⟨h2, fun x hx => h.2 x (List.mem_cons_of_mem _ hx)⟩⟩
        rcases mem_insert.1 hy with rfl | hy
        · exact Nat.lt_of_not_le hab
        · exact h1 y hy
  · rcases mem_insert.1 hx with rfl | hx
    · exact hv
    · exact h.2 x hx

theorem canonical_write {m : List Host.Cell} (a : Nat) (v : Byte) (h : Canonical m) : Canonical (write m a v) := by
  unfold write
  split
  · exact canonical_without a h
  · exact canonical_insert ‹_› (fun x hx => (mem_without.1 hx).2) (canonical_without a h)

theorem canonical_writeAll {m : List Host.Cell} (a : Nat) (bs : List Byte) (h : Canonical m) : Canonical (writeAll m a bs) := by
  induction bs generalizing m a with
  | nil => exact h
  | cons b bs ih => exact ih _ (canonical_write a b h)

theorem canonical_filter {m : List Host.Cell} (p : Host.Cell → Bool) (h : Canonical m) : Canonical (m.filter p) :=
  ⟨h.1.filter p, fun x hx => h.2 x (List.mem_filter.1 hx).1⟩

theorem canonical_writes {m : List Host.Cell} (cs : List Host.Cell) (h : Canonical m) :
    Canonical (cs.foldl (fun m c => write m c.1 c.2) m) := by
  induction cs generalizing m with
  | nil => exact h
  | cons c cs ih => exact ih (canonical_write c.1 c.2 h)

end Mem

namespace Memory

theorem wf_iff (m : List Host.Cell) : Memory.wf m = true ↔ Mem.Canonical m := Mem.rising_iff m

theorem wf_write {m : List Host.Cell} (a : Nat) (v : Byte) (h : Memory.wf m = true) : Memory.wf (Mem.write m a v) = true :=
  (wf_iff _).2 (Mem.canonical_write a v ((wf_iff _).1 h))

theorem wf_writeAll {m : List Host.Cell} (a : Nat) (bs : List Byte) (h : Memory.wf m = true) :
    Memory.wf (Mem.writeAll m a bs) = true :=
  (wf_iff _).2 (Mem.canonical_writeAll a bs ((wf_iff _).1 h))

theorem wf_filter {m : List Host.Cell} (p : Host.Cell → Bool) (h : Memory.wf m = true) : Memory.wf (m.filter p) = true :=
  (wf_iff _).2 (Mem.canonical_filter p ((wf_iff _).1 h))

theorem wf_writes {m : List Host.Cell} (cs : List Host.Cell) (h : Memory.wf m = true) :
    Memory.wf (cs.foldl (fun m c => Mem.write m c.1 c.2) m) = true :=
  (wf_iff _).2 (Mem.canonical_writes cs ((wf_iff _).1 h))

theorem wf_reset : Memory.wf State.reset.mem = true := rfl

end Memory

namespace State

theorem memorySafe_store {s : State} (a : Nat) (bs : List Byte) (h : s.memorySafe) : (s.store a bs).memorySafe :=
  Memory.wf_writeAll a bs h

theorem memorySafe_setDword {s : State} (a : Nat) (v : Dword) (h : s.memorySafe) : (s.setDword a v).memorySafe :=
  memorySafe_store a _ h

/-- Safety of memory depends on memory alone. -/
theorem memorySafe_congr {s t : State} (e : t.mem = s.mem) (h : s.memorySafe) : t.memorySafe := by
  unfold memorySafe; rw [e]; exact h

theorem byte_store_outside (s : State) (a i : Nat) (bs : List Byte) (h : i < a ∨ a + bs.length ≤ i) :
    (s.store a bs).byte i = s.byte i :=
  Mem.read_writeAll_outside s.mem a i bs h

theorem byte_store_inside (s : State) (a i : Nat) (bs : List Byte) (h : i < bs.length) : (s.store a bs).byte (a + i) = bs[i] :=
  Mem.read_writeAll_inside s.mem a i bs h

end State

/-! ## Words and bytes -/

@[simp] theorem leBytes_length (n x : Nat) : (leBytes n x).length = n := by
  induction n generalizing x with
  | zero => rfl
  | succ n ih => simp [leBytes, ih]

theorem leBytes_getD (n x i : Nat) (h : i < n) : (leBytes n x).getD i 0 = BitVec.ofNat 8 (x / 2 ^ (8 * i)) := by
  induction n generalizing x i with
  | zero => omega
  | succ n ih =>
    cases i with
    | zero => simp [leBytes]
    | succ i =>
      simp only [leBytes, List.getD_cons_succ]
      rw [ih _ _ (by omega), Nat.div_div_eq_div_mul]
      congr 2
      rw [show 8 * (i + 1) = 8 + 8 * i by omega, Nat.pow_add]

/-- Every byte after a store: the value's where it was stored, as before elsewhere. -/
theorem byte_store (s : State) (a q : Nat) (bs : List Byte) :
    (s.store a bs).byte q = if a ≤ q ∧ q < a + bs.length then bs.getD (q - a) 0 else s.byte q := by
  split
  · rename_i h
    have hi : q - a < bs.length := by omega
    have := State.byte_store_inside s a (q - a) bs hi
    rw [show a + (q - a) = q by omega] at this
    rw [this, List.getD_eq_getElem?_getD, List.getElem?_eq_getElem hi]; rfl
  · exact State.byte_store_outside s a q bs (by omega)

/-- The same of the low n bytes of a doubleword. -/
theorem byte_store_dword (s : State) (a q n : Nat) (v : Dword) :
    (s.store a (leBytes n v.toNat)).byte q = if a ≤ q ∧ q < a + n then v.extractLsb' (8 * (q - a)) 8 else s.byte q := by
  rw [byte_store, leBytes_length]
  by_cases h : a ≤ q ∧ q < a + n
  · rw [if_pos h, if_pos h, leBytes_getD _ _ _ (by omega)]
    apply BitVec.eq_of_toNat_eq
    simp [Nat.shiftRight_eq_div_pow]
  · rw [if_neg h, if_neg h]

/-! ## Poison -/

theorem dropFrom_eq {a : Nat} {l : List Nat} (h : l.contains a = false) : dropFrom a l = l := by
  unfold dropFrom
  rw [List.filter_eq_self]
  intro b hb
  simp only [bne_iff_ne, ne_eq]
  intro e
  subst e
  simp [hb] at h

/-- A store to words none of which is poisoned changes their bytes and no tag. -/
theorem poke_clean (s : State) (op : Op) (a : Nat) (bs : List Byte) (h : s.isPoisoned a bs.length = false) :
    s.poke op a bs = { s.store a bs with poison := s.poison } := by
  unfold State.poke
  split
  · unfold State.isPoisoned at h
    rw [List.any_eq_false] at h
    generalize wordsOf a bs.length = ws at h
    induction ws with
    | nil => rfl
    | cons w ws ih =>
      simp only [List.foldl_cons]
      have hw : s.poison.contains w = false := by simpa using h w (by simp)
      rw [dropFrom_eq hw]
      exact ih (fun x hx => h x (by simp [hx]))
  · rw [h]; rfl

/-! ## What decoding a line leaves of the canonical form -/

/-- A fold whose steps keep the canonical form keeps it. -/
theorem memorySafe_foldl {α : Type} {f : State → α → State} (hf : ∀ s x, s.memorySafe → (f s x).memorySafe) (l : List α) {s : State}
    (h : s.memorySafe) : (l.foldl f s).memorySafe := by
  induction l generalizing s with
  | nil => exact h
  | cons x xs ih => exact ih (hf s x h)

/-- A fold whose steps leave memory leaves it. -/
theorem mem_foldl {α : Type} {f : State → α → State} (hf : ∀ s x, (f s x).mem = s.mem) (l : List α) (s : State) :
    (l.foldl f s).mem = s.mem := by
  induction l generalizing s with
  | nil => rfl
  | cons x xs ih => exact (ih (f s x)).trans (hf s x)

theorem State.mem_signal (s : State) (md v : Nat) (ports : List Nat) : (s.signal md v ports).mem = s.mem := by
  unfold State.signal
  apply mem_foldl
  intro _ _
  rfl

theorem State.mem_preempt (s : State) (asid : Nat) : (s.preempt asid).mem = s.mem := by
  unfold State.preempt
  extract_lets s1
  have h1 : s1.mem = s.mem := by
    apply mem_foldl
    intro _ _
    rfl
  clear_value s1
  split <;> exact h1

theorem State.mem_retireSoon (s : State) (t unit idx src : Nat) : (s.retireSoon t unit idx src).mem = s.mem := by
  unfold State.retireSoon
  extract_lets md m s1
  split
  · exact State.mem_preempt _ _
  · rfl

theorem State.mem_logUnit (s : State) (md col row unit idx src : Nat) : (s.logUnit md col row unit idx src).1.mem = s.mem := rfl

theorem State.mem_retireCrowded (s : State) (md src : Nat) (crowded : Option Nat) : (s.retireCrowded md src crowded).mem = s.mem := by
  unfold State.retireCrowded
  split
  · exact State.mem_retireSoon _ _ _ _ _
  · rfl

theorem State.mem_logRetire (s : State) (md col row unit idx src : Nat) : (s.logRetire md col row unit idx src).mem = s.mem :=
  (State.mem_retireCrowded _ md src _).trans (State.mem_logUnit s md col row unit idx src)

theorem State.mem_bankYields (s : State) (t b : Nat) : (s.bankYields t b).mem = s.mem := by
  unfold State.bankYields
  extract_lets tl n s1
  split
  · rfl
  · split
    · split
      · exact (State.mem_signal _ _ _ _).trans (State.mem_logRetire _ _ _ _ _ _ _)
      · rfl
    · exact State.mem_retireSoon _ _ _ _ _

theorem State.mem_poisonLine (s : State) (t line : Nat) : (s.poisonLine t line).mem = s.mem := by
  unfold State.poisonLine
  show (s.poisonAll (tagWords t (64 * line) 8)).mem = s.mem
  unfold State.poisonAll
  apply mem_foldl
  intro _ _
  rfl

theorem State.mem_tagsLost (s : State) (t line : Nat) : (s.tagsLost t line).mem = s.mem := by
  unfold State.tagsLost
  extract_lets s1
  have h1 : s1.mem = s.mem := mem_foldl (fun s l => State.mem_poisonLine s t l) _ s
  clear_value s1
  refine Eq.trans ?_ h1
  apply mem_foldl
  intro _ _
  rfl

/-- Decoding a line keeps the canonical form: what it writes back is a store. -/
theorem State.memorySafe_decode {s : State} (t line : Nat) (h : s.memorySafe) : (s.decode t line).memorySafe := by
  unfold State.decode
  split
  · exact h
  · rename_i e _
    extract_lets s1 s2 take
    have h2 : s2.memorySafe := by
      refine memorySafe_congr ?_ h
      show (if e.tags then (s1.untag t line).tagsLost t line else s1).mem = s.mem
      split
      · exact State.mem_tagsLost _ _ _
      · rfl
    have h3 : (take s2).memorySafe := by
      show (match e.left with
        | some v => s2.store (sramAt t (64 * line)) (leBytes 64 v.toNat)
        | none => s2).memorySafe
      split
      · exact State.memorySafe_store _ _ h2
      · exact h2
    clear_value s2
    split
    · exact h2
    · exact memorySafe_congr (State.mem_bankYields _ _ _) h3
    · have h4 : (if e.tags then take s2 else (take s2).poisonLine t line).memorySafe := by
        split
        · exact h3
        · exact memorySafe_congr (State.mem_poisonLine _ _ _) h3
      rename_i b _
      cases b with
      | none => exact h4
      | some b => exact memorySafe_congr (State.mem_bankYields _ _ _) h4

theorem State.memorySafe_decodeRange {s : State} (a n : Nat) (write : Bool) (h : s.memorySafe) : (s.decodeRange a n write).memorySafe := by
  unfold State.decodeRange
  extract_lets t
  split
  · exact h
  · refine memorySafe_foldl (fun s i h => ?_) _ h
    dsimp only
    split
    · unfold State.overwritten
      split
      · exact h
      · split
        · exact memorySafe_congr (State.mem_tagsLost _ _ _) h
        · exact h
    · exact State.memorySafe_decode _ _ h

/-! ## Words that a unit writes -/

/-- Tile memory without a soft error is not changed by being read. -/
theorem State.decodeRange_sound {s : State} {a n : Nat} {wr : Bool} (h : (s.tile (devTile a)).errs = []) : s.decodeRange a n wr = s := by
  simp [State.decodeRange, h]

/-- What writing words can do where no soft error is: it changes memory and poison alone. -/
theorem putWords_only (s : State) (a : Nat) (ws : List Dword) (h : (s.tile (devTile a)).errs = []) :
    ∃ m p, s.putWords a ws = { s with mem := m, poison := p } := by
  unfold State.putWords
  rw [State.decodeRange_sound h]
  generalize ws.zipIdx = xs
  clear h
  induction xs generalizing s with
  | nil => exact ⟨s.mem, s.poison, rfl⟩
  | cons x xs ih =>
    simp only [List.foldl_cons]
    obtain ⟨m, p, e⟩ := ih ((s.setDword (a + 8 * x.2) x.1).setPoison (a + 8 * x.2) false)
    exact ⟨m, p, e⟩

/-- Writing words keeps the canonical form. -/
theorem memorySafe_putWords {s : State} (a : Nat) (ws : List Dword) (h : s.memorySafe) : (s.putWords a ws).memorySafe :=
  memorySafe_foldl (fun _ x h => State.memorySafe_setDword (a + 8 * x.2) x.1 h) ws.zipIdx (State.memorySafe_decodeRange a _ true h)

/-- Every byte outside the words written is as before, where no soft error is. -/
theorem byte_putWords_outside (s : State) (a i : Nat) (ws : List Dword) (h : i < a ∨ a + 8 * ws.length ≤ i)
    (he : (s.tile (devTile a)).errs = []) : (s.putWords a ws).byte i = s.byte i := by
  unfold State.putWords
  rw [State.decodeRange_sound he]
  clear he
  have hx : ∀ x ∈ ws.zipIdx, i < a + 8 * x.2 ∨ a + 8 * x.2 + 8 ≤ i := by
    intro x hx
    have := List.snd_lt_of_mem_zipIdx hx
    omega
  generalize ws.zipIdx = xs at hx
  induction xs generalizing s with
  | nil => rfl
  | cons x xs ih =>
    simp only [List.foldl_cons]
    rw [ih _ (fun y hy => hx y (by simp [hy]))]
    exact State.byte_store_outside s _ i _ (by simpa using hx x (by simp))

end Sys2Proof.Machine
end

