-- ==== Sys2Proof/Laws/Issue.lean ====
section
/-! SUPPORT. What the checks before an instruction's own part can do (02 R63 to R68), and what a short and a long form then do. -/
namespace Sys2Proof.Machine

theorem State.Clear.runs {s : State} {m : Bool} {dst src : List Dest} {long mem waits dyn : Bool}
    (h : s.Clear m dst src long mem waits dyn) : s.me.runs = true := by
  simp [Thread.runs, h.ready, h.notWalking, h.noWait]

theorem State.Clear.mustHold {s : State} {f : Form} (h : s.Clear f.m f.dst f.src f.long f.mem f.waits f.dyn) :
    f.mustHold s.me = none := by
  unfold Form.mustHold
  have h1 : ((f.m || f.waits) && !s.me.pending.isEmpty) = false := by
    by_cases hm : f.m = true ∨ f.waits = true
    · simp [h.marked hm]
    · simp only [not_or, Bool.not_eq_true] at hm; simp [hm.1, hm.2]
  have h2 : (f.results != 0 && decide (16 < s.me.awaited + f.results)) = false := by
    unfold Form.results
    split
    · rename_i hl
      rcases h.room hl with h0 | h0
      · simp only [live] at h0; simp [h0]
      · simp only [live] at h0
        have : ¬ 16 < s.me.awaited + (f.dst.filter (fun d => !d.void)).length := by omega
        simp [this]
    · simp
  have h3 : (f.mem && !(Hold.acquire.spent 0 {} s.me)) = false := by
    cases hm : f.mem with
    | false => rfl
    | true =>
      obtain ⟨ha, hb⟩ := h.acquired hm
      simp only [Hold.spent, Bool.true_and, Bool.not_eq_false', Bool.and_eq_true, List.all_eq_true, Bool.not_eq_true']
      exact ⟨ha, hb⟩
  simp [h1, h2, h3]

theorem State.Clear.hazard {s : State} {f : Form} (h : s.Clear f.m f.dst f.src f.long f.mem f.waits f.dyn) :
    f.hazard s.me = none := by
  unfold Form.hazard
  split
  · rename_i hc
    simp only [Bool.and_eq_true, Bool.not_eq_true'] at hc
    rw [List.find?_eq_none]
    intro d hd
    simp only [Bool.and_eq_true, Bool.not_eq_true', List.any_eq_true, List.contains_iff_mem, not_and, not_exists]
    intro hv p hp
    exact h.noHazard hc.1.1 hc.1.2 hc.2 d hd hv p hp
  · rfl

theorem State.Clear.badParity {s : State} {f : Form} (h : s.Clear f.m f.dst f.src f.long f.mem f.waits f.dyn) :
    f.badParity s.me = none := by
  unfold Form.badParity
  rw [List.find?_eq_none]
  intro d hd
  simp only [Bool.and_eq_true, Bool.not_eq_true', List.contains_iff_mem, not_and]
  exact h.noParity d hd

theorem State.Clear.badRounding {s : State} {f : Form} (h : s.Clear f.m f.dst f.src f.long f.mem f.waits f.dyn) :
    f.badRounding s.me = false := by
  unfold Form.badRounding
  cases hd : f.dyn with
  | false => rfl
  | true => have := h.rounding hd; simp; omega

/-- A form whose checks pass does its own part. -/
theorem issue_clear {s : State} {f : Form} (h : s.Clear f.m f.dst f.src f.long f.mem f.waits f.dyn) (act : Thread → State → Out) :
    issue f s act = act s.me s := by
  unfold issue
  simp only [h.runs, Bool.not_true, h.mustHold, h.hazard, h.badParity, h.badRounding]
  rfl

/-- The same of a form that checks the thread's privilege first. -/
theorem privileged_clear {s : State} {f : Form} (h : s.Clear f.m f.dst f.src f.long f.mem f.waits f.dyn) {barred : Thread → Bool}
    (hb : barred s.me = false) (act : Thread → State → Out) : privileged f barred s act = act s.me s := by
  unfold privileged
  simp only [hb, Bool.and_false]
  exact issue_clear h act

/-- A form its thread may not use traps PRIVILEGE with its bits (12 R272). -/
theorem privileged_barred {s : State} {f : Form} (hr : s.me.runs = true) {barred : Thread → Bool} (hb : barred s.me = true)
    (act : Thread → State → Out) : privileged f barred s act = .next (s.trap Cause.privilege (Instr.word f.i)) := by
  unfold privileged; simp [hr, hb]

/-- Everything the checks of a form can do: nothing, a wait, one of the four traps, or the form's own part. -/
theorem issue_cases (f : Form) (s : State) (act : Thread → State → Out) :
    (s.me.runs = false ∧ issue f s act = .next s) ∨
    (∃ h, f.mustHold s.me = some h ∧ issue f s act = .next (s.hold h)) ∨
    (∃ d, f.hazard s.me = some d ∧ issue f s act = .next (s.trap Cause.hazard (BitVec.ofNat 64 d.code))) ∨
    (∃ d, f.badParity s.me = some d ∧ issue f s act = .next (s.parityTrap d)) ∨
    (f.badRounding s.me = true ∧ issue f s act = .next (s.trap Cause.illegal (Instr.word f.i))) ∨
    (s.me.runs = true ∧ f.passes s.me = true ∧ issue f s act = act s.me s) := by
  cases hr : s.me.runs with
  | false => exact .inl ⟨rfl, by simp [issue, hr]⟩
  | true =>
    cases hh : f.mustHold s.me with
    | some h => exact .inr (.inl ⟨h, rfl, by simp [issue, hr, hh]⟩)
    | none =>
      cases hz : f.hazard s.me with
      | some d => exact .inr (.inr (.inl ⟨d, rfl, by simp [issue, hr, hh, hz]⟩))
      | none =>
        cases hp : f.badParity s.me with
        | some d => exact .inr (.inr (.inr (.inl ⟨d, rfl, by simp [issue, hr, hh, hz, hp]⟩)))
        | none =>
          cases hb : f.badRounding s.me with
          | true => exact .inr (.inr (.inr (.inr (.inl ⟨rfl, by simp [issue, hr, hh, hz, hp, hb]⟩))))
          | false =>
            exact .inr (.inr (.inr (.inr (.inr ⟨rfl, by simp [Form.passes, hr, hh, hz, hp, hb], by simp [issue, hr, hh, hz, hp, hb]⟩))))

/-- A short form writes its registers and moves the PC past it (02 R64). -/
theorem short_clear {s : State} {f : Form} (h : s.Clear f.m f.dst f.src f.long f.mem f.waits f.dyn) (ws : Thread → List RegWrite) :
    short f s ws = .next (s.retire f.i.size (s.me.writes (ws s.me))) := by
  unfold short
  rw [issue_clear h]
  rfl

/-- A long form leaves its result pending and moves the PC past it (02 R64). -/
theorem long_clear {s : State} {f : Form} (h : s.Clear f.m f.dst f.src f.long f.mem f.waits f.dyn)
    (ws : Thread → List RegWrite × BitVec 5) :
    long f s ws = .next (s.retire f.i.size (s.me.pends true f.dst (ws s.me).1 (ws s.me).2)) := by
  unfold long
  rw [issue_clear h]
  rfl

/-- An access whose checks pass goes on to its own path; one that migrates or releases waits as if marked (02 R66). -/
theorem access_clear {s : State} {f : Form} (mk : Thread → Access)
    (h : s.Clear f.m f.dst f.src f.long f.mem (f.waits || (mk s.me).rel || s.migrates s.me { mk s.me with size := f.i.size }) f.dyn) :
    access f s mk = accessAt s.me s { mk s.me with size := f.i.size } := by
  unfold access
  exact issue_clear (f := Access.form { mk s.me with size := f.i.size } f s) h _

/-! ## Frames -/

/-- What retiring an instruction leaves: memory and everything outside the tiles. -/
theorem State.retire_beyond (s : State) (n : Nat) (th : Thread) : s.SameBeyond (s.retire n th) := by
  constructor <;> rfl

theorem State.retire_memory (s : State) (n : Nat) (th : Thread) : s.SameMemory (s.retire n th) := by
  constructor <;> rfl

theorem State.tile_setMe (s : State) (th : Thread) : (s.setMe th).tile s.cur.1 = (s.tile s.cur.1).setThread s.cur.2.1 s.cur.2.2 th := by
  simp [State.setMe, State.setThread]

/-- Retiring an instruction changes the executing thread and its tile's counters only. -/
theorem State.retire_onlyMe (s : State) (n : Nat) (th : Thread) : s.OnlyMe (s.retire n th) := by
  refine ⟨fun u hu => ?_, fun c k hck => ?_, ?_⟩
  · have hu' : u ≠ s.cur.1 := hu
    simp only [State.retire, State.issued, State.count, State.here_eq]
    rw [State.tile_mapTile_ne _ _ hu', State.setMe, State.setThread, State.tile_mapTile_ne _ _ hu']
  · simp only [State.retire, State.issued, State.count, State.here_eq, State.tile_mapTile_same, Tile.thread_count, State.tile_setMe]
    exact Tile.thread_setThread_ne _ _ hck
  · refine ⟨s.myCore.slots.set s.cur.2.2 { th with pc := s.me.pc + BitVec.ofNat 48 n },
      s.myTile.ct.set 0x260 (s.myTile.ct.get 0 0x260 + BitVec.ofNat 64 1), s.myTile.tlbTree, ?_⟩
    simp only [State.retire, State.issued, State.count, State.here_eq, State.tile_mapTile_same, State.tile_setMe]
    rfl

end Sys2Proof.Machine
end

