-- ==== Sys2Proof/Laws/Exec.lean ====
section
/-! SUPPORT. What exec calls, by constructor. -/
namespace Sys2Proof.Machine

theorem exec_add (m : Bool) (d : BitVec 5) (a : BitVec 5) (b : BitVec 5) (s : State) : exec (.add m d a b) s = execAdd m d a b s := rfl
theorem exec_sub (m : Bool) (d : BitVec 5) (a : BitVec 5) (b : BitVec 5) (s : State) : exec (.sub m d a b) s = execSub m d a b s := rfl
theorem exec_and (m : Bool) (d : BitVec 5) (a : BitVec 5) (b : BitVec 5) (s : State) : exec (.and m d a b) s = execAnd m d a b s := rfl
theorem exec_or (m : Bool) (d : BitVec 5) (a : BitVec 5) (b : BitVec 5) (s : State) : exec (.or m d a b) s = execOr m d a b s := rfl
theorem exec_xor (m : Bool) (d : BitVec 5) (a : BitVec 5) (b : BitVec 5) (s : State) : exec (.xor m d a b) s = execXor m d a b s := rfl
theorem exec_andn (m : Bool) (d : BitVec 5) (a : BitVec 5) (b : BitVec 5) (s : State) : exec (.andn m d a b) s = execAndn m d a b s := rfl
theorem exec_orn (m : Bool) (d : BitVec 5) (a : BitVec 5) (b : BitVec 5) (s : State) : exec (.orn m d a b) s = execOrn m d a b s := rfl
theorem exec_xnor (m : Bool) (d : BitVec 5) (a : BitVec 5) (b : BitVec 5) (s : State) : exec (.xnor m d a b) s = execXnor m d a b s := rfl
theorem exec_shl (m : Bool) (d : BitVec 5) (a : BitVec 5) (b : BitVec 5) (s : State) : exec (.shl m d a b) s = execShl m d a b s := rfl
theorem exec_shr (m : Bool) (d : BitVec 5) (a : BitVec 5) (b : BitVec 5) (s : State) : exec (.shr m d a b) s = execShr m d a b s := rfl
theorem exec_sra (m : Bool) (d : BitVec 5) (a : BitVec 5) (b : BitVec 5) (s : State) : exec (.sra m d a b) s = execSra m d a b s := rfl
theorem exec_rol (m : Bool) (d : BitVec 5) (a : BitVec 5) (b : BitVec 5) (s : State) : exec (.rol m d a b) s = execRol m d a b s := rfl
theorem exec_ror (m : Bool) (d : BitVec 5) (a : BitVec 5) (b : BitVec 5) (s : State) : exec (.ror m d a b) s = execRor m d a b s := rfl
theorem exec_minS (m : Bool) (d : BitVec 5) (a : BitVec 5) (b : BitVec 5) (s : State) : exec (.minS m d a b) s = execMinS m d a b s := rfl
theorem exec_minZ (m : Bool) (d : BitVec 5) (a : BitVec 5) (b : BitVec 5) (s : State) : exec (.minZ m d a b) s = execMinZ m d a b s := rfl
theorem exec_maxS (m : Bool) (d : BitVec 5) (a : BitVec 5) (b : BitVec 5) (s : State) : exec (.maxS m d a b) s = execMaxS m d a b s := rfl
theorem exec_maxZ (m : Bool) (d : BitVec 5) (a : BitVec 5) (b : BitVec 5) (s : State) : exec (.maxZ m d a b) s = execMaxZ m d a b s := rfl
theorem exec_addW (m : Bool) (d : BitVec 5) (a : BitVec 5) (b : BitVec 5) (s : State) : exec (.addW m d a b) s = execAddW m d a b s := rfl
theorem exec_subW (m : Bool) (d : BitVec 5) (a : BitVec 5) (b : BitVec 5) (s : State) : exec (.subW m d a b) s = execSubW m d a b s := rfl
theorem exec_shlW (m : Bool) (d : BitVec 5) (a : BitVec 5) (b : BitVec 5) (s : State) : exec (.shlW m d a b) s = execShlW m d a b s := rfl
theorem exec_shrW (m : Bool) (d : BitVec 5) (a : BitVec 5) (b : BitVec 5) (s : State) : exec (.shrW m d a b) s = execShrW m d a b s := rfl
theorem exec_sraW (m : Bool) (d : BitVec 5) (a : BitVec 5) (b : BitVec 5) (s : State) : exec (.sraW m d a b) s = execSraW m d a b s := rfl
theorem exec_mul (m : Bool) (d : BitVec 5) (a : BitVec 5) (b : BitVec 5) (s : State) : exec (.mul m d a b) s = execMul m d a b s := rfl
theorem exec_mulhS (m : Bool) (d : BitVec 5) (a : BitVec 5) (b : BitVec 5) (s : State) : exec (.mulhS m d a b) s = execMulhS m d a b s := rfl
theorem exec_mulhZ (m : Bool) (d : BitVec 5) (a : BitVec 5) (b : BitVec 5) (s : State) : exec (.mulhZ m d a b) s = execMulhZ m d a b s := rfl
theorem exec_mulhSz (m : Bool) (d : BitVec 5) (a : BitVec 5) (b : BitVec 5) (s : State) : exec (.mulhSz m d a b) s = execMulhSz m d a b s := rfl
theorem exec_divS (m : Bool) (d : BitVec 5) (a : BitVec 5) (b : BitVec 5) (s : State) : exec (.divS m d a b) s = execDivS m d a b s := rfl
theorem exec_divZ (m : Bool) (d : BitVec 5) (a : BitVec 5) (b : BitVec 5) (s : State) : exec (.divZ m d a b) s = execDivZ m d a b s := rfl
theorem exec_remS (m : Bool) (d : BitVec 5) (a : BitVec 5) (b : BitVec 5) (s : State) : exec (.remS m d a b) s = execRemS m d a b s := rfl
theorem exec_remZ (m : Bool) (d : BitVec 5) (a : BitVec 5) (b : BitVec 5) (s : State) : exec (.remZ m d a b) s = execRemZ m d a b s := rfl
theorem exec_mulW (m : Bool) (d : BitVec 5) (a : BitVec 5) (b : BitVec 5) (s : State) : exec (.mulW m d a b) s = execMulW m d a b s := rfl
theorem exec_clz (m : Bool) (d : BitVec 5) (a : BitVec 5) (s : State) : exec (.clz m d a) s = execClz m d a s := rfl
theorem exec_ctz (m : Bool) (d : BitVec 5) (a : BitVec 5) (s : State) : exec (.ctz m d a) s = execCtz m d a s := rfl
theorem exec_popc (m : Bool) (d : BitVec 5) (a : BitVec 5) (s : State) : exec (.popc m d a) s = execPopc m d a s := rfl
theorem exec_bswap (m : Bool) (d : BitVec 5) (a : BitVec 5) (s : State) : exec (.bswap m d a) s = execBswap m d a s := rfl
theorem exec_brev (m : Bool) (d : BitVec 5) (a : BitVec 5) (s : State) : exec (.brev m d a) s = execBrev m d a s := rfl
theorem exec_sextB (m : Bool) (d : BitVec 5) (a : BitVec 5) (s : State) : exec (.sextB m d a) s = execSextB m d a s := rfl
theorem exec_sextH (m : Bool) (d : BitVec 5) (a : BitVec 5) (s : State) : exec (.sextH m d a) s = execSextH m d a s := rfl
theorem exec_sextW (m : Bool) (d : BitVec 5) (a : BitVec 5) (s : State) : exec (.sextW m d a) s = execSextW m d a s := rfl
theorem exec_zextB (m : Bool) (d : BitVec 5) (a : BitVec 5) (s : State) : exec (.zextB m d a) s = execZextB m d a s := rfl
theorem exec_zextH (m : Bool) (d : BitVec 5) (a : BitVec 5) (s : State) : exec (.zextH m d a) s = execZextH m d a s := rfl
theorem exec_zextW (m : Bool) (d : BitVec 5) (a : BitVec 5) (s : State) : exec (.zextW m d a) s = execZextW m d a s := rfl
theorem exec_addi (m : Bool) (d : BitVec 5) (a : BitVec 5) (j_ : BitVec 14) (s : State) : exec (.addi m d a j_) s = execAddi m d a j_ s := rfl
theorem exec_andi (m : Bool) (d : BitVec 5) (a : BitVec 5) (j_ : BitVec 14) (s : State) : exec (.andi m d a j_) s = execAndi m d a j_ s := rfl
theorem exec_ori (m : Bool) (d : BitVec 5) (a : BitVec 5) (j_ : BitVec 14) (s : State) : exec (.ori m d a j_) s = execOri m d a j_ s := rfl
theorem exec_xori (m : Bool) (d : BitVec 5) (a : BitVec 5) (j_ : BitVec 14) (s : State) : exec (.xori m d a j_) s = execXori m d a j_ s := rfl
theorem exec_shli (m : Bool) (d : BitVec 5) (a : BitVec 5) (n : BitVec 6) (s : State) : exec (.shli m d a n) s = execShli m d a n s := rfl
theorem exec_shri (m : Bool) (d : BitVec 5) (a : BitVec 5) (n : BitVec 6) (s : State) : exec (.shri m d a n) s = execShri m d a n s := rfl
theorem exec_srai (m : Bool) (d : BitVec 5) (a : BitVec 5) (n : BitVec 6) (s : State) : exec (.srai m d a n) s = execSrai m d a n s := rfl
theorem exec_roli (m : Bool) (d : BitVec 5) (a : BitVec 5) (n : BitVec 6) (s : State) : exec (.roli m d a n) s = execRoli m d a n s := rfl
theorem exec_shliW (m : Bool) (d : BitVec 5) (a : BitVec 5) (n : BitVec 6) (s : State) : exec (.shliW m d a n) s = execShliW m d a n s := rfl
theorem exec_shriW (m : Bool) (d : BitVec 5) (a : BitVec 5) (n : BitVec 6) (s : State) : exec (.shriW m d a n) s = execShriW m d a n s := rfl
theorem exec_sraiW (m : Bool) (d : BitVec 5) (a : BitVec 5) (n : BitVec 6) (s : State) : exec (.sraiW m d a n) s = execSraiW m d a n s := rfl
theorem exec_lui (m : Bool) (d : BitVec 5) (j_ : BitVec 19) (s : State) : exec (.lui m d j_) s = execLui m d j_ s := rfl
theorem exec_auipc (m : Bool) (d : BitVec 5) (j_ : BitVec 19) (s : State) : exec (.auipc m d j_) s = execAuipc m d j_ s := rfl
theorem exec_lih (m : Bool) (d : BitVec 5) (j_ : BitVec 19) (s : State) : exec (.lih m d j_) s = execLih m d j_ s := rfl
theorem exec_bfxZ (m : Bool) (d : BitVec 5) (a : BitVec 5) (p : BitVec 6) (l : BitVec 6) (s : State) : exec (.bfxZ m d a p l) s = execBfxZ m d a p l s := rfl
theorem exec_bfxS (m : Bool) (d : BitVec 5) (a : BitVec 5) (p : BitVec 6) (l : BitVec 6) (s : State) : exec (.bfxS m d a p l) s = execBfxS m d a p l s := rfl
theorem exec_bfi (m : Bool) (d : BitVec 5) (a : BitVec 5) (p : BitVec 6) (l : BitVec 6) (s : State) : exec (.bfi m d a p l) s = execBfi m d a p l s := rfl
theorem exec_cmp (m : Bool) (p : BitVec 4) (a : BitVec 5) (b : BitVec 5) (c : BitVec 9) (s : State) : exec (.cmp m p a b c) s = execCmp m p a b c s := rfl
theorem exec_cmpi (m : Bool) (p : BitVec 4) (a : BitVec 5) (c : BitVec 4) (j_ : BitVec 10) (s : State) : exec (.cmpi m p a c j_) s = execCmpi m p a c j_ s := rfl
theorem exec_pand (m : Bool) (d : BitVec 4) (a : BitVec 4) (b : BitVec 4) (s : State) : exec (.pand m d a b) s = execPand m d a b s := rfl
theorem exec_por (m : Bool) (d : BitVec 4) (a : BitVec 4) (b : BitVec 4) (s : State) : exec (.por m d a b) s = execPor m d a b s := rfl
theorem exec_pxor (m : Bool) (d : BitVec 4) (a : BitVec 4) (b : BitVec 4) (s : State) : exec (.pxor m d a b) s = execPxor m d a b s := rfl
theorem exec_pandn (m : Bool) (d : BitVec 4) (a : BitVec 4) (b : BitVec 4) (s : State) : exec (.pandn m d a b) s = execPandn m d a b s := rfl
theorem exec_pnot (m : Bool) (d : BitVec 4) (a : BitVec 4) (s : State) : exec (.pnot m d a) s = execPnot m d a s := rfl
theorem exec_prd (m : Bool) (d : BitVec 5) (q : BitVec 4) (s : State) : exec (.prd m d q) s = execPrd m d q s := rfl
theorem exec_pwr (m : Bool) (a : BitVec 5) (q : BitVec 4) (s : State) : exec (.pwr m a q) s = execPwr m a q s := rfl
theorem exec_sel (m : Bool) (d : BitVec 5) (a : BitVec 5) (b : BitVec 5) (q : BitVec 4) (s : State) : exec (.sel m d a b q) s = execSel m d a b q s := rfl
theorem exec_j (m : Bool) (j_ : BitVec 24) (s : State) : exec (.j m j_) s = execJ m j_ s := rfl
theorem exec_call (m : Bool) (j_ : BitVec 24) (s : State) : exec (.call m j_) s = execCall m j_ s := rfl
theorem exec_bp (m : Bool) (p : BitVec 4) (j_ : BitVec 19) (s : State) : exec (.bp m p j_) s = execBp m p j_ s := rfl
theorem exec_bnp (m : Bool) (p : BitVec 4) (j_ : BitVec 19) (s : State) : exec (.bnp m p j_) s = execBnp m p j_ s := rfl
theorem exec_jr (m : Bool) (a : BitVec 5) (s : State) : exec (.jr m a) s = execJr m a s := rfl
theorem exec_callr (m : Bool) (a : BitVec 5) (s : State) : exec (.callr m a) s = execCallr m a s := rfl
theorem exec_ret (m : Bool) (s : State) : exec (.ret m) s = execRet m s := rfl
theorem exec_bz (m : Bool) (oLo : BitVec 5) (a : BitVec 5) (o : BitVec 14) (s : State) : exec (.bz m oLo a o) s = execBz m oLo a o s := rfl
theorem exec_bnz (m : Bool) (oLo : BitVec 5) (a : BitVec 5) (o : BitVec 14) (s : State) : exec (.bnz m oLo a o) s = execBnz m oLo a o s := rfl
theorem exec_nop (m : Bool) (s : State) : exec (.nop m) s = execNop m s := rfl
theorem exec_yield (m : Bool) (s : State) : exec (.yield m) s = execYield m s := rfl
theorem exec_exit (m : Bool) (s : State) : exec (.exit m) s = execExit m s := rfl
theorem exec_sleep (m : Bool) (a : BitVec 5) (s : State) : exec (.sleep m a) s = execSleep m a s := rfl
theorem exec_cMv (m : Bool) (a : BitVec 5) (b : BitVec 5) (s : State) : exec (.cMv m a b) s = execCMv m a b s := rfl
theorem exec_cAdd (m : Bool) (a : BitVec 5) (b : BitVec 5) (s : State) : exec (.cAdd m a b) s = execCAdd m a b s := rfl
theorem exec_cSub (m : Bool) (a : BitVec 5) (b : BitVec 5) (s : State) : exec (.cSub m a b) s = execCSub m a b s := rfl
theorem exec_cAnd (m : Bool) (a : BitVec 5) (b : BitVec 5) (s : State) : exec (.cAnd m a b) s = execCAnd m a b s := rfl
theorem exec_cOr (m : Bool) (a : BitVec 5) (b : BitVec 5) (s : State) : exec (.cOr m a b) s = execCOr m a b s := rfl
theorem exec_cXor (m : Bool) (a : BitVec 5) (b : BitVec 5) (s : State) : exec (.cXor m a b) s = execCXor m a b s := rfl
theorem exec_cShli (m : Bool) (a : BitVec 5) (n : BitVec 5) (s : State) : exec (.cShli m a n) s = execCShli m a n s := rfl
theorem exec_cShri (m : Bool) (a : BitVec 5) (n : BitVec 5) (s : State) : exec (.cShri m a n) s = execCShri m a n s := rfl
theorem exec_cSrai (m : Bool) (a : BitVec 5) (n : BitVec 5) (s : State) : exec (.cSrai m a n) s = execCSrai m a n s := rfl
theorem exec_cAddi (m : Bool) (a : BitVec 5) (n : BitVec 5) (s : State) : exec (.cAddi m a n) s = execCAddi m a n s := rfl
theorem exec_cLi (m : Bool) (a : BitVec 5) (n : BitVec 5) (s : State) : exec (.cLi m a n) s = execCLi m a n s := rfl
theorem exec_cLd (m : Bool) (a : BitVec 5) (b : BitVec 5) (s : State) : exec (.cLd m a b) s = execCLd m a b s := rfl
theorem exec_cSt (m : Bool) (a : BitVec 5) (b : BitVec 5) (s : State) : exec (.cSt m a b) s = execCSt m a b s := rfl
theorem exec_cCmpeq (m : Bool) (a : BitVec 5) (b : BitVec 5) (s : State) : exec (.cCmpeq m a b) s = execCCmpeq m a b s := rfl
theorem exec_cCmplt (m : Bool) (a : BitVec 5) (b : BitVec 5) (s : State) : exec (.cCmplt m a b) s = execCCmplt m a b s := rfl
theorem exec_cBp1 (m : Bool) (o : BitVec 10) (s : State) : exec (.cBp1 m o) s = execCBp1 m o s := rfl
theorem exec_ld (m : Bool) (d : BitVec 5) (a : BitVec 5) (f : BitVec 3) (j_ : BitVec 11) (s : State) : exec (.ld m d a f j_) s = execLd m d a f j_ s := rfl
theorem exec_ldr (m : Bool) (d : BitVec 5) (a : BitVec 5) (f : BitVec 3) (j_ : BitVec 11) (s : State) : exec (.ldr m d a f j_) s = execLdr m d a f j_ s := rfl
theorem exec_st (m : Bool) (d : BitVec 5) (a : BitVec 5) (f : BitVec 3) (j_ : BitVec 11) (s : State) : exec (.st m d a f j_) s = execSt m d a f j_ s := rfl
theorem exec_str (m : Bool) (d : BitVec 5) (a : BitVec 5) (f : BitVec 3) (j_ : BitVec 11) (s : State) : exec (.str m d a f j_) s = execStr m d a f j_ s := rfl
theorem exec_ldfe (m : Bool) (d : BitVec 5) (a : BitVec 5) (j_ : BitVec 11) (s : State) : exec (.ldfe m d a j_) s = execLdfe m d a j_ s := rfl
theorem exec_ldff (m : Bool) (d : BitVec 5) (a : BitVec 5) (j_ : BitVec 11) (s : State) : exec (.ldff m d a j_) s = execLdff m d a j_ s := rfl
theorem exec_stef (m : Bool) (d : BitVec 5) (a : BitVec 5) (j_ : BitVec 11) (s : State) : exec (.stef m d a j_) s = execStef m d a j_ s := rfl
theorem exec_stff (m : Bool) (d : BitVec 5) (a : BitVec 5) (j_ : BitVec 11) (s : State) : exec (.stff m d a j_) s = execStff m d a j_ s := rfl
theorem exec_feprobe (m : Bool) (d : BitVec 5) (a : BitVec 5) (j_ : BitVec 11) (s : State) : exec (.feprobe m d a j_) s = execFeprobe m d a j_ s := rfl
theorem exec_feset (m : Bool) (d : BitVec 5) (a : BitVec 5) (j_ : BitVec 11) (s : State) : exec (.feset m d a j_) s = execFeset m d a j_ s := rfl
theorem exec_migrate (m : Bool) (a : BitVec 5) (j_ : BitVec 11) (s : State) : exec (.migrate m a j_) s = execMigrate m a j_ s := rfl
theorem exec_pin (m : Bool) (s : State) : exec (.pin m) s = execPin m s := rfl
theorem exec_unpin (m : Bool) (s : State) : exec (.unpin m) s = execUnpin m s := rfl
theorem exec_home (m : Bool) (s : State) : exec (.home m) s = execHome m s := rfl
theorem exec_here (m : Bool) (d : BitVec 5) (s : State) : exec (.here m d) s = execHere m d s := rfl
theorem exec_ramo (m : Bool) (a : BitVec 5) (b : BitVec 5) (p : BitVec 4) (z : BitVec 2) (o : BitVec 3) (s : State) : exec (.ramo m a b p z o) s = execRamo m a b p z o s := rfl
theorem exec_amo (m : Bool) (d : BitVec 5) (a : BitVec 5) (b : BitVec 5) (p : BitVec 4) (z : BitVec 2) (o : BitVec 3) (s : State) : exec (.amo m d a b p z o) s = execAmo m d a b p z o s := rfl
theorem exec_cas (m : Bool) (d : BitVec 5) (a : BitVec 5) (b : BitVec 5) (c : BitVec 5) (z : BitVec 1) (o : BitVec 2) (s : State) : exec (.cas m d a b c z o) s = execCas m d a b c z o s := rfl
theorem exec_fence (m : Bool) (q_ : BitVec 3) (k : BitVec 3) (s : State) : exec (.fence m q_ k) s = execFence m q_ k s := rfl
theorem exec_barInit (m : Bool) (a : BitVec 5) (b : BitVec 5) (s : State) : exec (.barInit m a b) s = execBarInit m a b s := rfl
theorem exec_barArr (m : Bool) (d : BitVec 5) (a : BitVec 5) (b : BitVec 5) (s : State) : exec (.barArr m d a b) s = execBarArr m d a b s := rfl
theorem exec_barWait (m : Bool) (d : BitVec 5) (a : BitVec 5) (b : BitVec 5) (s : State) : exec (.barWait m d a b) s = execBarWait m d a b s := rfl
theorem exec_barArrw (m : Bool) (d : BitVec 5) (a : BitVec 5) (b : BitVec 5) (s : State) : exec (.barArrw m d a b) s = execBarArrw m d a b s := rfl
theorem exec_barCmb (m : Bool) (d : BitVec 5) (a : BitVec 5) (b : BitVec 5) (s : State) : exec (.barCmb m d a b) s = execBarCmb m d a b s := rfl
theorem exec_barCmbw (m : Bool) (d : BitVec 5) (a : BitVec 5) (b : BitVec 5) (s : State) : exec (.barCmbw m d a b) s = execBarCmbw m d a b s := rfl
theorem exec_hbar (m : Bool) (l : BitVec 3) (s : State) : exec (.hbar m l) s = execHbar m l s := rfl
theorem exec_hbarCmb (m : Bool) (d : BitVec 5) (a : BitVec 5) (l : BitVec 3) (o : BitVec 3) (s : State) : exec (.hbarCmb m d a l o) s = execHbarCmb m d a l o s := rfl
theorem exec_time (m : Bool) (d : BitVec 5) (s : State) : exec (.time m d) s = execTime m d s := rfl
theorem exec_waitt (m : Bool) (a : BitVec 5) (s : State) : exec (.waitt m a) s = execWaitt m a s := rfl
theorem exec_cycle (m : Bool) (d : BitVec 5) (s : State) : exec (.cycle m d) s = execCycle m d s := rfl
theorem exec_fadd (m : Bool) (d : BitVec 5) (a : BitVec 5) (b : BitVec 5) (f : BitVec 2) (r : BitVec 3) (s : State) : exec (.fadd m d a b f r) s = execFadd m d a b f r s := rfl
theorem exec_fsub (m : Bool) (d : BitVec 5) (a : BitVec 5) (b : BitVec 5) (f : BitVec 2) (r : BitVec 3) (s : State) : exec (.fsub m d a b f r) s = execFsub m d a b f r s := rfl
theorem exec_fmul (m : Bool) (d : BitVec 5) (a : BitVec 5) (b : BitVec 5) (f : BitVec 2) (r : BitVec 3) (s : State) : exec (.fmul m d a b f r) s = execFmul m d a b f r s := rfl
theorem exec_fdiv (m : Bool) (d : BitVec 5) (a : BitVec 5) (b : BitVec 5) (f : BitVec 2) (r : BitVec 3) (s : State) : exec (.fdiv m d a b f r) s = execFdiv m d a b f r s := rfl
theorem exec_fsqrt (m : Bool) (d : BitVec 5) (a : BitVec 5) (f : BitVec 2) (r : BitVec 3) (s : State) : exec (.fsqrt m d a f r) s = execFsqrt m d a f r s := rfl
theorem exec_fmin (m : Bool) (d : BitVec 5) (a : BitVec 5) (b : BitVec 5) (f : BitVec 2) (s : State) : exec (.fmin m d a b f) s = execFmin m d a b f s := rfl
theorem exec_fmax (m : Bool) (d : BitVec 5) (a : BitVec 5) (b : BitVec 5) (f : BitVec 2) (s : State) : exec (.fmax m d a b f) s = execFmax m d a b f s := rfl
theorem exec_fsgnj (m : Bool) (d : BitVec 5) (a : BitVec 5) (b : BitVec 5) (f : BitVec 2) (s : State) : exec (.fsgnj m d a b f) s = execFsgnj m d a b f s := rfl
theorem exec_fsgnjn (m : Bool) (d : BitVec 5) (a : BitVec 5) (b : BitVec 5) (f : BitVec 2) (s : State) : exec (.fsgnjn m d a b f) s = execFsgnjn m d a b f s := rfl
theorem exec_fsgnjx (m : Bool) (d : BitVec 5) (a : BitVec 5) (b : BitVec 5) (f : BitVec 2) (s : State) : exec (.fsgnjx m d a b f) s = execFsgnjx m d a b f s := rfl
theorem exec_fclass (m : Bool) (d : BitVec 5) (a : BitVec 5) (f : BitVec 2) (s : State) : exec (.fclass m d a f) s = execFclass m d a f s := rfl
theorem exec_fma (m : Bool) (d : BitVec 5) (a : BitVec 5) (b : BitVec 5) (c : BitVec 5) (f : BitVec 2) (s : State) : exec (.fma m d a b c f) s = execFma m d a b c f s := rfl
theorem exec_fms (m : Bool) (d : BitVec 5) (a : BitVec 5) (b : BitVec 5) (c : BitVec 5) (f : BitVec 2) (s : State) : exec (.fms m d a b c f) s = execFms m d a b c f s := rfl
theorem exec_fnma (m : Bool) (d : BitVec 5) (a : BitVec 5) (b : BitVec 5) (c : BitVec 5) (f : BitVec 2) (s : State) : exec (.fnma m d a b c f) s = execFnma m d a b c f s := rfl
theorem exec_fnms (m : Bool) (d : BitVec 5) (a : BitVec 5) (b : BitVec 5) (c : BitVec 5) (f : BitVec 2) (s : State) : exec (.fnms m d a b c f) s = execFnms m d a b c f s := rfl
theorem exec_fcmp (m : Bool) (p : BitVec 4) (a : BitVec 5) (b : BitVec 5) (c : BitVec 4) (f : BitVec 2) (s : State) : exec (.fcmp m p a b c f) s = execFcmp m p a b c f s := rfl
theorem exec_fcvt (m : Bool) (d : BitVec 5) (a : BitVec 5) (f : BitVec 4) (o : BitVec 4) (r : BitVec 3) (u : BitVec 1) (s : State) : exec (.fcvt m d a f o r u) s = execFcvt m d a f o r u s := rfl
theorem exec_vadd (m : Bool) (d : BitVec 3) (k : BitVec 2) (a : BitVec 3) (b : BitVec 3) (t : BitVec 4) (s : State) : exec (.vadd m d k a b t) s = execVadd m d k a b t s := rfl
theorem exec_vsub (m : Bool) (d : BitVec 3) (k : BitVec 2) (a : BitVec 3) (b : BitVec 3) (t : BitVec 4) (s : State) : exec (.vsub m d k a b t) s = execVsub m d k a b t s := rfl
theorem exec_vmul (m : Bool) (d : BitVec 3) (k : BitVec 2) (a : BitVec 3) (b : BitVec 3) (t : BitVec 4) (s : State) : exec (.vmul m d k a b t) s = execVmul m d k a b t s := rfl
theorem exec_vmulh (m : Bool) (d : BitVec 3) (k : BitVec 2) (a : BitVec 3) (b : BitVec 3) (t : BitVec 4) (s : State) : exec (.vmulh m d k a b t) s = execVmulh m d k a b t s := rfl
theorem exec_vmin (m : Bool) (d : BitVec 3) (k : BitVec 2) (a : BitVec 3) (b : BitVec 3) (t : BitVec 4) (s : State) : exec (.vmin m d k a b t) s = execVmin m d k a b t s := rfl
theorem exec_vmax (m : Bool) (d : BitVec 3) (k : BitVec 2) (a : BitVec 3) (b : BitVec 3) (t : BitVec 4) (s : State) : exec (.vmax m d k a b t) s = execVmax m d k a b t s := rfl
theorem exec_vand (m : Bool) (d : BitVec 3) (k : BitVec 2) (a : BitVec 3) (b : BitVec 3) (t : BitVec 4) (s : State) : exec (.vand m d k a b t) s = execVand m d k a b t s := rfl
theorem exec_vor (m : Bool) (d : BitVec 3) (k : BitVec 2) (a : BitVec 3) (b : BitVec 3) (t : BitVec 4) (s : State) : exec (.vor m d k a b t) s = execVor m d k a b t s := rfl
theorem exec_vxor (m : Bool) (d : BitVec 3) (k : BitVec 2) (a : BitVec 3) (b : BitVec 3) (t : BitVec 4) (s : State) : exec (.vxor m d k a b t) s = execVxor m d k a b t s := rfl
theorem exec_vshl (m : Bool) (d : BitVec 3) (k : BitVec 2) (a : BitVec 3) (b : BitVec 3) (t : BitVec 4) (s : State) : exec (.vshl m d k a b t) s = execVshl m d k a b t s := rfl
theorem exec_vshr (m : Bool) (d : BitVec 3) (k : BitVec 2) (a : BitVec 3) (b : BitVec 3) (t : BitVec 4) (s : State) : exec (.vshr m d k a b t) s = execVshr m d k a b t s := rfl
theorem exec_vsra (m : Bool) (d : BitVec 3) (k : BitVec 2) (a : BitVec 3) (b : BitVec 3) (t : BitVec 4) (s : State) : exec (.vsra m d k a b t) s = execVsra m d k a b t s := rfl
theorem exec_vabs (m : Bool) (d : BitVec 3) (k : BitVec 2) (a : BitVec 3) (t : BitVec 4) (s : State) : exec (.vabs m d k a t) s = execVabs m d k a t s := rfl
theorem exec_vneg (m : Bool) (d : BitVec 3) (k : BitVec 2) (a : BitVec 3) (t : BitVec 4) (s : State) : exec (.vneg m d k a t) s = execVneg m d k a t s := rfl
theorem exec_vfma (m : Bool) (d : BitVec 3) (k : BitVec 2) (a : BitVec 3) (b : BitVec 3) (t : BitVec 4) (s : State) : exec (.vfma m d k a b t) s = execVfma m d k a b t s := rfl
theorem exec_vfms (m : Bool) (d : BitVec 3) (k : BitVec 2) (a : BitVec 3) (b : BitVec 3) (t : BitVec 4) (s : State) : exec (.vfms m d k a b t) s = execVfms m d k a b t s := rfl
theorem exec_vfnma (m : Bool) (d : BitVec 3) (k : BitVec 2) (a : BitVec 3) (b : BitVec 3) (t : BitVec 4) (s : State) : exec (.vfnma m d k a b t) s = execVfnma m d k a b t s := rfl
theorem exec_vcmp (m : Bool) (d : BitVec 3) (k : BitVec 2) (a : BitVec 3) (b : BitVec 3) (t : BitVec 4) (c : BitVec 5) (s : State) : exec (.vcmp m d k a b t c) s = execVcmp m d k a b t c s := rfl
theorem exec_vsel (m : Bool) (d : BitVec 3) (k : BitVec 2) (a : BitVec 3) (b : BitVec 3) (t : BitVec 4) (s : State) : exec (.vsel m d k a b t) s = execVsel m d k a b t s := rfl
theorem exec_vperm (m : Bool) (d : BitVec 3) (k : BitVec 2) (a : BitVec 3) (b : BitVec 3) (t : BitVec 4) (s : State) : exec (.vperm m d k a b t) s = execVperm m d k a b t s := rfl
theorem exec_vbcast (m : Bool) (v : BitVec 3) (k : BitVec 2) (g : BitVec 5) (t : BitVec 4) (s : State) : exec (.vbcast m v k g t) s = execVbcast m v k g t s := rfl
theorem exec_vext (m : Bool) (v : BitVec 3) (g : BitVec 5) (h : BitVec 5) (t : BitVec 4) (s : State) : exec (.vext m v g h t) s = execVext m v g h t s := rfl
theorem exec_vins (m : Bool) (v : BitVec 3) (g : BitVec 5) (h : BitVec 5) (t : BitVec 4) (s : State) : exec (.vins m v g h t) s = execVins m v g h t s := rfl
theorem exec_viota (m : Bool) (d : BitVec 3) (k : BitVec 2) (t : BitVec 4) (s : State) : exec (.viota m d k t) s = execViota m d k t s := rfl
theorem exec_vrsum (m : Bool) (v : BitVec 3) (k : BitVec 2) (g : BitVec 5) (t : BitVec 4) (s : State) : exec (.vrsum m v k g t) s = execVrsum m v k g t s := rfl
theorem exec_vrmax (m : Bool) (v : BitVec 3) (k : BitVec 2) (g : BitVec 5) (t : BitVec 4) (s : State) : exec (.vrmax m v k g t) s = execVrmax m v k g t s := rfl
theorem exec_vrmin (m : Bool) (v : BitVec 3) (k : BitVec 2) (g : BitVec 5) (t : BitVec 4) (s : State) : exec (.vrmin m v k g t) s = execVrmin m v k g t s := rfl
theorem exec_vrmaxabs (m : Bool) (v : BitVec 3) (k : BitVec 2) (g : BitVec 5) (t : BitVec 4) (s : State) : exec (.vrmaxabs m v k g t) s = execVrmaxabs m v k g t s := rfl
theorem exec_vcvt (m : Bool) (d : BitVec 3) (k : BitVec 2) (a : BitVec 3) (o : BitVec 4) (f : BitVec 4) (s : State) : exec (.vcvt m d k a o f) s = execVcvt m d k a o f s := rfl
theorem exec_vquant (m : Bool) (v : BitVec 3) (k : BitVec 2) (g : BitVec 5) (r : BitVec 3) (u : BitVec 1) (t : BitVec 4) (s : State) : exec (.vquant m v k g r u t) s = execVquant m v k g r u t s := rfl
theorem exec_vdeq (m : Bool) (v : BitVec 3) (k : BitVec 2) (g : BitVec 5) (t : BitVec 4) (s : State) : exec (.vdeq m v k g t) s = execVdeq m v k g t s := rfl
theorem exec_vdot (m : Bool) (d : BitVec 3) (k : BitVec 2) (a : BitVec 3) (b : BitVec 3) (t : BitVec 4) (s : State) : exec (.vdot m d k a b t) s = execVdot m d k a b t s := rfl
theorem exec_vdots (m : Bool) (d : BitVec 3) (k : BitVec 2) (a : BitVec 3) (b : BitVec 3) (t : BitVec 4) (s : State) : exec (.vdots m d k a b t) s = execVdots m d k a b t s := rfl
theorem exec_vld (m : Bool) (v : BitVec 3) (k : BitVec 2) (g : BitVec 5) (j_ : BitVec 5) (s : State) : exec (.vld m v k g j_) s = execVld m v k g j_ s := rfl
theorem exec_vst (m : Bool) (v : BitVec 3) (k : BitVec 2) (g : BitVec 5) (j_ : BitVec 5) (s : State) : exec (.vst m v k g j_) s = execVst m v k g j_ s := rfl
theorem exec_vlds (m : Bool) (v : BitVec 3) (k : BitVec 2) (g : BitVec 5) (h : BitVec 5) (t : BitVec 4) (s : State) : exec (.vlds m v k g h t) s = execVlds m v k g h t s := rfl
theorem exec_vsts (m : Bool) (v : BitVec 3) (k : BitVec 2) (g : BitVec 5) (h : BitVec 5) (t : BitVec 4) (s : State) : exec (.vsts m v k g h t) s = execVsts m v k g h t s := rfl
theorem exec_vgth (m : Bool) (v : BitVec 3) (k : BitVec 2) (g : BitVec 5) (x : BitVec 3) (t : BitVec 4) (s : State) : exec (.vgth m v k g x t) s = execVgth m v k g x t s := rfl
theorem exec_vsct (m : Bool) (v : BitVec 3) (k : BitVec 2) (g : BitVec 5) (x : BitVec 3) (t : BitVec 4) (s : State) : exec (.vsct m v k g x t) s = execVsct m v k g x t s := rfl
theorem exec_kand (m : Bool) (d : BitVec 3) (a : BitVec 3) (b : BitVec 3) (s : State) : exec (.kand m d a b) s = execKand m d a b s := rfl
theorem exec_kor (m : Bool) (d : BitVec 3) (a : BitVec 3) (b : BitVec 3) (s : State) : exec (.kor m d a b) s = execKor m d a b s := rfl
theorem exec_kxor (m : Bool) (d : BitVec 3) (a : BitVec 3) (b : BitVec 3) (s : State) : exec (.kxor m d a b) s = execKxor m d a b s := rfl
theorem exec_knot (m : Bool) (d : BitVec 3) (a : BitVec 3) (s : State) : exec (.knot m d a) s = execKnot m d a s := rfl
theorem exec_kmovGk (m : Bool) (v : BitVec 3) (g : BitVec 5) (s : State) : exec (.kmovGk m v g) s = execKmovGk m v g s := rfl
theorem exec_kmovKg (m : Bool) (v : BitVec 3) (g : BitVec 5) (s : State) : exec (.kmovKg m v g) s = execKmovKg m v g s := rfl
theorem exec_kpop (m : Bool) (v : BitVec 3) (g : BitVec 5) (s : State) : exec (.kpop m v g) s = execKpop m v g s := rfl
theorem exec_ktest (m : Bool) (v : BitVec 3) (k : BitVec 2) (g : BitVec 5) (s : State) : exec (.ktest m v k g) s = execKtest m v k g s := rfl
theorem exec_vfree (m : Bool) (d : BitVec 3) (s : State) : exec (.vfree m d) s = execVfree m d s := rfl
theorem exec_vmov (m : Bool) (d : BitVec 3) (k : BitVec 2) (a : BitVec 3) (s : State) : exec (.vmov m d k a) s = execVmov m d k a s := rfl
theorem exec_mlease (m : Bool) (s : State) : exec (.mlease m) s = execMlease m s := rfl
theorem exec_mtryl (m : Bool) (d : BitVec 5) (s : State) : exec (.mtryl m d) s = execMtryl m d s := rfl
theorem exec_mrel (m : Bool) (a : BitVec 5) (s : State) : exec (.mrel m a) s = execMrel m a s := rfl
theorem exec_missue (m : Bool) (d : BitVec 5) (a : BitVec 5) (s : State) : exec (.missue m d a) s = execMissue m d a s := rfl
theorem exec_mwait (m : Bool) (d : BitVec 5) (a : BitVec 5) (s : State) : exec (.mwait m d a) s = execMwait m d a s := rfl
theorem exec_mseq (m : Bool) (d : BitVec 5) (a : BitVec 5) (s : State) : exec (.mseq m d a) s = execMseq m d a s := rfl
theorem exec_maccv (m : Bool) (v : BitVec 3) (a : BitVec 5) (s : State) : exec (.maccv m v a) s = execMaccv m v a s := rfl
theorem exec_maccw (m : Bool) (v : BitVec 3) (a : BitVec 5) (s : State) : exec (.maccw m v a) s = execMaccw m v a s := rfl
theorem exec_spawn (m : Bool) (d : BitVec 5) (b : BitVec 5) (c : BitVec 5) (s : State) : exec (.spawn m d b c) s = execSpawn m d b c s := rfl
theorem exec_spawnat (m : Bool) (d : BitVec 5) (b : BitVec 5) (c : BitVec 5) (s : State) : exec (.spawnat m d b c) s = execSpawnat m d b c s := rfl
theorem exec_spawnany (m : Bool) (d : BitVec 5) (b : BitVec 5) (c : BitVec 5) (s : State) : exec (.spawnany m d b c) s = execSpawnany m d b c s := rfl
theorem exec_tid (m : Bool) (d : BitVec 5) (s : State) : exec (.tid m d) s = execTid m d s := rfl
theorem exec_prio (m : Bool) (a : BitVec 5) (s : State) : exec (.prio m a) s = execPrio m a s := rfl
theorem exec_qsend (m : Bool) (g : BitVec 5) (h : BitVec 5) (s : State) : exec (.qsend m g h) s = execQsend m g h s := rfl
theorem exec_qrecv (m : Bool) (g : BitVec 5) (h : BitVec 5) (c : BitVec 5) (s : State) : exec (.qrecv m g h c) s = execQrecv m g h c s := rfl
theorem exec_qeos (m : Bool) (h : BitVec 5) (s : State) : exec (.qeos m h) s = execQeos m h s := rfl
theorem exec_qstat (m : Bool) (d : BitVec 5) (h : BitVec 5) (s : State) : exec (.qstat m d h) s = execQstat m d h s := rfl
theorem exec_dsend (m : Bool) (g : BitVec 5) (h : BitVec 5) (s : State) : exec (.dsend m g h) s = execDsend m g h s := rfl
theorem exec_drecv (m : Bool) (g : BitVec 5) (h : BitVec 5) (c : BitVec 5) (s : State) : exec (.drecv m g h c) s = execDrecv m g h c s := rfl
theorem exec_dseal (m : Bool) (h : BitVec 5) (c : BitVec 5) (s : State) : exec (.dseal m h c) s = execDseal m h c s := rfl
theorem exec_dquiet (m : Bool) (d : BitVec 5) (h : BitVec 5) (s : State) : exec (.dquiet m d h) s = execDquiet m d h s := rfl
theorem exec_xupd (m : Bool) (d : BitVec 5) (h : BitVec 5) (c : BitVec 5) (s : State) : exec (.xupd m d h c) s = execXupd m d h c s := rfl
theorem exec_xscan (m : Bool) (g : BitVec 5) (h : BitVec 5) (s : State) : exec (.xscan m g h) s = execXscan m g h s := rfl
theorem exec_xcnt (m : Bool) (d : BitVec 5) (h : BitVec 5) (c : BitVec 5) (s : State) : exec (.xcnt m d h c) s = execXcnt m d h c s := rfl
theorem exec_cpy (m : Bool) (a : BitVec 5) (b : BitVec 5) (c : BitVec 5) (l : BitVec 5) (s : State) : exec (.cpy m a b c l) s = execCpy m a b c l s := rfl
theorem exec_cpy2d (m : Bool) (a : BitVec 5) (b : BitVec 5) (s : State) : exec (.cpy2d m a b) s = execCpy2d m a b s := rfl
theorem exec_awinit (m : Bool) (d : BitVec 5) (b : BitVec 5) (c : BitVec 5) (s : State) : exec (.awinit m d b c) s = execAwinit m d b c s := rfl
theorem exec_awwait (m : Bool) (d : BitVec 5) (b : BitVec 5) (c : BitVec 5) (s : State) : exec (.awwait m d b c) s = execAwwait m d b c s := rfl
theorem exec_scstart (m : Bool) (d : BitVec 5) (b : BitVec 5) (c : BitVec 5) (s : State) : exec (.scstart m d b c) s = execScstart m d b c s := rfl
theorem exec_scmail (m : Bool) (d : BitVec 5) (b : BitVec 5) (c : BitVec 5) (s : State) : exec (.scmail m d b c) s = execScmail m d b c s := rfl
theorem exec_scwait (m : Bool) (d : BitVec 5) (c : BitVec 5) (s : State) : exec (.scwait m d c) s = execScwait m d c s := rfl
theorem exec_sysr (m : Bool) (d : BitVec 5) (j_ : BitVec 11) (s : State) : exec (.sysr m d j_) s = execSysr m d j_ s := rfl
theorem exec_sysw (m : Bool) (a : BitVec 5) (j_ : BitVec 11) (s : State) : exec (.sysw m a j_) s = execSysw m a j_ s := rfl
theorem exec_trap (m : Bool) (j_ : BitVec 11) (s : State) : exec (.trap m j_) s = execTrap m j_ s := rfl
theorem exec_syscall (m : Bool) (s : State) : exec (.syscall m) s = execSyscall m s := rfl
theorem exec_eret (m : Bool) (s : State) : exec (.eret m) s = execEret m s := rfl
theorem exec_brk (m : Bool) (s : State) : exec (.brk m) s = execBrk m s := rfl
theorem exec_wake (m : Bool) (a : BitVec 5) (b : BitVec 5) (s : State) : exec (.wake m a b) s = execWake m a b s := rfl
theorem exec_inval (m : Bool) (b : BitVec 5) (s : State) : exec (.inval m b) s = execInval m b s := rfl
theorem exec_segld (m : Bool) (b : BitVec 5) (s : State) : exec (.segld m b) s = execSegld m b s := rfl
theorem exec_bkRd (d : BitVec 5) (a : BitVec 5) (s : State) : exec (.bkRd d a) s = execBkRd d a s := rfl
theorem exec_bkWr (a : BitVec 5) (b : BitVec 5) (s : State) : exec (.bkWr a b) s = execBkWr a b s := rfl
theorem exec_bkGet (d : BitVec 5) (a : BitVec 5) (b : BitVec 5) (c : BitVec 5) (s : State) : exec (.bkGet d a b c) s = execBkGet d a b c s := rfl
theorem exec_bkPut (d : BitVec 5) (a : BitVec 5) (b : BitVec 5) (c : BitVec 5) (s : State) : exec (.bkPut d a b c) s = execBkPut d a b c s := rfl
theorem exec_bkWait (d : BitVec 5) (a : BitVec 5) (b : BitVec 5) (s : State) : exec (.bkWait d a b) s = execBkWait d a b s := rfl
theorem exec_bkSig (a : BitVec 5) (b : BitVec 5) (s : State) : exec (.bkSig a b) s = execBkSig a b s := rfl
theorem exec_bookendBaseInstruction (w : BitVec 32) (s : State) : exec (.bookendBaseInstruction w) s = execBookendBaseInstruction w s := rfl
theorem exec_longResultReturn (t : Nat) (c : Nat) (k : Nat) (n : Nat) (s : State) : exec (.longResultReturn t c k n) s = execLongResultReturn t c k n s := rfl
theorem exec_normaliserServiceEnd (t : Nat) (s : State) : exec (.normaliserServiceEnd t) s = execNormaliserServiceEnd t s := rfl
theorem exec_sleepDeadline (t : Nat) (c : Nat) (k : Nat) (s : State) : exec (.sleepDeadline t c k) s = execSleepDeadline t c k s := rfl
theorem exec_vectorBind (t : Nat) (s : State) : exec (.vectorBind t) s = execVectorBind t s := rfl
theorem exec_storeBufferDrain (t : Nat) (c : Nat) (bad : Bool) (s : State) : exec (.storeBufferDrain t c bad) s = execStoreBufferDrain t c bad s := rfl
theorem exec_migrationCommit (t : Nat) (c : Nat) (k : Nat) (s : State) : exec (.migrationCommit t c k) s = execMigrationCommit t c k s := rfl
theorem exec_departureConvert (t : Nat) (c : Nat) (k : Nat) (s : State) : exec (.departureConvert t c k) s = execDepartureConvert t c k s := rfl
theorem exec_hutchAdmit (n : Nat) (s : State) : exec (.hutchAdmit n) s = execHutchAdmit n s := rfl
theorem exec_hutchDispatch (t : Nat) (s : State) : exec (.hutchDispatch t) s = execHutchDispatch t s := rfl
theorem exec_contextLoadDone (t : Nat) (c : Nat) (k : Nat) (s : State) : exec (.contextLoadDone t c k) s = execContextLoadDone t c k s := rfl
theorem exec_idleDonationRequest (t : Nat) (s : State) : exec (.idleDonationRequest t) s = execIdleDonationRequest t s := rfl
theorem exec_donationShip (n : Nat) (s : State) : exec (.donationShip n) s = execDonationShip n s := rfl
theorem exec_parkMove (t : Nat) (c : Nat) (k : Nat) (s : State) : exec (.parkMove t c k) s = execParkMove t c k s := rfl
theorem exec_wakeMessage (n : Nat) (s : State) : exec (.wakeMessage n) s = execWakeMessage n s := rfl
theorem exec_retireNote (n : Nat) (s : State) : exec (.retireNote n) s = execRetireNote n s := rfl
theorem exec_quotaIncrement (n : Nat) (s : State) : exec (.quotaIncrement n) s = execQuotaIncrement n s := rfl
theorem exec_quotaDecrement (n : Nat) (s : State) : exec (.quotaDecrement n) s = execQuotaDecrement n s := rfl
theorem exec_remoteRequest (n : Nat) (s : State) : exec (.remoteRequest n) s = execRemoteRequest n s := rfl
theorem exec_remoteResponse (n : Nat) (s : State) : exec (.remoteResponse n) s = execRemoteResponse n s := rfl
theorem exec_postedOp (n : Nat) (s : State) : exec (.postedOp n) s = execPostedOp n s := rfl
theorem exec_postedAck (n : Nat) (s : State) : exec (.postedAck n) s = execPostedAck n s := rfl
theorem exec_waiterRetry (t : Nat) (c : Nat) (k : Nat) (s : State) : exec (.waiterRetry t c k) s = execWaiterRetry t c k s := rfl
theorem exec_feBudgetExpire (t : Nat) (c : Nat) (k : Nat) (s : State) : exec (.feBudgetExpire t c k) s = execFeBudgetExpire t c k s := rfl
theorem exec_feWithdrawAck (n : Nat) (s : State) : exec (.feWithdrawAck n) s = execFeWithdrawAck n s := rfl
theorem exec_barWaitTimeout (t : Nat) (c : Nat) (k : Nat) (s : State) : exec (.barWaitTimeout t c k) s = execBarWaitTimeout t c k s := rfl
theorem exec_hbarTreeArrive (n : Nat) (s : State) : exec (.hbarTreeArrive n) s = execHbarTreeArrive n s := rfl
theorem exec_hbarTreeRelease (n : Nat) (s : State) : exec (.hbarTreeRelease n) s = execHbarTreeRelease n s := rfl
theorem exec_hbarTimeout (t : Nat) (c : Nat) (k : Nat) (s : State) : exec (.hbarTimeout t c k) s = execHbarTimeout t c k s := rfl
theorem exec_queueRecordAppend (n : Nat) (s : State) : exec (.queueRecordAppend n) s = execQueueRecordAppend n s := rfl
theorem exec_resendRetry (t : Nat) (s : State) : exec (.resendRetry t) s = execResendRetry t s := rfl
theorem exec_dresserRecordApply (n : Nat) (s : State) : exec (.dresserRecordApply n) s = execDresserRecordApply n s := rfl
theorem exec_dresserNote (n : Nat) (s : State) : exec (.dresserNote n) s = execDresserNote n s := rfl
theorem exec_bandPass (t : Nat) (q : Nat) (s : State) : exec (.bandPass t q) s = execBandPass t q s := rfl
theorem exec_trestleCommandStart (t : Nat) (s : State) : exec (.trestleCommandStart t) s = execTrestleCommandStart t s := rfl
theorem exec_trestleStep (t : Nat) (s : State) : exec (.trestleStep t) s = execTrestleStep t s := rfl
theorem exec_trestleCommandComplete (t : Nat) (s : State) : exec (.trestleCommandComplete t) s = execTrestleCommandComplete t s := rfl
theorem exec_operandLineRequest (n : Nat) (s : State) : exec (.operandLineRequest n) s = execOperandLineRequest n s := rfl
theorem exec_mcastWindowExpire (t : Nat) (n : Nat) (s : State) : exec (.mcastWindowExpire t n) s = execMcastWindowExpire t n s := rfl
theorem exec_operandLineArrive (n : Nat) (s : State) : exec (.operandLineArrive n) s = execOperandLineArrive n s := rfl
theorem exec_leaseExpireTime (t : Nat) (s : State) : exec (.leaseExpireTime t) s = execLeaseExpireTime t s := rfl
theorem exec_copyPieceIssue (t : Nat) (s : State) : exec (.copyPieceIssue t) s = execCopyPieceIssue t s := rfl
theorem exec_copyRead (n : Nat) (s : State) : exec (.copyRead n) s = execCopyRead n s := rfl
theorem exec_copyWrite (n : Nat) (s : State) : exec (.copyWrite n) s = execCopyWrite n s := rfl
theorem exec_arrivalCount (n : Nat) (s : State) : exec (.arrivalCount n) s = execArrivalCount n s := rfl
theorem exec_pageWalkComplete (t : Nat) (n : Nat) (s : State) : exec (.pageWalkComplete t n) s = execPageWalkComplete t n s := rfl
theorem exec_faultRecordWrite (t : Nat) (s : State) : exec (.faultRecordWrite t) s = execFaultRecordWrite t s := rfl
theorem exec_invalCommand (n : Nat) (s : State) : exec (.invalCommand n) s = execInvalCommand n s := rfl
theorem exec_sysBroadcastAck (n : Nat) (s : State) : exec (.sysBroadcastAck n) s = execSysBroadcastAck n s := rfl
theorem exec_segldTable (n : Nat) (s : State) : exec (.segldTable n) s = execSegldTable n s := rfl
theorem exec_rtClassUpdate (n : Nat) (s : State) : exec (.rtClassUpdate n) s = execRtClassUpdate n s := rfl
theorem exec_classSwitchTake (t : Nat) (s : State) : exec (.classSwitchTake t) s = execClassSwitchTake t s := rfl
theorem exec_vaultFillReturn (t : Nat) (n : Nat) (errs : Nat) (s : State) : exec (.vaultFillReturn t n errs) s = execVaultFillReturn t n errs s := rfl
theorem exec_writebackEntryFree (t : Nat) (n : Nat) (s : State) : exec (.writebackEntryFree t n) s = execWritebackEntryFree t n s := rfl
theorem exec_prefetchIssue (t : Nat) (n : Nat) (s : State) : exec (.prefetchIssue t n) s = execPrefetchIssue t n s := rfl
theorem exec_scrubRead (t : Nat) (line : Nat) (seen : LineRead) (s : State) : exec (.scrubRead t line seen) s = execScrubRead t line seen s := rfl
theorem exec_routerHop (n : Nat) (s : State) : exec (.routerHop n) s = execRouterHop n s := rfl
theorem exec_ageTick (md : Nat) (s : State) : exec (.ageTick md) s = execAgeTick md s := rfl
theorem exec_periodicDrain (md : Nat) (s : State) : exec (.periodicDrain md) s = execPeriodicDrain md s := rfl
theorem exec_linkFailure (md : Nat) (site : Nat) (port : Nat) (s : State) : exec (.linkFailure md site port) s = execLinkFailure md site port s := rfl
theorem exec_routerFailure (md : Nat) (site : Nat) (plane : Nat) (s : State) : exec (.routerFailure md site plane) s = execRouterFailure md site plane s := rfl
theorem exec_nameTableSwitch (md : Nat) (s : State) : exec (.nameTableSwitch md) s = execNameTableSwitch md s := rfl
theorem exec_tileReset (t : Nat) (s : State) : exec (.tileReset t) s = execTileReset t s := rfl
theorem exec_nonresidentSpill (n : Nat) (s : State) : exec (.nonresidentSpill n) s = execNonresidentSpill n s := rfl
theorem exec_gangStop (t : Nat) (s : State) : exec (.gangStop t) s = execGangStop t s := rfl
theorem exec_gangSave (t : Nat) (s : State) : exec (.gangSave t) s = execGangSave t s := rfl
theorem exec_gangResume (asid : Nat) (s : State) : exec (.gangResume asid) s = execGangResume asid s := rfl
theorem exec_powerOnReset (md : Nat) (s : State) : exec (.powerOnReset md) s = execPowerOnReset md s := rfl
theorem exec_recoveryInstall (md : Nat) (s : State) : exec (.recoveryInstall md) s = execRecoveryInstall md s := rfl
theorem exec_recoveryLogReset (md : Nat) (s : State) : exec (.recoveryLogReset md) s = execRecoveryLogReset md s := rfl
theorem exec_hostRegisterWrite (md : Nat) (port : Nat) (off : Nat) (val : BitVec 64) (s : State) : exec (.hostRegisterWrite md port off val) s = execHostRegisterWrite md port off val s := rfl
theorem exec_mgSemRead (md : Nat) (port : Nat) (n : Nat) (s : State) : exec (.mgSemRead md port n) s = execMgSemRead md port n s := rfl
theorem exec_mgSemWrite (md : Nat) (port : Nat) (n : Nat) (val : BitVec 64) (s : State) : exec (.mgSemWrite md port n val) s = execMgSemWrite md port n val s := rfl
theorem exec_mgLqtail (md : Nat) (port : Nat) (val : BitVec 64) (s : State) : exec (.mgLqtail md port val) s = execMgLqtail md port val s := rfl
theorem exec_launchValidate (md : Nat) (s : State) : exec (.launchValidate md) s = execLaunchValidate md s := rfl
theorem exec_launchPlace (md : Nat) (lid : Nat) (s : State) : exec (.launchPlace md lid) s = execLaunchPlace md lid s := rfl
theorem exec_backfillFence (md : Nat) (s : State) : exec (.backfillFence md) s = execBackfillFence md s := rfl
theorem exec_launchComplete (md : Nat) (lid : Nat) (s : State) : exec (.launchComplete md lid) s = execLaunchComplete md lid s := rfl
theorem exec_mgRetire (md : Nat) (port : Nat) (val : BitVec 64) (s : State) : exec (.mgRetire md port val) s = execMgRetire md port val s := rfl
theorem exec_mgAbort (md : Nat) (port : Nat) (val : BitVec 64) (s : State) : exec (.mgAbort md port val) s = execMgAbort md port val s := rfl
theorem exec_mgCtx (md : Nat) (port : Nat) (off : Nat) (val : BitVec 64) (s : State) : exec (.mgCtx md port off val) s = execMgCtx md port off val s := rfl
theorem exec_dbgHalt (md : Nat) (pod : Bool) (s : State) : exec (.dbgHalt md pod) s = execDbgHalt md pod s := rfl
theorem exec_dbgResume (md : Nat) (pod : Bool) (s : State) : exec (.dbgResume md pod) s = execDbgResume md pod s := rfl
theorem exec_dbgFreeze (md : Nat) (s : State) : exec (.dbgFreeze md) s = execDbgFreeze md s := rfl
theorem exec_dbgBrkhalt (md : Nat) (on : Bool) (s : State) : exec (.dbgBrkhalt md on) s = execDbgBrkhalt md on s := rfl
theorem exec_mgDbgstep (md : Nat) (val : BitVec 64) (s : State) : exec (.mgDbgstep md val) s = execMgDbgstep md val s := rfl
theorem exec_debugHaltTake (md : Nat) (s : State) : exec (.debugHaltTake md) s = execDebugHaltTake md s := rfl
theorem exec_debugResumeTake (md : Nat) (s : State) : exec (.debugResumeTake md) s = execDebugResumeTake md s := rfl
theorem exec_stepEnd (md : Nat) (s : State) : exec (.stepEnd md) s = execStepEnd md s := rfl
theorem exec_apertureRead (md : Nat) (port : Nat) (off : Nat) (size : Nat) (s : State) : exec (.apertureRead md port off size) s = execApertureRead md port off size s := rfl
theorem exec_apertureWrite (md : Nat) (port : Nat) (off : Nat) (bytes : List (BitVec 8)) (s : State) : exec (.apertureWrite md port off bytes) s = execApertureWrite md port off bytes s := rfl
theorem exec_portLinkDown (md : Nat) (port : Nat) (s : State) : exec (.portLinkDown md port) s = execPortLinkDown md port s := rfl
theorem exec_hostCompletionTimeout (n : Nat) (s : State) : exec (.hostCompletionTimeout n) s = execHostCompletionTimeout n s := rfl
theorem exec_getVersion (md : Nat) (port : Nat) (s : State) : exec (.getVersion md port) s = execGetVersion md port s := rfl
theorem exec_getCapabilities (md : Nat) (port : Nat) (s : State) : exec (.getCapabilities md port) s = execGetCapabilities md port s := rfl
theorem exec_negotiateAlgorithms (md : Nat) (port : Nat) (s : State) : exec (.negotiateAlgorithms md port) s = execNegotiateAlgorithms md port s := rfl
theorem exec_getDigests (md : Nat) (port : Nat) (s : State) : exec (.getDigests md port) s = execGetDigests md port s := rfl
theorem exec_getCertificate (md : Nat) (port : Nat) (s : State) : exec (.getCertificate md port) s = execGetCertificate md port s := rfl
theorem exec_challenge (md : Nat) (port : Nat) (nonce : BitVec 256) (s : State) : exec (.challenge md port nonce) s = execChallenge md port nonce s := rfl
theorem exec_getMeasurements (md : Nat) (port : Nat) (n : Nat) (s : State) : exec (.getMeasurements md port n) s = execGetMeasurements md port n s := rfl
theorem exec_powerExcursion (md : Nat) (s : State) : exec (.powerExcursion md) s = execPowerExcursion md s := rfl
theorem exec_powerRestored (md : Nat) (s : State) : exec (.powerRestored md) s = execPowerRestored md s := rfl
theorem exec_thermalShutdown (md : Nat) (s : State) : exec (.thermalShutdown md) s = execThermalShutdown md s := rfl
theorem exec_illegalEncoding (w : BitVec 32) (s : State) : exec (.illegalEncoding w) s = execIllegalEncoding w s := rfl
theorem exec_fetchFault (cause : BitVec 8) (s : State) : exec (.fetchFault cause) s = execFetchFault cause s := rfl
theorem exec_hostLinkUp (md : Nat) (port : Nat) (s : State) : exec (.hostLinkUp md port) s = execHostLinkUp md port s := rfl
theorem exec_ejectionPortReopen (t : Nat) (s : State) : exec (.ejectionPortReopen t) s = execEjectionPortReopen t s := rfl

end Sys2Proof.Machine
end

