-- ==== Sys2Proof/Laws/Access.lean ====
section
/-! SUPPORT. What an access does once it is presented at its own tile (06 R128, R129, 13 R280), and what a remote or posted one sends. -/
namespace Sys2Proof

@[simp] theorem Tab.set_set {α : Type} (m : Tab α) (k : Nat) (v w : α) : Tab.set (Tab.set m k v) k w = Tab.set m k w := by
  induction m with
  | nil => simp [Tab.set]
  | cons e m ih =>
    obtain ⟨j, u⟩ := e
    simp only [Tab.set]
    by_cases h : j = k
    · simp [h, Tab.set]
    · by_cases h' : k < j
      · simp [h, h', Tab.set]
      · simp [h, h', Tab.set, ih]

namespace Machine

@[simp] theorem State.setTile_setTile (s : State) (t : Nat) (a b : Tile) : (s.setTile t a).setTile t b = s.setTile t b := by
  simp [State.setTile]

@[simp] theorem Tile.setCore_setCore (tl : Tile) (c : Nat) (a b : Core) : (tl.setCore c a).setCore c b = tl.setCore c b := by
  simp [Tile.setCore]

@[simp] theorem State.setThread_setThread (s : State) (t c k : Nat) (a b : Thread) :
    (s.setThread t c k a).setThread t c k b = s.setThread t c k b := by
  simp only [State.setThread, State.mapTile, State.setTile_setTile, State.tile_setTile_same, Tile.setThread, Tile.core_setCore_same,
    Tile.setCore_setCore, Tab.set_set]

/-- A thread that waits for one form and completes it: what the wait record said before does not matter. -/
theorem Thread.complete_wait (th : Thread) (w : WaitRec) (x : Option WaitRec) (vals : List Line) :
    ({ th with wait := x } : Thread).complete w vals = th.complete w vals := by
  unfold Thread.complete Thread.unpin
  split
  · rfl
  · by_cases h : (w.pin && decide (1 ≤ th.pincnt.toNat) && decide (th.pincnt.toNat ≤ 62)) = true
    · simp only [h, ↓reduceIte]
    · simp only [h]; try rfl

theorem Thread.complete_st (th : Thread) (w : WaitRec) (vals : List Line) : (th.complete w vals).st = .ready := by
  unfold Thread.complete
  split
  · rfl
  · dsimp only
    split
    · rw [Thread.writes_st]
    · rw [Thread.await_st]

theorem Thread.complete_waitNone (th : Thread) (w : WaitRec) (vals : List Line) : (th.complete w vals).wait = none := by
  unfold Thread.complete
  split
  · rfl
  · dsimp only
    split
    · rw [Thread.writes_wait]
    · rw [Thread.await_wait]

/-- The answer of a thread's own access completes it. -/
theorem State.finish_done {s : State} {t c k : Nat} {w : WaitRec} (hw : (s.thread t c k).wait = some w)
    (hs : (s.thread t c k).st ≠ .halted) (vals : List Line) :
    s.finish t c k (.done vals) = s.setThread t c k ((s.thread t c k).complete w vals) := by
  have : ((s.thread t c k).st == .halted) = false := by simpa using hs
  simp [State.finish, hw, State.stayHalted, this]

theorem State.ownReply_done {s : State} {t c k : Nat} {th : Thread} {w : WaitRec} {vals : List Line}
    (ht : s.thread t c k = th) (hw : th.wait = some w) (he : w.elems = false) (hd : w.direct = false) (hs : th.st = .ready) :
    s.ownReply t c k none (.done vals) = s.setThread t c k (th.complete w vals) := by
  subst ht
  cases w
  dsimp only at he hd hw ⊢
  subst he hd
  unfold State.ownReply
  simp only [hw, Bool.false_and, Bool.false_eq_true, ite_self, ↓reduceIte, Option.map_none, Option.toList_none, List.append_nil]
  rw [State.finish_done (by rw [State.thread_setThread_same]) (by
    rw [State.thread_setThread_same]
    show (s.thread t c k).st ≠ .halted
    rw [hs]; decide), State.thread_setThread_same, State.setThread_setThread, Thread.complete_wait]

/-- Tile memory without a soft error takes an access at once. -/
theorem State.touch_sound {s : State} {a n : Nat} {wr rmw : Bool} {m : Option (BitVec 16)} (hv : devVault a = false)
    (h : (s.tile (devTile a)).errs = []) : s.touch a n wr m rmw = .ok none s := by
  unfold State.touch
  split
  · rfl
  · cases m with
    | none => simp [hv, State.decodeRange_sound h]
    | some m => simp only [hv, State.decodeRange_sound h]; split <;> rfl

theorem State.touchOp_sound {s : State} {op : Op} {a : Nat} (ha : op.kind.addressed = true) (hv : devVault a = false)
    (h : (s.tile (devTile a)).errs = []) : s.touchOp op a = .ok none s := by
  unfold State.touchOp
  split
  case h_4 q hq => rw [hq] at ha; exact absurd ha (by simp [OpKind.addressed])
  all_goals exact State.touch_sound hv h

/-- Without a stalled request of the core nothing waits behind one. -/
theorem State.behindStall_none {s : State} {t c k : Nat} (h : ((s.tile t).core c).stalled = none) : s.behindStall t c k = false := by
  simp [State.behindStall, h]

theorem State.coreGoes_none {s : State} {t c k : Nat} (h : ((s.tile t).core c).stalled = none) : s.coreGoes t c k = s := by
  simp [State.coreGoes, h]

theorem State.noteNarrow_none (s : State) (op : Op) : s.noteNarrow op none = s := rfl

/-- One presentation that is accepted and answered at once. -/
theorem State.present_done {s s1 s3 : State} {t c k a : Nat} {w : WaitRec} {vals : List Line}
    (hw : (s.thread t c k).wait = some w) (he : w.elems = false) (hb : w.buffered = false) (hd : w.direct = false)
    (hl : s.locate w.op = .at_ a s1)
    (hm : (if w.op.kind.addressed then ((s1.tile t).core c).meets w.op.kind a w.sbAt false else .clear) = .clear)
    (hi : s1.indexMeets t ((s1.tile t).core c) w.op.kind a w.sbAt = none)
    (hst : ((s1.tile t).core c).stalled = none) (ht : s1.touchOp w.op a = .ok none s1)
    (hf : s1.effect w.op a = { s := s3, ans := .reply (.done vals), woken := [] })
    (h3 : s3.thread t c k = s.thread t c k) (hs : (s.thread t c k).st = .ready) :
    s.present t c k = (s3.setThread t c k ((s.thread t c k).complete w vals), true) := by
  have hn : w.next = w.op := by simp [WaitRec.next, he]
  cases w
  dsimp only at he hb hd hw hn hl hm ht hf hi ⊢
  subst he hb hd
  unfold State.present
  simp only [hw, hn, hl, Bool.false_eq_true, ↓reduceIte, hm, hi, State.behindStall_none hst, State.performOwn, ht,
    State.coreGoes_none hst, State.noteNarrow_none, hf, State.wakeAll, List.foldl_nil]
  rw [State.ownReply_done h3 hw rfl rfl hs]

/-- An access presented from its slot that is accepted and answered at once completes. -/
theorem State.acceptOwn_done {s s1 s3 : State} {t c k a : Nat} {w : WaitRec} {vals : List Line}
    (hw : (s.thread t c k).wait = some w) (he : w.elems = false) (hb : w.buffered = false) (hd : w.direct = false)
    (hl : s.locate w.op = .at_ a s1)
    (hm : (if w.op.kind.addressed then ((s1.tile t).core c).meets w.op.kind a w.sbAt false else .clear) = .clear)
    (hi : s1.indexMeets t ((s1.tile t).core c) w.op.kind a w.sbAt = none)
    (hst : ((s1.tile t).core c).stalled = none) (ht : s1.touchOp w.op a = .ok none s1)
    (hf : s1.effect w.op a = { s := s3, ans := .reply (.done vals), woken := [] })
    (h3 : s3.thread t c k = s.thread t c k) (hs : (s.thread t c k).st = .ready) (hk : (s.thread t c k).walking = false) :
    s.acceptOwn t c k = s3.setThread t c k ((s.thread t c k).complete w vals) := by
  unfold State.acceptOwn
  rw [if_pos (by simp [hs, hk])]
  unfold State.accept
  rw [State.present_done hw he hb hd hl hm hi hst ht hf h3 hs]
  simp [Thread.complete_waitNone]

/-! ## A local access -/

/-- The wait record of the executing thread's access when its own tile owns the address. -/
def Access.here (x : Access) (s : State) : WaitRec :=
  x.record s s.me s.here s.here ((s.myTile.seg (vaSeg x.va)).localOffset s.me.scratch (vaOff x.va))

/-- The executing thread as it presents a local access. -/
def Access.presenting (x : Access) (s : State) : Thread := { s.me with wait := some (x.here s), tags := s.me.tags + 1 }

/-- The state in which a local access acts: issued, its translation looked up. -/
def State.atPort (s : State) (x : Access) : State :=
  match (s.issued (x.presenting s)).locate (x.here s).op with
  | .at_ _ u => u
  | .miss => s

theorem State.tile_issued (s : State) (th : Thread) :
    (s.issued th).tile s.cur.1 = ((s.tile s.cur.1).setThread s.cur.2.1 s.cur.2.2 th).count 0x260 := by
  simp [State.issued, State.count, State.tile_setMe]

theorem State.tile_issued_ne (s : State) (th : Thread) {n : Nat} (h : n ≠ s.cur.1) : (s.issued th).tile n = s.tile n := by
  simp only [State.issued, State.count, State.here_eq]
  rw [State.tile_mapTile_ne _ _ h, State.setMe, State.setThread, State.tile_mapTile_ne _ _ h]

/-- Where an access hits, the tile finds its translation after the instruction has issued as before; the look-up touches at most the
replacement bits of the TLB. -/
theorem State.Hits.locate {s : State} {x : Access} {a : Nat} (ha : x.kind.addressed = true)
    (h : s.Hits x.need x.kind.writes x.kind.size x.va a) :
    (s.issued (x.presenting s)).locate (x.here s).op = .at_ a (s.atPort x) ∧
    ∃ tree : Tile → Tab Nat, s.atPort x = (s.issued (x.presenting s)).mapTile s.here (fun tl => { tl with tlbTree := tree tl }) := by
  obtain ⟨u, hu⟩ := h.found
  have hk : (x.here s).op.kind = x.kind := rfl
  have hd : (x.here s).op.device = false := rfl
  have hl : (s.issued (x.presenting s)).locate (x.here s).op =
      (s.issued (x.presenting s)).translate s.here s.me.asid.toNat (vaSeg x.va) (s.myTile.seg (vaSeg x.va)).mapping.scratch
        x.kind.writes (s.myTile.seg (vaSeg x.va)).mapping.psize ((s.myTile.seg (vaSeg x.va)).localOffset s.me.scratch (vaOff x.va)) := by
    unfold State.locate
    rw [hk, hd, ha]
    simp only [Bool.not_true, Bool.false_eq_true, ↓reduceIte]
    rfl
  have ht : ((s.issued (x.presenting s)).tile s.here).tlb = (s.tile s.here).tlb := by rw [State.here_eq, State.tile_issued]; rfl
  have hp : ∃ tree : Tile → Tab Nat, (s.issued (x.presenting s)).locate (x.here s).op =
      .at_ a ((s.issued (x.presenting s)).mapTile s.here (fun tl => { tl with tlbTree := tree tl })) := by
    rw [hl]
    unfold State.translate at hu ⊢
    split at hu
    · rename_i hc
      simp only [Xlate.at_.injEq] at hu
      refine ⟨fun tl => tl.tlbTree, ?_⟩
      rw [if_pos hc, hu.1]
      congr 1
      show s.issued (x.presenting s) = (s.issued (x.presenting s)).setTile s.cur.1 ((s.issued (x.presenting s)).tile s.cur.1)
      rw [State.tile_issued]
      simp only [State.issued, State.count, State.mapTile, State.here_eq, State.setTile_setTile, State.tile_setMe]
    · rename_i hc
      split at hu
      · rename_i e he
        simp only [Xlate.at_.injEq] at hu
        rw [if_neg hc]
        unfold Tile.lookup at he ⊢
        rw [ht, he]
        exact ⟨fun tl => tl.tlbTree.set e.set (plruTouch (tl.tlbTree.get 0 e.set) e.way 3 1), by rw [← hu.1]; rfl⟩
      · cases hu
  obtain ⟨tree, hp⟩ := hp
  have : s.atPort x = (s.issued (x.presenting s)).mapTile s.here (fun tl => { tl with tlbTree := tree tl }) := by
    unfold State.atPort; rw [hp]
  exact ⟨by rw [this]; exact hp, tree, this⟩

theorem State.Hits.atPort_thread {s : State} {x : Access} {a : Nat} (ha : x.kind.addressed = true)
    (h : s.Hits x.need x.kind.writes x.kind.size x.va a) :
    (s.atPort x).thread s.cur.1 s.cur.2.1 s.cur.2.2 = x.presenting s := by
  obtain ⟨-, tree, e⟩ := h.locate ha
  rw [e, State.thread, State.here_eq, State.tile_mapTile_same]
  show ((s.issued (x.presenting s)).tile s.cur.1).thread s.cur.2.1 s.cur.2.2 = _
  rw [State.tile_issued]
  simp

/-- The cores of the executing thread's tile at that point: its store buffers are as they were. -/
theorem State.Hits.atPort_sb {s : State} {x : Access} {a : Nat} (ha : x.kind.addressed = true)
    (h : s.Hits x.need x.kind.writes x.kind.size x.va a) : (((s.atPort x).tile s.cur.1).core s.cur.2.1).sb = s.myCore.sb := by
  obtain ⟨-, tree, e⟩ := h.locate ha
  rw [e, State.here_eq, State.tile_mapTile_same]
  show (((s.issued (x.presenting s)).tile s.cur.1).core s.cur.2.1).sb = _
  rw [State.tile_issued]
  simp [Tile.setThread]
  rfl

theorem State.Hits.atPort_stalled {s : State} {x : Access} {a : Nat} (ha : x.kind.addressed = true)
    (h : s.Hits x.need x.kind.writes x.kind.size x.va a) : (((s.atPort x).tile s.cur.1).core s.cur.2.1).stalled = none := by
  obtain ⟨-, tree, e⟩ := h.locate ha
  rw [e, State.here_eq, State.tile_mapTile_same]
  show (((s.issued (x.presenting s)).tile s.cur.1).core s.cur.2.1).stalled = _
  rw [State.tile_issued]
  simp [Tile.setThread]
  exact h.noStall

theorem State.Hits.atPort_errs {s : State} {x : Access} {a : Nat} (ha : x.kind.addressed = true)
    (h : s.Hits x.need x.kind.writes x.kind.size x.va a) (n : Nat) : ((s.atPort x).tile n).errs = (s.tile n).errs := by
  obtain ⟨-, tree, e⟩ := h.locate ha
  rw [e, State.here_eq]
  by_cases hn : n = s.cur.1
  · subst hn
    rw [State.tile_mapTile_same]
    show ((s.issued (x.presenting s)).tile s.cur.1).errs = _
    rw [State.tile_issued]; rfl
  · rw [State.tile_mapTile_ne _ _ hn, State.tile_issued_ne _ _ hn]

theorem Core.meets_clear {co : Core} {kind : OpKind} {a n : Nat} {el : Bool} (h : ∀ e ∈ co.sb, ∀ i < kind.size, e.at_ (a + i) = none) :
    co.meets kind a n el = .clear := by
  have : co.sb.filter (fun e => decide (e.pos < n) && e.overlaps kind a) = [] := by
    rw [List.filter_eq_nil_iff]
    intro e he
    have : e.overlaps kind a = false := by
      simp only [SbEntry.overlaps, List.any_eq_false, List.mem_range, Bool.and_eq_true, not_and]
      intro i hi _
      simp [h e he i hi]
    simp [this]
  simp [Core.meets, this]

/-- A form that is no index operation looks at no array. -/
theorem State.indexMeets_none {s : State} {t : Nat} {co : Core} {kind : OpKind} {a n : Nat} (h : kind.isIndex = false) :
    s.indexMeets t co kind a n = none := by
  unfold State.indexMeets
  cases kind <;> first | rfl | cases h

/-- What an access has changed once it is taken at the executing thread's tile: its memory effect, and the thread. -/
theorem State.Hits.leaves {s : State} {x : Access} {a : Nat} (ha : x.kind.addressed = true)
    (h : s.Hits x.need x.kind.writes x.kind.size x.va a) (M : List Host.Cell) (E P : List Nat) (th : Thread) :
    s.Leaves ({ s.atPort x with mem := M, empties := E, poison := P }.setThread s.cur.1 s.cur.2.1 s.cur.2.2 th) th := by
  obtain ⟨-, tree, e⟩ := h.locate ha
  have hc : (s.atPort x).cur = s.cur := by rw [e]; rfl
  have ht : ∀ n, ({ s.atPort x with mem := M, empties := E, poison := P } : State).tile n = (s.atPort x).tile n := fun n => rfl
  refine ⟨?_, ?_, ⟨fun n hn => ?_, fun c k hck => ?_, ?_⟩⟩
  · show State.thread _ (s.atPort x).cur.1 (s.atPort x).cur.2.1 (s.atPort x).cur.2.2 = th
    rw [hc, State.thread_setThread_same]
  · constructor <;> (rw [e]; rfl)
  · have hn' : n ≠ s.cur.1 := hn
    rw [State.setThread, State.tile_mapTile_ne _ _ hn', ht, e, State.here_eq, State.tile_mapTile_ne _ _ hn', State.tile_issued_ne _ _ hn']
  · rw [State.here_eq, State.setThread, State.tile_mapTile_same, Tile.thread_setThread_ne _ _ hck, ht, e, State.here_eq,
      State.tile_mapTile_same]
    show ((s.issued (x.presenting s)).tile s.cur.1).thread c k = _
    rw [State.tile_issued]
    exact Tile.thread_setThread_ne _ _ hck
  · rw [State.here_eq, State.setThread, State.tile_mapTile_same, ht, e, State.here_eq, State.tile_mapTile_same, State.tile_issued]
    refine ⟨s.myCore.slots.set s.cur.2.2 th, s.myTile.ct.set 0x260 (s.myTile.ct.get 0 0x260 + BitVec.ofNat 64 1),
      tree (((s.tile s.cur.1).setThread s.cur.2.1 s.cur.2.2 (x.presenting s)).count 0x260), ?_⟩
    rw [show s.myTile = s.tile s.cur.1 from rfl, show s.myCore = (s.tile s.cur.1).core s.cur.2.1 from rfl]
    simp [Tile.setThread, Tile.setCore, Tile.core, Tile.count]

/-- An access that hits in tile memory of its own tile is taken at once: the operation has its effect and the thread completes. -/
theorem accessAt_local {s : State} {x : Access} {a : Nat} {vals : List Line} {M : List Host.Cell} {E P : List Nat}
    (hs : s.me.st = .ready) (hk : s.me.walking = false) (hr : s.releaseWait x.rel s.myCore s.me = none)
    (ha : x.kind.addressed = true) (hi : x.kind.isIndex = false) (hb : x.buffered = false) (h : s.Hits x.need x.kind.writes x.kind.size x.va a)
    (hf : (s.atPort x).effect (x.here s).op a =
      { s := { s.atPort x with mem := M, empties := E, poison := P }, ans := .reply (.done vals), woken := [] }) :
    accessAt s.me s x =
      .next ({ s.atPort x with mem := M, empties := E, poison := P }.setThread s.cur.1 s.cur.2.1 s.cur.2.2
        ((x.presenting s).complete (x.here s) vals)) := by
  unfold accessAt
  simp only [hr, h.allowed, h.mine, hb, Bool.false_and, Bool.false_eq_true, ↓reduceIte]
  congr 1
  unfold State.route
  show ite (s.here = s.here) ((s.issued (x.presenting s)).acceptOwn s.cur.1 s.cur.2.1 s.cur.2.2) _ = _
  rw [if_pos rfl]
  have hw : (s.issued (x.presenting s)).thread s.cur.1 s.cur.2.1 s.cur.2.2 = x.presenting s := by
    simp [State.issued, State.setMe]
  have ht : ({ s.atPort x with mem := M, empties := E, poison := P } : State).thread s.cur.1 s.cur.2.1 s.cur.2.2 =
      (s.issued (x.presenting s)).thread s.cur.1 s.cur.2.1 s.cur.2.2 := by
    rw [hw]; exact h.atPort_thread ha
  have := State.acceptOwn_done (s := s.issued (x.presenting s)) (t := s.cur.1) (c := s.cur.2.1) (k := s.cur.2.2) (a := a)
    (w := x.here s) (s1 := s.atPort x) (vals := vals)
    (by rw [hw]; rfl) rfl hb rfl (h.locate ha).1
    (by
      rw [if_pos (show (x.here s).op.kind.addressed = true from ha)]
      refine Core.meets_clear (fun e he => h.drained e ?_)
      rw [h.atPort_sb ha] at he; exact he)
    (State.indexMeets_none hi) (h.atPort_stalled ha)
    (State.touchOp_sound (show (x.here s).op.kind.addressed = true from ha) h.tileMemory (by rw [h.atPort_errs ha]; exact h.sound)) hf ht (by rw [hw]; exact hs) (by rw [hw]; exact hk)
  rw [hw] at this
  exact this

/-- The thread that a local access leaves. -/
theorem Thread.complete_took (th : Thread) (w : WaitRec) (hs : th.st = .ready) (hk : th.walking = false) (hw : th.wait = none)
    (hq : w.op.kind ≠ .quota) (hd : w.direct = false) (hg : w.gates = []) (hn : w.bad = none) (hbd : w.bind = none) (vals : List Line) :
    ({ th with wait := some w, tags := th.tags + 1 } : Thread).complete w vals =
      th.took w.size w.dests (w.results vals) w.op.kind.reads w.acq w.pin := by
  unfold Thread.complete
  rw [if_neg hq, if_neg (by rw [hd]; decide), hg, hn, hbd]
  unfold Thread.took Thread.unpin
  cases th
  simp only at hs hk hw
  subst hs hk hw
  dsimp only
  split <;> rfl

theorem Access.completes {s : State} (x : Access) (hs : s.me.st = .ready) (hk : s.me.walking = false) (hw : s.me.wait = none)
    (hq : x.kind ≠ .quota) (vals : List Line) :
    (x.presenting s).complete (x.here s) vals =
      s.me.took x.size x.dests ((x.here s).results vals) x.kind.reads x.acq x.pin :=
  Thread.complete_took s.me (x.here s) hs hk hw hq rfl rfl rfl rfl vals

theorem State.Released.go {s : State} (h : s.Released) (r : Bool) : s.releaseWait r s.myCore s.me = none := by
  unfold State.releaseWait
  split
  · rfl
  · simp [releaseDone, h.results, h.silent, h.posted, h.drained, h.denial]

theorem State.releaseWait_none (s : State) : s.releaseWait false s.myCore s.me = none := rfl

/-- An access that its own tile owns does not migrate. -/
theorem State.Hits.stays {s : State} {x : Access} {a : Nat} (h : s.Hits x.need x.kind.writes x.kind.size x.va a) :
    s.migrates s.me x = false := by
  unfold State.migrates
  simp only [h.mine, bne_self_eq_false, Bool.false_and, Bool.and_false]

/-- A form that makes one local access: what it changes. -/
theorem access_local {s : State} {f : Form} {mk : Thread → Access} {a : Nat} {vals : List Line} {M : List Host.Cell} {E P : List Nat}
    {x : Access} (hx : x = { mk s.me with size := f.i.size })
    (hc : s.Clear f.m f.dst f.src f.long f.mem (f.waits || (mk s.me).rel) f.dyn) (hr : s.releaseWait x.rel s.myCore s.me = none)
    (ha : x.kind.addressed = true) (hi : x.kind.isIndex = false) (hb : x.buffered = false) (h : s.Hits x.need x.kind.writes x.kind.size x.va a)
    (hf : (s.atPort x).effect (x.here s).op a =
      { s := { s.atPort x with mem := M, empties := E, poison := P }, ans := .reply (.done vals), woken := [] }) :
    ∃ t, access f s mk = .next t ∧
      s.Leaves t (s.me.took x.size x.dests ((x.here s).results vals) x.kind.reads x.acq x.pin) ∧
      t.mem = M ∧ t.empties = E ∧ t.poison = P := by
  have hm : s.migrates s.me { mk s.me with size := f.i.size } = false := by rw [← hx]; exact h.stays
  rw [access_clear mk (by rw [hm, Bool.or_false]; exact hc), ← hx, accessAt_local hc.ready hc.notWalking hr ha hi hb h hf,
    Access.completes x hc.ready hc.notWalking hc.noWait (by intro e; rw [e] at ha; cases ha)]
  exact ⟨_, rfl, h.leaves ha M E P _, rfl, rfl, rfl⟩

/-- Two states agree on what an operation at an owner reads: memory, its tags and the owner's waiter records. -/
structure State.SeesAs (s u : State) (t : Nat) : Prop where
  mem : u.mem = s.mem
  empties : u.empties = s.empties
  poison : u.poison = s.poison
  waiters : (u.tile t).waiters = (s.tile t).waiters

theorem State.Hits.sees {s : State} {x : Access} {a : Nat} (ha : x.kind.addressed = true)
    (h : s.Hits x.need x.kind.writes x.kind.size x.va a) : s.SeesAs (s.atPort x) s.here := by
  obtain ⟨-, tree, e⟩ := h.locate ha
  refine ⟨by rw [e]; rfl, by rw [e]; rfl, by rw [e]; rfl, ?_⟩
  rw [e, State.here_eq, State.tile_mapTile_same]
  show ((s.issued (x.presenting s)).tile s.cur.1).waiters = _
  rw [State.tile_issued]; rfl

theorem State.SeesAs.isPoisoned {s u : State} {t : Nat} (h : s.SeesAs u t) (a n : Nat) : u.isPoisoned a n = s.isPoisoned a n := by
  simp [State.isPoisoned, h.poison]

theorem State.SeesAs.num {s u : State} {t : Nat} (h : s.SeesAs u t) (a n : Nat) : u.num a n = s.num a n := by
  simp [State.num, State.bytes, h.mem]

theorem State.SeesAs.dword {s u : State} {t : Nat} (h : s.SeesAs u t) (a : Nat) : u.dword a = s.dword a := by
  simp [State.dword, h.num]

theorem State.SeesAs.isEmpty {s u : State} {t : Nat} (h : s.SeesAs u t) (a : Nat) : u.isEmpty a = s.isEmpty a := by
  simp [State.isEmpty, h.empties]

theorem State.SeesAs.waitersAt {s u : State} {t : Nat} (h : s.SeesAs u t) (a : Nat) :
    (u.tile t).waitersAt a = (s.tile t).waitersAt a := by
  simp [Tile.waitersAt, h.waiters]

theorem State.byte_of_mem {s t : State} (h : t.mem = s.mem) (a : Nat) : t.byte a = s.byte a := by simp [State.byte, h]

/-- A form with one general destination writes it with the answer's value. -/
theorem WaitRec.written_plain {w : WaitRec} (h : w.op.kind.isIndex = false) : w.written = w.dests := by
  unfold WaitRec.written
  split
  · rename_i e; rw [e] at h; cases h
  · rfl

theorem Access.results_toG (s : State) (x : Access) (v : Dword) (d : BitVec 5) (hi : x.kind.isIndex = false) (hd : x.dests = [gd d]) :
    (x.here s).results [v.zeroExtend 512] = [toG d v] := by
  unfold WaitRec.results
  rw [WaitRec.written_plain (show (x.here s).op.kind.isIndex = false from hi)]
  simp [Access.here, Access.record, hd, gd, toG]

theorem Access.results_nil (s : State) (x : Access) (hi : x.kind.isIndex = false) (hd : x.dests = []) (vals : List Line) :
    (x.here s).results vals = [] := by
  unfold WaitRec.results
  rw [WaitRec.written_plain (show (x.here s).op.kind.isIndex = false from hi)]
  simp [Access.here, Access.record, hd]

/-- With no register to write, what a taken access carries does not matter. -/
theorem Thread.took_nil (th : Thread) (size : Nat) (ws : List RegWrite) (mem acq pin : Bool) :
    th.took size [] ws mem acq pin = th.took size [] [] (pin := pin) := rfl

/-- A local form with one general destination and an effect on memory and its tags. -/
theorem access_local_toG {s : State} {f : Form} {mk : Thread → Access} {a : Nat} {v : Dword} {M : List Host.Cell} {E P : List Nat}
    {x : Access} {d : BitVec 5} (hx : { mk s.me with size := f.i.size } = x) (hd : x.dests = [gd d])
    (hc : s.Clear f.m f.dst f.src f.long f.mem (f.waits || (mk s.me).rel) f.dyn) (hr : s.releaseWait x.rel s.myCore s.me = none)
    (ha : x.kind.addressed = true) (hi : x.kind.isIndex = false) (hb : x.buffered = false) (h : s.Hits x.need x.kind.writes x.kind.size x.va a)
    (hf : ∀ u : State, s.SeesAs u s.here → u.effect (x.here s).op a =
      { s := { u with mem := M, empties := E, poison := P }, ans := .reply (.done [v.zeroExtend 512]), woken := [] }) :
    ∃ t, access f s mk = .next t ∧
      s.Leaves t (s.me.took x.size [gd d] [toG d v] x.kind.reads x.acq x.pin) ∧ t.mem = M ∧ t.empties = E ∧ t.poison = P := by
  have := access_local hx.symm hc hr ha hi hb h (hf _ (h.sees ha))
  rwa [Access.results_toG s x v d hi hd, hd] at this

/-- A local form without a destination and an effect on memory and its tags. -/
theorem access_local_nil {s : State} {f : Form} {mk : Thread → Access} {a : Nat} {M : List Host.Cell} {E P : List Nat} {x : Access}
    (hx : { mk s.me with size := f.i.size } = x) (hd : x.dests = [])
    (hc : s.Clear f.m f.dst f.src f.long f.mem (f.waits || (mk s.me).rel) f.dyn) (hr : s.releaseWait x.rel s.myCore s.me = none)
    (ha : x.kind.addressed = true) (hi : x.kind.isIndex = false) (hb : x.buffered = false) (h : s.Hits x.need x.kind.writes x.kind.size x.va a)
    {vals : List Line} (hf : ∀ u : State, s.SeesAs u s.here → u.effect (x.here s).op a =
      { s := { u with mem := M, empties := E, poison := P }, ans := .reply (.done vals), woken := [] }) :
    ∃ t, access f s mk = .next t ∧ s.Leaves t (s.me.took x.size [] [] (pin := x.pin)) ∧
      t.mem = M ∧ t.empties = E ∧ t.poison = P := by
  have := access_local hx.symm hc hr ha hi hb h (hf _ (h.sees ha))
  rwa [Access.results_nil s x hi hd, hd, Thread.took_nil] at this

end Machine

end Sys2Proof
end

