-- ==== Sys2Proof/Laws/Decode.lean ====
section
/-! SUPPORT. The decoder over bytes, in terms of the decoders of words. -/
namespace Sys2Proof

theorem leBytes_length (n w : Nat) : (leBytes n w).length = n := by
  induction n generalizing w with
  | zero => rfl
  | succ n ih => simp [leBytes, ih]

/-- The bytes of a compact form decode as its halfword does, whatever follows. -/
theorem decode_leBytes_half {w : Nat} (rest : List Byte) (hw : w < 2 ^ 16) (h : isFull w = false) :
    decode (leBytes 2 w ++ rest) = (decodeHalf w).map (·, rest) := by
  have e : (BitVec.ofNat 8 w).toNat + 256 * (BitVec.ofNat 8 (w / 256)).toNat = w := by
    simp only [BitVec.toNat_ofNat]; omega
  have f : isFull (BitVec.ofNat 8 w).toNat = false := by
    simp only [isFull, beq_eq_false_iff_ne, BitVec.toNat_ofNat] at h ⊢; omega
  simp only [leBytes, List.cons_append, List.nil_append, decode, f, e, Bool.false_eq_true, if_false]

/-- The bytes of a 32-bit form decode as its word does, whatever follows. -/
theorem decode_leBytes_full {w : Nat} (rest : List Byte) (hw : w < 2 ^ 32) (h : isFull w = true) :
    decode (leBytes 4 w ++ rest) = (decodeFull w).map (·, rest) := by
  have e : (BitVec.ofNat 8 w).toNat + 256 * (BitVec.ofNat 8 (w / 256)).toNat + 65536 * (BitVec.ofNat 8 (w / 256 / 256)).toNat +
      16777216 * (BitVec.ofNat 8 (w / 256 / 256 / 256)).toNat = w := by
    simp only [BitVec.toNat_ofNat]; omega
  have f : isFull (BitVec.ofNat 8 w).toNat = true := by
    simp only [isFull, beq_iff_eq, BitVec.toNat_ofNat] at h ⊢; omega
  simp only [leBytes, List.cons_append, List.nil_append, decode, f, e, if_true]

/-- A word that a row covers first, with fields that pass the checks, is that row's instruction. -/
theorem decodeIn_ok {rows : List Row} {unknown : DecodeError} {w : Nat} {r : Row} (h : rows.find? (·.covers w) = some r)
    (hd : (r.build w).defect = none) : decodeIn rows unknown w = .ok (r.build w) := by
  simp [decodeIn, h, hd]

end Sys2Proof
end

