-- ==== Sys2Proof/Laws/PerInstr.lean ====
section
/-! SUPPORT. One law of every instruction, a lemma for each constructor: the bits that encode gives fit the instruction's length. -/
namespace Sys2Proof
section
set_option Elab.async false

/-- The bits of an encoded instruction are no more than its bytes hold (02 R45); an event has none. -/
def Laws.Fits.Statement (i : Instr) : Prop := ∀ w, encode i = some w → w < 2 ^ (8 * i.size)

theorem Laws.Fits.add (m : Bool) (d : BitVec 5) (a : BitVec 5) (b : BitVec 5) : Statement (.add m d a b) := by
  rintro _ ⟨⟩
  simp only [place, Instr.size]
  have := m.toNat_lt
  have := d.isLt
  have := a.isLt
  have := b.isLt
  omega
theorem Laws.Fits.sub (m : Bool) (d : BitVec 5) (a : BitVec 5) (b : BitVec 5) : Statement (.sub m d a b) := by
  rintro _ ⟨⟩
  simp only [place, Instr.size]
  have := m.toNat_lt
  have := d.isLt
  have := a.isLt
  have := b.isLt
  omega
theorem Laws.Fits.and (m : Bool) (d : BitVec 5) (a : BitVec 5) (b : BitVec 5) : Statement (.and m d a b) := by
  rintro _ ⟨⟩
  simp only [place, Instr.size]
  have := m.toNat_lt
  have := d.isLt
  have := a.isLt
  have := b.isLt
  omega
theorem Laws.Fits.or (m : Bool) (d : BitVec 5) (a : BitVec 5) (b : BitVec 5) : Statement (.or m d a b) := by
  rintro _ ⟨⟩
  simp only [place, Instr.size]
  have := m.toNat_lt
  have := d.isLt
  have := a.isLt
  have := b.isLt
  omega
theorem Laws.Fits.xor (m : Bool) (d : BitVec 5) (a : BitVec 5) (b : BitVec 5) : Statement (.xor m d a b) := by
  rintro _ ⟨⟩
  simp only [place, Instr.size]
  have := m.toNat_lt
  have := d.isLt
  have := a.isLt
  have := b.isLt
  omega
theorem Laws.Fits.andn (m : Bool) (d : BitVec 5) (a : BitVec 5) (b : BitVec 5) : Statement (.andn m d a b) := by
  rintro _ ⟨⟩
  simp only [place, Instr.size]
  have := m.toNat_lt
  have := d.isLt
  have := a.isLt
  have := b.isLt
  omega
theorem Laws.Fits.orn (m : Bool) (d : BitVec 5) (a : BitVec 5) (b : BitVec 5) : Statement (.orn m d a b) := by
  rintro _ ⟨⟩
  simp only [place, Instr.size]
  have := m.toNat_lt
  have := d.isLt
  have := a.isLt
  have := b.isLt
  omega
theorem Laws.Fits.xnor (m : Bool) (d : BitVec 5) (a : BitVec 5) (b : BitVec 5) : Statement (.xnor m d a b) := by
  rintro _ ⟨⟩
  simp only [place, Instr.size]
  have := m.toNat_lt
  have := d.isLt
  have := a.isLt
  have := b.isLt
  omega
theorem Laws.Fits.shl (m : Bool) (d : BitVec 5) (a : BitVec 5) (b : BitVec 5) : Statement (.shl m d a b) := by
  rintro _ ⟨⟩
  simp only [place, Instr.size]
  have := m.toNat_lt
  have := d.isLt
  have := a.isLt
  have := b.isLt
  omega
theorem Laws.Fits.shr (m : Bool) (d : BitVec 5) (a : BitVec 5) (b : BitVec 5) : Statement (.shr m d a b) := by
  rintro _ ⟨⟩
  simp only [place, Instr.size]
  have := m.toNat_lt
  have := d.isLt
  have := a.isLt
  have := b.isLt
  omega
theorem Laws.Fits.sra (m : Bool) (d : BitVec 5) (a : BitVec 5) (b : BitVec 5) : Statement (.sra m d a b) := by
  rintro _ ⟨⟩
  simp only [place, Instr.size]
  have := m.toNat_lt
  have := d.isLt
  have := a.isLt
  have := b.isLt
  omega
theorem Laws.Fits.rol (m : Bool) (d : BitVec 5) (a : BitVec 5) (b : BitVec 5) : Statement (.rol m d a b) := by
  rintro _ ⟨⟩
  simp only [place, Instr.size]
  have := m.toNat_lt
  have := d.isLt
  have := a.isLt
  have := b.isLt
  omega
theorem Laws.Fits.ror (m : Bool) (d : BitVec 5) (a : BitVec 5) (b : BitVec 5) : Statement (.ror m d a b) := by
  rintro _ ⟨⟩
  simp only [place, Instr.size]
  have := m.toNat_lt
  have := d.isLt
  have := a.isLt
  have := b.isLt
  omega
theorem Laws.Fits.minS (m : Bool) (d : BitVec 5) (a : BitVec 5) (b : BitVec 5) : Statement (.minS m d a b) := by
  rintro _ ⟨⟩
  simp only [place, Instr.size]
  have := m.toNat_lt
  have := d.isLt
  have := a.isLt
  have := b.isLt
  omega
theorem Laws.Fits.minZ (m : Bool) (d : BitVec 5) (a : BitVec 5) (b : BitVec 5) : Statement (.minZ m d a b) := by
  rintro _ ⟨⟩
  simp only [place, Instr.size]
  have := m.toNat_lt
  have := d.isLt
  have := a.isLt
  have := b.isLt
  omega
theorem Laws.Fits.maxS (m : Bool) (d : BitVec 5) (a : BitVec 5) (b : BitVec 5) : Statement (.maxS m d a b) := by
  rintro _ ⟨⟩
  simp only [place, Instr.size]
  have := m.toNat_lt
  have := d.isLt
  have := a.isLt
  have := b.isLt
  omega
theorem Laws.Fits.maxZ (m : Bool) (d : BitVec 5) (a : BitVec 5) (b : BitVec 5) : Statement (.maxZ m d a b) := by
  rintro _ ⟨⟩
  simp only [place, Instr.size]
  have := m.toNat_lt
  have := d.isLt
  have := a.isLt
  have := b.isLt
  omega
theorem Laws.Fits.addW (m : Bool) (d : BitVec 5) (a : BitVec 5) (b : BitVec 5) : Statement (.addW m d a b) := by
  rintro _ ⟨⟩
  simp only [place, Instr.size]
  have := m.toNat_lt
  have := d.isLt
  have := a.isLt
  have := b.isLt
  omega
theorem Laws.Fits.subW (m : Bool) (d : BitVec 5) (a : BitVec 5) (b : BitVec 5) : Statement (.subW m d a b) := by
  rintro _ ⟨⟩
  simp only [place, Instr.size]
  have := m.toNat_lt
  have := d.isLt
  have := a.isLt
  have := b.isLt
  omega
theorem Laws.Fits.shlW (m : Bool) (d : BitVec 5) (a : BitVec 5) (b : BitVec 5) : Statement (.shlW m d a b) := by
  rintro _ ⟨⟩
  simp only [place, Instr.size]
  have := m.toNat_lt
  have := d.isLt
  have := a.isLt
  have := b.isLt
  omega
theorem Laws.Fits.shrW (m : Bool) (d : BitVec 5) (a : BitVec 5) (b : BitVec 5) : Statement (.shrW m d a b) := by
  rintro _ ⟨⟩
  simp only [place, Instr.size]
  have := m.toNat_lt
  have := d.isLt
  have := a.isLt
  have := b.isLt
  omega
theorem Laws.Fits.sraW (m : Bool) (d : BitVec 5) (a : BitVec 5) (b : BitVec 5) : Statement (.sraW m d a b) := by
  rintro _ ⟨⟩
  simp only [place, Instr.size]
  have := m.toNat_lt
  have := d.isLt
  have := a.isLt
  have := b.isLt
  omega
theorem Laws.Fits.mul (m : Bool) (d : BitVec 5) (a : BitVec 5) (b : BitVec 5) : Statement (.mul m d a b) := by
  rintro _ ⟨⟩
  simp only [place, Instr.size]
  have := m.toNat_lt
  have := d.isLt
  have := a.isLt
  have := b.isLt
  omega
theorem Laws.Fits.mulhS (m : Bool) (d : BitVec 5) (a : BitVec 5) (b : BitVec 5) : Statement (.mulhS m d a b) := by
  rintro _ ⟨⟩
  simp only [place, Instr.size]
  have := m.toNat_lt
  have := d.isLt
  have := a.isLt
  have := b.isLt
  omega
theorem Laws.Fits.mulhZ (m : Bool) (d : BitVec 5) (a : BitVec 5) (b : BitVec 5) : Statement (.mulhZ m d a b) := by
  rintro _ ⟨⟩
  simp only [place, Instr.size]
  have := m.toNat_lt
  have := d.isLt
  have := a.isLt
  have := b.isLt
  omega
theorem Laws.Fits.mulhSz (m : Bool) (d : BitVec 5) (a : BitVec 5) (b : BitVec 5) : Statement (.mulhSz m d a b) := by
  rintro _ ⟨⟩
  simp only [place, Instr.size]
  have := m.toNat_lt
  have := d.isLt
  have := a.isLt
  have := b.isLt
  omega
theorem Laws.Fits.divS (m : Bool) (d : BitVec 5) (a : BitVec 5) (b : BitVec 5) : Statement (.divS m d a b) := by
  rintro _ ⟨⟩
  simp only [place, Instr.size]
  have := m.toNat_lt
  have := d.isLt
  have := a.isLt
  have := b.isLt
  omega
theorem Laws.Fits.divZ (m : Bool) (d : BitVec 5) (a : BitVec 5) (b : BitVec 5) : Statement (.divZ m d a b) := by
  rintro _ ⟨⟩
  simp only [place, Instr.size]
  have := m.toNat_lt
  have := d.isLt
  have := a.isLt
  have := b.isLt
  omega
theorem Laws.Fits.remS (m : Bool) (d : BitVec 5) (a : BitVec 5) (b : BitVec 5) : Statement (.remS m d a b) := by
  rintro _ ⟨⟩
  simp only [place, Instr.size]
  have := m.toNat_lt
  have := d.isLt
  have := a.isLt
  have := b.isLt
  omega
theorem Laws.Fits.remZ (m : Bool) (d : BitVec 5) (a : BitVec 5) (b : BitVec 5) : Statement (.remZ m d a b) := by
  rintro _ ⟨⟩
  simp only [place, Instr.size]
  have := m.toNat_lt
  have := d.isLt
  have := a.isLt
  have := b.isLt
  omega
theorem Laws.Fits.mulW (m : Bool) (d : BitVec 5) (a : BitVec 5) (b : BitVec 5) : Statement (.mulW m d a b) := by
  rintro _ ⟨⟩
  simp only [place, Instr.size]
  have := m.toNat_lt
  have := d.isLt
  have := a.isLt
  have := b.isLt
  omega
theorem Laws.Fits.clz (m : Bool) (d : BitVec 5) (a : BitVec 5) : Statement (.clz m d a) := by
  rintro _ ⟨⟩
  simp only [place, Instr.size]
  have := m.toNat_lt
  have := d.isLt
  have := a.isLt
  omega
theorem Laws.Fits.ctz (m : Bool) (d : BitVec 5) (a : BitVec 5) : Statement (.ctz m d a) := by
  rintro _ ⟨⟩
  simp only [place, Instr.size]
  have := m.toNat_lt
  have := d.isLt
  have := a.isLt
  omega
theorem Laws.Fits.popc (m : Bool) (d : BitVec 5) (a : BitVec 5) : Statement (.popc m d a) := by
  rintro _ ⟨⟩
  simp only [place, Instr.size]
  have := m.toNat_lt
  have := d.isLt
  have := a.isLt
  omega
theorem Laws.Fits.bswap (m : Bool) (d : BitVec 5) (a : BitVec 5) : Statement (.bswap m d a) := by
  rintro _ ⟨⟩
  simp only [place, Instr.size]
  have := m.toNat_lt
  have := d.isLt
  have := a.isLt
  omega
theorem Laws.Fits.brev (m : Bool) (d : BitVec 5) (a : BitVec 5) : Statement (.brev m d a) := by
  rintro _ ⟨⟩
  simp only [place, Instr.size]
  have := m.toNat_lt
  have := d.isLt
  have := a.isLt
  omega
theorem Laws.Fits.sextB (m : Bool) (d : BitVec 5) (a : BitVec 5) : Statement (.sextB m d a) := by
  rintro _ ⟨⟩
  simp only [place, Instr.size]
  have := m.toNat_lt
  have := d.isLt
  have := a.isLt
  omega
theorem Laws.Fits.sextH (m : Bool) (d : BitVec 5) (a : BitVec 5) : Statement (.sextH m d a) := by
  rintro _ ⟨⟩
  simp only [place, Instr.size]
  have := m.toNat_lt
  have := d.isLt
  have := a.isLt
  omega
theorem Laws.Fits.sextW (m : Bool) (d : BitVec 5) (a : BitVec 5) : Statement (.sextW m d a) := by
  rintro _ ⟨⟩
  simp only [place, Instr.size]
  have := m.toNat_lt
  have := d.isLt
  have := a.isLt
  omega
theorem Laws.Fits.zextB (m : Bool) (d : BitVec 5) (a : BitVec 5) : Statement (.zextB m d a) := by
  rintro _ ⟨⟩
  simp only [place, Instr.size]
  have := m.toNat_lt
  have := d.isLt
  have := a.isLt
  omega
theorem Laws.Fits.zextH (m : Bool) (d : BitVec 5) (a : BitVec 5) : Statement (.zextH m d a) := by
  rintro _ ⟨⟩
  simp only [place, Instr.size]
  have := m.toNat_lt
  have := d.isLt
  have := a.isLt
  omega
theorem Laws.Fits.zextW (m : Bool) (d : BitVec 5) (a : BitVec 5) : Statement (.zextW m d a) := by
  rintro _ ⟨⟩
  simp only [place, Instr.size]
  have := m.toNat_lt
  have := d.isLt
  have := a.isLt
  omega
theorem Laws.Fits.addi (m : Bool) (d : BitVec 5) (a : BitVec 5) (i : BitVec 14) : Statement (.addi m d a i) := by
  rintro _ ⟨⟩
  simp only [place, Instr.size]
  have := m.toNat_lt
  have := d.isLt
  have := a.isLt
  have := i.isLt
  omega
theorem Laws.Fits.andi (m : Bool) (d : BitVec 5) (a : BitVec 5) (i : BitVec 14) : Statement (.andi m d a i) := by
  rintro _ ⟨⟩
  simp only [place, Instr.size]
  have := m.toNat_lt
  have := d.isLt
  have := a.isLt
  have := i.isLt
  omega
theorem Laws.Fits.ori (m : Bool) (d : BitVec 5) (a : BitVec 5) (i : BitVec 14) : Statement (.ori m d a i) := by
  rintro _ ⟨⟩
  simp only [place, Instr.size]
  have := m.toNat_lt
  have := d.isLt
  have := a.isLt
  have := i.isLt
  omega
theorem Laws.Fits.xori (m : Bool) (d : BitVec 5) (a : BitVec 5) (i : BitVec 14) : Statement (.xori m d a i) := by
  rintro _ ⟨⟩
  simp only [place, Instr.size]
  have := m.toNat_lt
  have := d.isLt
  have := a.isLt
  have := i.isLt
  omega
theorem Laws.Fits.shli (m : Bool) (d : BitVec 5) (a : BitVec 5) (n : BitVec 6) : Statement (.shli m d a n) := by
  rintro _ ⟨⟩
  simp only [place, Instr.size]
  have := m.toNat_lt
  have := d.isLt
  have := a.isLt
  have := n.isLt
  omega
theorem Laws.Fits.shri (m : Bool) (d : BitVec 5) (a : BitVec 5) (n : BitVec 6) : Statement (.shri m d a n) := by
  rintro _ ⟨⟩
  simp only [place, Instr.size]
  have := m.toNat_lt
  have := d.isLt
  have := a.isLt
  have := n.isLt
  omega
theorem Laws.Fits.srai (m : Bool) (d : BitVec 5) (a : BitVec 5) (n : BitVec 6) : Statement (.srai m d a n) := by
  rintro _ ⟨⟩
  simp only [place, Instr.size]
  have := m.toNat_lt
  have := d.isLt
  have := a.isLt
  have := n.isLt
  omega
theorem Laws.Fits.roli (m : Bool) (d : BitVec 5) (a : BitVec 5) (n : BitVec 6) : Statement (.roli m d a n) := by
  rintro _ ⟨⟩
  simp only [place, Instr.size]
  have := m.toNat_lt
  have := d.isLt
  have := a.isLt
  have := n.isLt
  omega
theorem Laws.Fits.shliW (m : Bool) (d : BitVec 5) (a : BitVec 5) (n : BitVec 6) : Statement (.shliW m d a n) := by
  rintro _ ⟨⟩
  simp only [place, Instr.size]
  have := m.toNat_lt
  have := d.isLt
  have := a.isLt
  have := n.isLt
  omega
theorem Laws.Fits.shriW (m : Bool) (d : BitVec 5) (a : BitVec 5) (n : BitVec 6) : Statement (.shriW m d a n) := by
  rintro _ ⟨⟩
  simp only [place, Instr.size]
  have := m.toNat_lt
  have := d.isLt
  have := a.isLt
  have := n.isLt
  omega
theorem Laws.Fits.sraiW (m : Bool) (d : BitVec 5) (a : BitVec 5) (n : BitVec 6) : Statement (.sraiW m d a n) := by
  rintro _ ⟨⟩
  simp only [place, Instr.size]
  have := m.toNat_lt
  have := d.isLt
  have := a.isLt
  have := n.isLt
  omega
theorem Laws.Fits.lui (m : Bool) (d : BitVec 5) (i : BitVec 19) : Statement (.lui m d i) := by
  rintro _ ⟨⟩
  simp only [place, Instr.size]
  have := m.toNat_lt
  have := d.isLt
  have := i.isLt
  omega
theorem Laws.Fits.auipc (m : Bool) (d : BitVec 5) (i : BitVec 19) : Statement (.auipc m d i) := by
  rintro _ ⟨⟩
  simp only [place, Instr.size]
  have := m.toNat_lt
  have := d.isLt
  have := i.isLt
  omega
theorem Laws.Fits.lih (m : Bool) (d : BitVec 5) (i : BitVec 19) : Statement (.lih m d i) := by
  rintro _ ⟨⟩
  simp only [place, Instr.size]
  have := m.toNat_lt
  have := d.isLt
  have := i.isLt
  omega
theorem Laws.Fits.bfxZ (m : Bool) (d : BitVec 5) (a : BitVec 5) (p : BitVec 6) (l : BitVec 6) : Statement (.bfxZ m d a p l) := by
  rintro _ ⟨⟩
  simp only [place, Instr.size]
  have := m.toNat_lt
  have := d.isLt
  have := a.isLt
  have := p.isLt
  have := l.isLt
  omega
theorem Laws.Fits.bfxS (m : Bool) (d : BitVec 5) (a : BitVec 5) (p : BitVec 6) (l : BitVec 6) : Statement (.bfxS m d a p l) := by
  rintro _ ⟨⟩
  simp only [place, Instr.size]
  have := m.toNat_lt
  have := d.isLt
  have := a.isLt
  have := p.isLt
  have := l.isLt
  omega
theorem Laws.Fits.bfi (m : Bool) (d : BitVec 5) (a : BitVec 5) (p : BitVec 6) (l : BitVec 6) : Statement (.bfi m d a p l) := by
  rintro _ ⟨⟩
  simp only [place, Instr.size]
  have := m.toNat_lt
  have := d.isLt
  have := a.isLt
  have := p.isLt
  have := l.isLt
  omega
theorem Laws.Fits.cmp (m : Bool) (p : BitVec 4) (a : BitVec 5) (b : BitVec 5) (c : BitVec 9) : Statement (.cmp m p a b c) := by
  rintro _ ⟨⟩
  simp only [place, Instr.size]
  have := m.toNat_lt
  have := p.isLt
  have := a.isLt
  have := b.isLt
  have := c.isLt
  omega
theorem Laws.Fits.cmpi (m : Bool) (p : BitVec 4) (a : BitVec 5) (c : BitVec 4) (i : BitVec 10) : Statement (.cmpi m p a c i) := by
  rintro _ ⟨⟩
  simp only [place, Instr.size]
  have := m.toNat_lt
  have := p.isLt
  have := a.isLt
  have := c.isLt
  have := i.isLt
  omega
theorem Laws.Fits.pand (m : Bool) (d : BitVec 4) (a : BitVec 4) (b : BitVec 4) : Statement (.pand m d a b) := by
  rintro _ ⟨⟩
  simp only [place, Instr.size]
  have := m.toNat_lt
  have := d.isLt
  have := a.isLt
  have := b.isLt
  omega
theorem Laws.Fits.por (m : Bool) (d : BitVec 4) (a : BitVec 4) (b : BitVec 4) : Statement (.por m d a b) := by
  rintro _ ⟨⟩
  simp only [place, Instr.size]
  have := m.toNat_lt
  have := d.isLt
  have := a.isLt
  have := b.isLt
  omega
theorem Laws.Fits.pxor (m : Bool) (d : BitVec 4) (a : BitVec 4) (b : BitVec 4) : Statement (.pxor m d a b) := by
  rintro _ ⟨⟩
  simp only [place, Instr.size]
  have := m.toNat_lt
  have := d.isLt
  have := a.isLt
  have := b.isLt
  omega
theorem Laws.Fits.pandn (m : Bool) (d : BitVec 4) (a : BitVec 4) (b : BitVec 4) : Statement (.pandn m d a b) := by
  rintro _ ⟨⟩
  simp only [place, Instr.size]
  have := m.toNat_lt
  have := d.isLt
  have := a.isLt
  have := b.isLt
  omega
theorem Laws.Fits.pnot (m : Bool) (d : BitVec 4) (a : BitVec 4) : Statement (.pnot m d a) := by
  rintro _ ⟨⟩
  simp only [place, Instr.size]
  have := m.toNat_lt
  have := d.isLt
  have := a.isLt
  omega
theorem Laws.Fits.prd (m : Bool) (d : BitVec 5) (q : BitVec 4) : Statement (.prd m d q) := by
  rintro _ ⟨⟩
  simp only [place, Instr.size]
  have := m.toNat_lt
  have := d.isLt
  have := q.isLt
  omega
theorem Laws.Fits.pwr (m : Bool) (a : BitVec 5) (q : BitVec 4) : Statement (.pwr m a q) := by
  rintro _ ⟨⟩
  simp only [place, Instr.size]
  have := m.toNat_lt
  have := a.isLt
  have := q.isLt
  omega
theorem Laws.Fits.sel (m : Bool) (d : BitVec 5) (a : BitVec 5) (b : BitVec 5) (q : BitVec 4) : Statement (.sel m d a b q) := by
  rintro _ ⟨⟩
  simp only [place, Instr.size]
  have := m.toNat_lt
  have := d.isLt
  have := a.isLt
  have := b.isLt
  have := q.isLt
  omega
theorem Laws.Fits.j (m : Bool) (i : BitVec 24) : Statement (.j m i) := by
  rintro _ ⟨⟩
  simp only [place, Instr.size]
  have := m.toNat_lt
  have := i.isLt
  omega
theorem Laws.Fits.call (m : Bool) (i : BitVec 24) : Statement (.call m i) := by
  rintro _ ⟨⟩
  simp only [place, Instr.size]
  have := m.toNat_lt
  have := i.isLt
  omega
theorem Laws.Fits.bp (m : Bool) (p : BitVec 4) (i : BitVec 19) : Statement (.bp m p i) := by
  rintro _ ⟨⟩
  simp only [place, Instr.size]
  have := m.toNat_lt
  have := p.isLt
  have := i.isLt
  omega
theorem Laws.Fits.bnp (m : Bool) (p : BitVec 4) (i : BitVec 19) : Statement (.bnp m p i) := by
  rintro _ ⟨⟩
  simp only [place, Instr.size]
  have := m.toNat_lt
  have := p.isLt
  have := i.isLt
  omega
theorem Laws.Fits.jr (m : Bool) (a : BitVec 5) : Statement (.jr m a) := by
  rintro _ ⟨⟩
  simp only [place, Instr.size]
  have := m.toNat_lt
  have := a.isLt
  omega
theorem Laws.Fits.callr (m : Bool) (a : BitVec 5) : Statement (.callr m a) := by
  rintro _ ⟨⟩
  simp only [place, Instr.size]
  have := m.toNat_lt
  have := a.isLt
  omega
theorem Laws.Fits.ret (m : Bool) : Statement (.ret m) := by
  rintro _ ⟨⟩
  simp only [place, Instr.size]
  have := m.toNat_lt
  omega
theorem Laws.Fits.bz (m : Bool) (oLo : BitVec 5) (a : BitVec 5) (o : BitVec 14) : Statement (.bz m oLo a o) := by
  rintro _ ⟨⟩
  simp only [place, Instr.size]
  have := m.toNat_lt
  have := oLo.isLt
  have := a.isLt
  have := o.isLt
  omega
theorem Laws.Fits.bnz (m : Bool) (oLo : BitVec 5) (a : BitVec 5) (o : BitVec 14) : Statement (.bnz m oLo a o) := by
  rintro _ ⟨⟩
  simp only [place, Instr.size]
  have := m.toNat_lt
  have := oLo.isLt
  have := a.isLt
  have := o.isLt
  omega
theorem Laws.Fits.nop (m : Bool) : Statement (.nop m) := by
  rintro _ ⟨⟩
  simp only [place, Instr.size]
  have := m.toNat_lt
  omega
theorem Laws.Fits.yield (m : Bool) : Statement (.yield m) := by
  rintro _ ⟨⟩
  simp only [place, Instr.size]
  have := m.toNat_lt
  omega
theorem Laws.Fits.exit (m : Bool) : Statement (.exit m) := by
  rintro _ ⟨⟩
  simp only [place, Instr.size]
  have := m.toNat_lt
  omega
theorem Laws.Fits.sleep (m : Bool) (a : BitVec 5) : Statement (.sleep m a) := by
  rintro _ ⟨⟩
  simp only [place, Instr.size]
  have := m.toNat_lt
  have := a.isLt
  omega
theorem Laws.Fits.cMv (m : Bool) (a : BitVec 5) (b : BitVec 5) : Statement (.cMv m a b) := by
  rintro _ ⟨⟩
  simp only [place, Instr.size]
  have := m.toNat_lt
  have := a.isLt
  have := b.isLt
  omega
theorem Laws.Fits.cAdd (m : Bool) (a : BitVec 5) (b : BitVec 5) : Statement (.cAdd m a b) := by
  rintro _ ⟨⟩
  simp only [place, Instr.size]
  have := m.toNat_lt
  have := a.isLt
  have := b.isLt
  omega
theorem Laws.Fits.cSub (m : Bool) (a : BitVec 5) (b : BitVec 5) : Statement (.cSub m a b) := by
  rintro _ ⟨⟩
  simp only [place, Instr.size]
  have := m.toNat_lt
  have := a.isLt
  have := b.isLt
  omega
theorem Laws.Fits.cAnd (m : Bool) (a : BitVec 5) (b : BitVec 5) : Statement (.cAnd m a b) := by
  rintro _ ⟨⟩
  simp only [place, Instr.size]
  have := m.toNat_lt
  have := a.isLt
  have := b.isLt
  omega
theorem Laws.Fits.cOr (m : Bool) (a : BitVec 5) (b : BitVec 5) : Statement (.cOr m a b) := by
  rintro _ ⟨⟩
  simp only [place, Instr.size]
  have := m.toNat_lt
  have := a.isLt
  have := b.isLt
  omega
theorem Laws.Fits.cXor (m : Bool) (a : BitVec 5) (b : BitVec 5) : Statement (.cXor m a b) := by
  rintro _ ⟨⟩
  simp only [place, Instr.size]
  have := m.toNat_lt
  have := a.isLt
  have := b.isLt
  omega
theorem Laws.Fits.cShli (m : Bool) (a : BitVec 5) (n : BitVec 5) : Statement (.cShli m a n) := by
  rintro _ ⟨⟩
  simp only [place, Instr.size]
  have := m.toNat_lt
  have := a.isLt
  have := n.isLt
  omega
theorem Laws.Fits.cShri (m : Bool) (a : BitVec 5) (n : BitVec 5) : Statement (.cShri m a n) := by
  rintro _ ⟨⟩
  simp only [place, Instr.size]
  have := m.toNat_lt
  have := a.isLt
  have := n.isLt
  omega
theorem Laws.Fits.cSrai (m : Bool) (a : BitVec 5) (n : BitVec 5) : Statement (.cSrai m a n) := by
  rintro _ ⟨⟩
  simp only [place, Instr.size]
  have := m.toNat_lt
  have := a.isLt
  have := n.isLt
  omega
theorem Laws.Fits.cAddi (m : Bool) (a : BitVec 5) (n : BitVec 5) : Statement (.cAddi m a n) := by
  rintro _ ⟨⟩
  simp only [place, Instr.size]
  have := m.toNat_lt
  have := a.isLt
  have := n.isLt
  omega
theorem Laws.Fits.cLi (m : Bool) (a : BitVec 5) (n : BitVec 5) : Statement (.cLi m a n) := by
  rintro _ ⟨⟩
  simp only [place, Instr.size]
  have := m.toNat_lt
  have := a.isLt
  have := n.isLt
  omega
theorem Laws.Fits.cLd (m : Bool) (a : BitVec 5) (b : BitVec 5) : Statement (.cLd m a b) := by
  rintro _ ⟨⟩
  simp only [place, Instr.size]
  have := m.toNat_lt
  have := a.isLt
  have := b.isLt
  omega
theorem Laws.Fits.cSt (m : Bool) (a : BitVec 5) (b : BitVec 5) : Statement (.cSt m a b) := by
  rintro _ ⟨⟩
  simp only [place, Instr.size]
  have := m.toNat_lt
  have := a.isLt
  have := b.isLt
  omega
theorem Laws.Fits.cCmpeq (m : Bool) (a : BitVec 5) (b : BitVec 5) : Statement (.cCmpeq m a b) := by
  rintro _ ⟨⟩
  simp only [place, Instr.size]
  have := m.toNat_lt
  have := a.isLt
  have := b.isLt
  omega
theorem Laws.Fits.cCmplt (m : Bool) (a : BitVec 5) (b : BitVec 5) : Statement (.cCmplt m a b) := by
  rintro _ ⟨⟩
  simp only [place, Instr.size]
  have := m.toNat_lt
  have := a.isLt
  have := b.isLt
  omega
theorem Laws.Fits.cBp1 (m : Bool) (o : BitVec 10) : Statement (.cBp1 m o) := by
  rintro _ ⟨⟩
  simp only [place, Instr.size]
  have := m.toNat_lt
  have := o.isLt
  omega
theorem Laws.Fits.ld (m : Bool) (d : BitVec 5) (a : BitVec 5) (f : BitVec 3) (i : BitVec 11) : Statement (.ld m d a f i) := by
  rintro _ ⟨⟩
  simp only [place, Instr.size]
  have := m.toNat_lt
  have := d.isLt
  have := a.isLt
  have := f.isLt
  have := i.isLt
  omega
theorem Laws.Fits.ldr (m : Bool) (d : BitVec 5) (a : BitVec 5) (f : BitVec 3) (i : BitVec 11) : Statement (.ldr m d a f i) := by
  rintro _ ⟨⟩
  simp only [place, Instr.size]
  have := m.toNat_lt
  have := d.isLt
  have := a.isLt
  have := f.isLt
  have := i.isLt
  omega
theorem Laws.Fits.st (m : Bool) (d : BitVec 5) (a : BitVec 5) (f : BitVec 3) (i : BitVec 11) : Statement (.st m d a f i) := by
  rintro _ ⟨⟩
  simp only [place, Instr.size]
  have := m.toNat_lt
  have := d.isLt
  have := a.isLt
  have := f.isLt
  have := i.isLt
  omega
theorem Laws.Fits.str (m : Bool) (d : BitVec 5) (a : BitVec 5) (f : BitVec 3) (i : BitVec 11) : Statement (.str m d a f i) := by
  rintro _ ⟨⟩
  simp only [place, Instr.size]
  have := m.toNat_lt
  have := d.isLt
  have := a.isLt
  have := f.isLt
  have := i.isLt
  omega
theorem Laws.Fits.ldfe (m : Bool) (d : BitVec 5) (a : BitVec 5) (i : BitVec 11) : Statement (.ldfe m d a i) := by
  rintro _ ⟨⟩
  simp only [place, Instr.size]
  have := m.toNat_lt
  have := d.isLt
  have := a.isLt
  have := i.isLt
  omega
theorem Laws.Fits.ldff (m : Bool) (d : BitVec 5) (a : BitVec 5) (i : BitVec 11) : Statement (.ldff m d a i) := by
  rintro _ ⟨⟩
  simp only [place, Instr.size]
  have := m.toNat_lt
  have := d.isLt
  have := a.isLt
  have := i.isLt
  omega
theorem Laws.Fits.stef (m : Bool) (d : BitVec 5) (a : BitVec 5) (i : BitVec 11) : Statement (.stef m d a i) := by
  rintro _ ⟨⟩
  simp only [place, Instr.size]
  have := m.toNat_lt
  have := d.isLt
  have := a.isLt
  have := i.isLt
  omega
theorem Laws.Fits.stff (m : Bool) (d : BitVec 5) (a : BitVec 5) (i : BitVec 11) : Statement (.stff m d a i) := by
  rintro _ ⟨⟩
  simp only [place, Instr.size]
  have := m.toNat_lt
  have := d.isLt
  have := a.isLt
  have := i.isLt
  omega
theorem Laws.Fits.feprobe (m : Bool) (d : BitVec 5) (a : BitVec 5) (i : BitVec 11) : Statement (.feprobe m d a i) := by
  rintro _ ⟨⟩
  simp only [place, Instr.size]
  have := m.toNat_lt
  have := d.isLt
  have := a.isLt
  have := i.isLt
  omega
theorem Laws.Fits.feset (m : Bool) (d : BitVec 5) (a : BitVec 5) (i : BitVec 11) : Statement (.feset m d a i) := by
  rintro _ ⟨⟩
  simp only [place, Instr.size]
  have := m.toNat_lt
  have := d.isLt
  have := a.isLt
  have := i.isLt
  omega
theorem Laws.Fits.migrate (m : Bool) (a : BitVec 5) (i : BitVec 11) : Statement (.migrate m a i) := by
  rintro _ ⟨⟩
  simp only [place, Instr.size]
  have := m.toNat_lt
  have := a.isLt
  have := i.isLt
  omega
theorem Laws.Fits.pin (m : Bool) : Statement (.pin m) := by
  rintro _ ⟨⟩
  simp only [place, Instr.size]
  have := m.toNat_lt
  omega
theorem Laws.Fits.unpin (m : Bool) : Statement (.unpin m) := by
  rintro _ ⟨⟩
  simp only [place, Instr.size]
  have := m.toNat_lt
  omega
theorem Laws.Fits.home (m : Bool) : Statement (.home m) := by
  rintro _ ⟨⟩
  simp only [place, Instr.size]
  have := m.toNat_lt
  omega
theorem Laws.Fits.here (m : Bool) (d : BitVec 5) : Statement (.here m d) := by
  rintro _ ⟨⟩
  simp only [place, Instr.size]
  have := m.toNat_lt
  have := d.isLt
  omega
theorem Laws.Fits.ramo (m : Bool) (a : BitVec 5) (b : BitVec 5) (p : BitVec 4) (z : BitVec 2) (o : BitVec 3) : Statement (.ramo m a b p z o) := by
  rintro _ ⟨⟩
  simp only [place, Instr.size]
  have := m.toNat_lt
  have := a.isLt
  have := b.isLt
  have := p.isLt
  have := z.isLt
  have := o.isLt
  omega
theorem Laws.Fits.amo (m : Bool) (d : BitVec 5) (a : BitVec 5) (b : BitVec 5) (p : BitVec 4) (z : BitVec 2) (o : BitVec 3) : Statement (.amo m d a b p z o) := by
  rintro _ ⟨⟩
  simp only [place, Instr.size]
  have := m.toNat_lt
  have := d.isLt
  have := a.isLt
  have := b.isLt
  have := p.isLt
  have := z.isLt
  have := o.isLt
  omega
theorem Laws.Fits.cas (m : Bool) (d : BitVec 5) (a : BitVec 5) (b : BitVec 5) (c : BitVec 5) (z : BitVec 1) (o : BitVec 2) : Statement (.cas m d a b c z o) := by
  rintro _ ⟨⟩
  simp only [place, Instr.size]
  have := m.toNat_lt
  have := d.isLt
  have := a.isLt
  have := b.isLt
  have := c.isLt
  have := z.isLt
  have := o.isLt
  omega
theorem Laws.Fits.fence (m : Bool) (s : BitVec 3) (k : BitVec 3) : Statement (.fence m s k) := by
  rintro _ ⟨⟩
  simp only [place, Instr.size]
  have := m.toNat_lt
  have := s.isLt
  have := k.isLt
  omega
theorem Laws.Fits.barInit (m : Bool) (a : BitVec 5) (b : BitVec 5) : Statement (.barInit m a b) := by
  rintro _ ⟨⟩
  simp only [place, Instr.size]
  have := m.toNat_lt
  have := a.isLt
  have := b.isLt
  omega
theorem Laws.Fits.barArr (m : Bool) (d : BitVec 5) (a : BitVec 5) (b : BitVec 5) : Statement (.barArr m d a b) := by
  rintro _ ⟨⟩
  simp only [place, Instr.size]
  have := m.toNat_lt
  have := d.isLt
  have := a.isLt
  have := b.isLt
  omega
theorem Laws.Fits.barWait (m : Bool) (d : BitVec 5) (a : BitVec 5) (b : BitVec 5) : Statement (.barWait m d a b) := by
  rintro _ ⟨⟩
  simp only [place, Instr.size]
  have := m.toNat_lt
  have := d.isLt
  have := a.isLt
  have := b.isLt
  omega
theorem Laws.Fits.barArrw (m : Bool) (d : BitVec 5) (a : BitVec 5) (b : BitVec 5) : Statement (.barArrw m d a b) := by
  rintro _ ⟨⟩
  simp only [place, Instr.size]
  have := m.toNat_lt
  have := d.isLt
  have := a.isLt
  have := b.isLt
  omega
theorem Laws.Fits.barCmb (m : Bool) (d : BitVec 5) (a : BitVec 5) (b : BitVec 5) : Statement (.barCmb m d a b) := by
  rintro _ ⟨⟩
  simp only [place, Instr.size]
  have := m.toNat_lt
  have := d.isLt
  have := a.isLt
  have := b.isLt
  omega
theorem Laws.Fits.barCmbw (m : Bool) (d : BitVec 5) (a : BitVec 5) (b : BitVec 5) : Statement (.barCmbw m d a b) := by
  rintro _ ⟨⟩
  simp only [place, Instr.size]
  have := m.toNat_lt
  have := d.isLt
  have := a.isLt
  have := b.isLt
  omega
theorem Laws.Fits.hbar (m : Bool) (l : BitVec 3) : Statement (.hbar m l) := by
  rintro _ ⟨⟩
  simp only [place, Instr.size]
  have := m.toNat_lt
  have := l.isLt
  omega
theorem Laws.Fits.hbarCmb (m : Bool) (d : BitVec 5) (a : BitVec 5) (l : BitVec 3) (o : BitVec 3) : Statement (.hbarCmb m d a l o) := by
  rintro _ ⟨⟩
  simp only [place, Instr.size]
  have := m.toNat_lt
  have := d.isLt
  have := a.isLt
  have := l.isLt
  have := o.isLt
  omega
theorem Laws.Fits.time (m : Bool) (d : BitVec 5) : Statement (.time m d) := by
  rintro _ ⟨⟩
  simp only [place, Instr.size]
  have := m.toNat_lt
  have := d.isLt
  omega
theorem Laws.Fits.waitt (m : Bool) (a : BitVec 5) : Statement (.waitt m a) := by
  rintro _ ⟨⟩
  simp only [place, Instr.size]
  have := m.toNat_lt
  have := a.isLt
  omega
theorem Laws.Fits.cycle (m : Bool) (d : BitVec 5) : Statement (.cycle m d) := by
  rintro _ ⟨⟩
  simp only [place, Instr.size]
  have := m.toNat_lt
  have := d.isLt
  omega
theorem Laws.Fits.fadd (m : Bool) (d : BitVec 5) (a : BitVec 5) (b : BitVec 5) (f : BitVec 2) (r : BitVec 3) : Statement (.fadd m d a b f r) := by
  rintro _ ⟨⟩
  simp only [place, Instr.size]
  have := m.toNat_lt
  have := d.isLt
  have := a.isLt
  have := b.isLt
  have := f.isLt
  have := r.isLt
  omega
theorem Laws.Fits.fsub (m : Bool) (d : BitVec 5) (a : BitVec 5) (b : BitVec 5) (f : BitVec 2) (r : BitVec 3) : Statement (.fsub m d a b f r) := by
  rintro _ ⟨⟩
  simp only [place, Instr.size]
  have := m.toNat_lt
  have := d.isLt
  have := a.isLt
  have := b.isLt
  have := f.isLt
  have := r.isLt
  omega
theorem Laws.Fits.fmul (m : Bool) (d : BitVec 5) (a : BitVec 5) (b : BitVec 5) (f : BitVec 2) (r : BitVec 3) : Statement (.fmul m d a b f r) := by
  rintro _ ⟨⟩
  simp only [place, Instr.size]
  have := m.toNat_lt
  have := d.isLt
  have := a.isLt
  have := b.isLt
  have := f.isLt
  have := r.isLt
  omega
theorem Laws.Fits.fdiv (m : Bool) (d : BitVec 5) (a : BitVec 5) (b : BitVec 5) (f : BitVec 2) (r : BitVec 3) : Statement (.fdiv m d a b f r) := by
  rintro _ ⟨⟩
  simp only [place, Instr.size]
  have := m.toNat_lt
  have := d.isLt
  have := a.isLt
  have := b.isLt
  have := f.isLt
  have := r.isLt
  omega
theorem Laws.Fits.fsqrt (m : Bool) (d : BitVec 5) (a : BitVec 5) (f : BitVec 2) (r : BitVec 3) : Statement (.fsqrt m d a f r) := by
  rintro _ ⟨⟩
  simp only [place, Instr.size]
  have := m.toNat_lt
  have := d.isLt
  have := a.isLt
  have := f.isLt
  have := r.isLt
  omega
theorem Laws.Fits.fmin (m : Bool) (d : BitVec 5) (a : BitVec 5) (b : BitVec 5) (f : BitVec 2) : Statement (.fmin m d a b f) := by
  rintro _ ⟨⟩
  simp only [place, Instr.size]
  have := m.toNat_lt
  have := d.isLt
  have := a.isLt
  have := b.isLt
  have := f.isLt
  omega
theorem Laws.Fits.fmax (m : Bool) (d : BitVec 5) (a : BitVec 5) (b : BitVec 5) (f : BitVec 2) : Statement (.fmax m d a b f) := by
  rintro _ ⟨⟩
  simp only [place, Instr.size]
  have := m.toNat_lt
  have := d.isLt
  have := a.isLt
  have := b.isLt
  have := f.isLt
  omega
theorem Laws.Fits.fsgnj (m : Bool) (d : BitVec 5) (a : BitVec 5) (b : BitVec 5) (f : BitVec 2) : Statement (.fsgnj m d a b f) := by
  rintro _ ⟨⟩
  simp only [place, Instr.size]
  have := m.toNat_lt
  have := d.isLt
  have := a.isLt
  have := b.isLt
  have := f.isLt
  omega
theorem Laws.Fits.fsgnjn (m : Bool) (d : BitVec 5) (a : BitVec 5) (b : BitVec 5) (f : BitVec 2) : Statement (.fsgnjn m d a b f) := by
  rintro _ ⟨⟩
  simp only [place, Instr.size]
  have := m.toNat_lt
  have := d.isLt
  have := a.isLt
  have := b.isLt
  have := f.isLt
  omega
theorem Laws.Fits.fsgnjx (m : Bool) (d : BitVec 5) (a : BitVec 5) (b : BitVec 5) (f : BitVec 2) : Statement (.fsgnjx m d a b f) := by
  rintro _ ⟨⟩
  simp only [place, Instr.size]
  have := m.toNat_lt
  have := d.isLt
  have := a.isLt
  have := b.isLt
  have := f.isLt
  omega
theorem Laws.Fits.fclass (m : Bool) (d : BitVec 5) (a : BitVec 5) (f : BitVec 2) : Statement (.fclass m d a f) := by
  rintro _ ⟨⟩
  simp only [place, Instr.size]
  have := m.toNat_lt
  have := d.isLt
  have := a.isLt
  have := f.isLt
  omega
theorem Laws.Fits.fma (m : Bool) (d : BitVec 5) (a : BitVec 5) (b : BitVec 5) (c : BitVec 5) (f : BitVec 2) : Statement (.fma m d a b c f) := by
  rintro _ ⟨⟩
  simp only [place, Instr.size]
  have := m.toNat_lt
  have := d.isLt
  have := a.isLt
  have := b.isLt
  have := c.isLt
  have := f.isLt
  omega
theorem Laws.Fits.fms (m : Bool) (d : BitVec 5) (a : BitVec 5) (b : BitVec 5) (c : BitVec 5) (f : BitVec 2) : Statement (.fms m d a b c f) := by
  rintro _ ⟨⟩
  simp only [place, Instr.size]
  have := m.toNat_lt
  have := d.isLt
  have := a.isLt
  have := b.isLt
  have := c.isLt
  have := f.isLt
  omega
theorem Laws.Fits.fnma (m : Bool) (d : BitVec 5) (a : BitVec 5) (b : BitVec 5) (c : BitVec 5) (f : BitVec 2) : Statement (.fnma m d a b c f) := by
  rintro _ ⟨⟩
  simp only [place, Instr.size]
  have := m.toNat_lt
  have := d.isLt
  have := a.isLt
  have := b.isLt
  have := c.isLt
  have := f.isLt
  omega
theorem Laws.Fits.fnms (m : Bool) (d : BitVec 5) (a : BitVec 5) (b : BitVec 5) (c : BitVec 5) (f : BitVec 2) : Statement (.fnms m d a b c f) := by
  rintro _ ⟨⟩
  simp only [place, Instr.size]
  have := m.toNat_lt
  have := d.isLt
  have := a.isLt
  have := b.isLt
  have := c.isLt
  have := f.isLt
  omega
theorem Laws.Fits.fcmp (m : Bool) (p : BitVec 4) (a : BitVec 5) (b : BitVec 5) (c : BitVec 4) (f : BitVec 2) : Statement (.fcmp m p a b c f) := by
  rintro _ ⟨⟩
  simp only [place, Instr.size]
  have := m.toNat_lt
  have := p.isLt
  have := a.isLt
  have := b.isLt
  have := c.isLt
  have := f.isLt
  omega
theorem Laws.Fits.fcvt (m : Bool) (d : BitVec 5) (a : BitVec 5) (f : BitVec 4) (o : BitVec 4) (r : BitVec 3) (u : BitVec 1) : Statement (.fcvt m d a f o r u) := by
  rintro _ ⟨⟩
  simp only [place, Instr.size]
  have := m.toNat_lt
  have := d.isLt
  have := a.isLt
  have := f.isLt
  have := o.isLt
  have := r.isLt
  have := u.isLt
  omega
theorem Laws.Fits.vadd (m : Bool) (d : BitVec 3) (k : BitVec 2) (a : BitVec 3) (b : BitVec 3) (t : BitVec 4) : Statement (.vadd m d k a b t) := by
  rintro _ ⟨⟩
  simp only [place, Instr.size]
  have := m.toNat_lt
  have := d.isLt
  have := k.isLt
  have := a.isLt
  have := b.isLt
  have := t.isLt
  omega
theorem Laws.Fits.vsub (m : Bool) (d : BitVec 3) (k : BitVec 2) (a : BitVec 3) (b : BitVec 3) (t : BitVec 4) : Statement (.vsub m d k a b t) := by
  rintro _ ⟨⟩
  simp only [place, Instr.size]
  have := m.toNat_lt
  have := d.isLt
  have := k.isLt
  have := a.isLt
  have := b.isLt
  have := t.isLt
  omega
theorem Laws.Fits.vmul (m : Bool) (d : BitVec 3) (k : BitVec 2) (a : BitVec 3) (b : BitVec 3) (t : BitVec 4) : Statement (.vmul m d k a b t) := by
  rintro _ ⟨⟩
  simp only [place, Instr.size]
  have := m.toNat_lt
  have := d.isLt
  have := k.isLt
  have := a.isLt
  have := b.isLt
  have := t.isLt
  omega
theorem Laws.Fits.vmulh (m : Bool) (d : BitVec 3) (k : BitVec 2) (a : BitVec 3) (b : BitVec 3) (t : BitVec 4) : Statement (.vmulh m d k a b t) := by
  rintro _ ⟨⟩
  simp only [place, Instr.size]
  have := m.toNat_lt
  have := d.isLt
  have := k.isLt
  have := a.isLt
  have := b.isLt
  have := t.isLt
  omega
theorem Laws.Fits.vmin (m : Bool) (d : BitVec 3) (k : BitVec 2) (a : BitVec 3) (b : BitVec 3) (t : BitVec 4) : Statement (.vmin m d k a b t) := by
  rintro _ ⟨⟩
  simp only [place, Instr.size]
  have := m.toNat_lt
  have := d.isLt
  have := k.isLt
  have := a.isLt
  have := b.isLt
  have := t.isLt
  omega
theorem Laws.Fits.vmax (m : Bool) (d : BitVec 3) (k : BitVec 2) (a : BitVec 3) (b : BitVec 3) (t : BitVec 4) : Statement (.vmax m d k a b t) := by
  rintro _ ⟨⟩
  simp only [place, Instr.size]
  have := m.toNat_lt
  have := d.isLt
  have := k.isLt
  have := a.isLt
  have := b.isLt
  have := t.isLt
  omega
theorem Laws.Fits.vand (m : Bool) (d : BitVec 3) (k : BitVec 2) (a : BitVec 3) (b : BitVec 3) (t : BitVec 4) : Statement (.vand m d k a b t) := by
  rintro _ ⟨⟩
  simp only [place, Instr.size]
  have := m.toNat_lt
  have := d.isLt
  have := k.isLt
  have := a.isLt
  have := b.isLt
  have := t.isLt
  omega
theorem Laws.Fits.vor (m : Bool) (d : BitVec 3) (k : BitVec 2) (a : BitVec 3) (b : BitVec 3) (t : BitVec 4) : Statement (.vor m d k a b t) := by
  rintro _ ⟨⟩
  simp only [place, Instr.size]
  have := m.toNat_lt
  have := d.isLt
  have := k.isLt
  have := a.isLt
  have := b.isLt
  have := t.isLt
  omega
theorem Laws.Fits.vxor (m : Bool) (d : BitVec 3) (k : BitVec 2) (a : BitVec 3) (b : BitVec 3) (t : BitVec 4) : Statement (.vxor m d k a b t) := by
  rintro _ ⟨⟩
  simp only [place, Instr.size]
  have := m.toNat_lt
  have := d.isLt
  have := k.isLt
  have := a.isLt
  have := b.isLt
  have := t.isLt
  omega
theorem Laws.Fits.vshl (m : Bool) (d : BitVec 3) (k : BitVec 2) (a : BitVec 3) (b : BitVec 3) (t : BitVec 4) : Statement (.vshl m d k a b t) := by
  rintro _ ⟨⟩
  simp only [place, Instr.size]
  have := m.toNat_lt
  have := d.isLt
  have := k.isLt
  have := a.isLt
  have := b.isLt
  have := t.isLt
  omega
theorem Laws.Fits.vshr (m : Bool) (d : BitVec 3) (k : BitVec 2) (a : BitVec 3) (b : BitVec 3) (t : BitVec 4) : Statement (.vshr m d k a b t) := by
  rintro _ ⟨⟩
  simp only [place, Instr.size]
  have := m.toNat_lt
  have := d.isLt
  have := k.isLt
  have := a.isLt
  have := b.isLt
  have := t.isLt
  omega
theorem Laws.Fits.vsra (m : Bool) (d : BitVec 3) (k : BitVec 2) (a : BitVec 3) (b : BitVec 3) (t : BitVec 4) : Statement (.vsra m d k a b t) := by
  rintro _ ⟨⟩
  simp only [place, Instr.size]
  have := m.toNat_lt
  have := d.isLt
  have := k.isLt
  have := a.isLt
  have := b.isLt
  have := t.isLt
  omega
theorem Laws.Fits.vabs (m : Bool) (d : BitVec 3) (k : BitVec 2) (a : BitVec 3) (t : BitVec 4) : Statement (.vabs m d k a t) := by
  rintro _ ⟨⟩
  simp only [place, Instr.size]
  have := m.toNat_lt
  have := d.isLt
  have := k.isLt
  have := a.isLt
  have := t.isLt
  omega
theorem Laws.Fits.vneg (m : Bool) (d : BitVec 3) (k : BitVec 2) (a : BitVec 3) (t : BitVec 4) : Statement (.vneg m d k a t) := by
  rintro _ ⟨⟩
  simp only [place, Instr.size]
  have := m.toNat_lt
  have := d.isLt
  have := k.isLt
  have := a.isLt
  have := t.isLt
  omega
theorem Laws.Fits.vfma (m : Bool) (d : BitVec 3) (k : BitVec 2) (a : BitVec 3) (b : BitVec 3) (t : BitVec 4) : Statement (.vfma m d k a b t) := by
  rintro _ ⟨⟩
  simp only [place, Instr.size]
  have := m.toNat_lt
  have := d.isLt
  have := k.isLt
  have := a.isLt
  have := b.isLt
  have := t.isLt
  omega
theorem Laws.Fits.vfms (m : Bool) (d : BitVec 3) (k : BitVec 2) (a : BitVec 3) (b : BitVec 3) (t : BitVec 4) : Statement (.vfms m d k a b t) := by
  rintro _ ⟨⟩
  simp only [place, Instr.size]
  have := m.toNat_lt
  have := d.isLt
  have := k.isLt
  have := a.isLt
  have := b.isLt
  have := t.isLt
  omega
theorem Laws.Fits.vfnma (m : Bool) (d : BitVec 3) (k : BitVec 2) (a : BitVec 3) (b : BitVec 3) (t : BitVec 4) : Statement (.vfnma m d k a b t) := by
  rintro _ ⟨⟩
  simp only [place, Instr.size]
  have := m.toNat_lt
  have := d.isLt
  have := k.isLt
  have := a.isLt
  have := b.isLt
  have := t.isLt
  omega
theorem Laws.Fits.vcmp (m : Bool) (d : BitVec 3) (k : BitVec 2) (a : BitVec 3) (b : BitVec 3) (t : BitVec 4) (c : BitVec 5) : Statement (.vcmp m d k a b t c) := by
  rintro _ ⟨⟩
  simp only [place, Instr.size]
  have := m.toNat_lt
  have := d.isLt
  have := k.isLt
  have := a.isLt
  have := b.isLt
  have := t.isLt
  have := c.isLt
  omega
theorem Laws.Fits.vsel (m : Bool) (d : BitVec 3) (k : BitVec 2) (a : BitVec 3) (b : BitVec 3) (t : BitVec 4) : Statement (.vsel m d k a b t) := by
  rintro _ ⟨⟩
  simp only [place, Instr.size]
  have := m.toNat_lt
  have := d.isLt
  have := k.isLt
  have := a.isLt
  have := b.isLt
  have := t.isLt
  omega
theorem Laws.Fits.vperm (m : Bool) (d : BitVec 3) (k : BitVec 2) (a : BitVec 3) (b : BitVec 3) (t : BitVec 4) : Statement (.vperm m d k a b t) := by
  rintro _ ⟨⟩
  simp only [place, Instr.size]
  have := m.toNat_lt
  have := d.isLt
  have := k.isLt
  have := a.isLt
  have := b.isLt
  have := t.isLt
  omega
theorem Laws.Fits.vbcast (m : Bool) (v : BitVec 3) (k : BitVec 2) (g : BitVec 5) (t : BitVec 4) : Statement (.vbcast m v k g t) := by
  rintro _ ⟨⟩
  simp only [place, Instr.size]
  have := m.toNat_lt
  have := v.isLt
  have := k.isLt
  have := g.isLt
  have := t.isLt
  omega
theorem Laws.Fits.vext (m : Bool) (v : BitVec 3) (g : BitVec 5) (h : BitVec 5) (t : BitVec 4) : Statement (.vext m v g h t) := by
  rintro _ ⟨⟩
  simp only [place, Instr.size]
  have := m.toNat_lt
  have := v.isLt
  have := g.isLt
  have := h.isLt
  have := t.isLt
  omega
theorem Laws.Fits.vins (m : Bool) (v : BitVec 3) (g : BitVec 5) (h : BitVec 5) (t : BitVec 4) : Statement (.vins m v g h t) := by
  rintro _ ⟨⟩
  simp only [place, Instr.size]
  have := m.toNat_lt
  have := v.isLt
  have := g.isLt
  have := h.isLt
  have := t.isLt
  omega
theorem Laws.Fits.viota (m : Bool) (d : BitVec 3) (k : BitVec 2) (t : BitVec 4) : Statement (.viota m d k t) := by
  rintro _ ⟨⟩
  simp only [place, Instr.size]
  have := m.toNat_lt
  have := d.isLt
  have := k.isLt
  have := t.isLt
  omega
theorem Laws.Fits.vrsum (m : Bool) (v : BitVec 3) (k : BitVec 2) (g : BitVec 5) (t : BitVec 4) : Statement (.vrsum m v k g t) := by
  rintro _ ⟨⟩
  simp only [place, Instr.size]
  have := m.toNat_lt
  have := v.isLt
  have := k.isLt
  have := g.isLt
  have := t.isLt
  omega
theorem Laws.Fits.vrmax (m : Bool) (v : BitVec 3) (k : BitVec 2) (g : BitVec 5) (t : BitVec 4) : Statement (.vrmax m v k g t) := by
  rintro _ ⟨⟩
  simp only [place, Instr.size]
  have := m.toNat_lt
  have := v.isLt
  have := k.isLt
  have := g.isLt
  have := t.isLt
  omega
theorem Laws.Fits.vrmin (m : Bool) (v : BitVec 3) (k : BitVec 2) (g : BitVec 5) (t : BitVec 4) : Statement (.vrmin m v k g t) := by
  rintro _ ⟨⟩
  simp only [place, Instr.size]
  have := m.toNat_lt
  have := v.isLt
  have := k.isLt
  have := g.isLt
  have := t.isLt
  omega
theorem Laws.Fits.vrmaxabs (m : Bool) (v : BitVec 3) (k : BitVec 2) (g : BitVec 5) (t : BitVec 4) : Statement (.vrmaxabs m v k g t) := by
  rintro _ ⟨⟩
  simp only [place, Instr.size]
  have := m.toNat_lt
  have := v.isLt
  have := k.isLt
  have := g.isLt
  have := t.isLt
  omega
theorem Laws.Fits.vcvt (m : Bool) (d : BitVec 3) (k : BitVec 2) (a : BitVec 3) (o : BitVec 4) (f : BitVec 4) : Statement (.vcvt m d k a o f) := by
  rintro _ ⟨⟩
  simp only [place, Instr.size]
  have := m.toNat_lt
  have := d.isLt
  have := k.isLt
  have := a.isLt
  have := o.isLt
  have := f.isLt
  omega
theorem Laws.Fits.vquant (m : Bool) (v : BitVec 3) (k : BitVec 2) (g : BitVec 5) (r : BitVec 3) (u : BitVec 1) (t : BitVec 4) : Statement (.vquant m v k g r u t) := by
  rintro _ ⟨⟩
  simp only [place, Instr.size]
  have := m.toNat_lt
  have := v.isLt
  have := k.isLt
  have := g.isLt
  have := r.isLt
  have := u.isLt
  have := t.isLt
  omega
theorem Laws.Fits.vdeq (m : Bool) (v : BitVec 3) (k : BitVec 2) (g : BitVec 5) (t : BitVec 4) : Statement (.vdeq m v k g t) := by
  rintro _ ⟨⟩
  simp only [place, Instr.size]
  have := m.toNat_lt
  have := v.isLt
  have := k.isLt
  have := g.isLt
  have := t.isLt
  omega
theorem Laws.Fits.vdot (m : Bool) (d : BitVec 3) (k : BitVec 2) (a : BitVec 3) (b : BitVec 3) (t : BitVec 4) : Statement (.vdot m d k a b t) := by
  rintro _ ⟨⟩
  simp only [place, Instr.size]
  have := m.toNat_lt
  have := d.isLt
  have := k.isLt
  have := a.isLt
  have := b.isLt
  have := t.isLt
  omega
theorem Laws.Fits.vdots (m : Bool) (d : BitVec 3) (k : BitVec 2) (a : BitVec 3) (b : BitVec 3) (t : BitVec 4) : Statement (.vdots m d k a b t) := by
  rintro _ ⟨⟩
  simp only [place, Instr.size]
  have := m.toNat_lt
  have := d.isLt
  have := k.isLt
  have := a.isLt
  have := b.isLt
  have := t.isLt
  omega
theorem Laws.Fits.vld (m : Bool) (v : BitVec 3) (k : BitVec 2) (g : BitVec 5) (i : BitVec 5) : Statement (.vld m v k g i) := by
  rintro _ ⟨⟩
  simp only [place, Instr.size]
  have := m.toNat_lt
  have := v.isLt
  have := k.isLt
  have := g.isLt
  have := i.isLt
  omega
theorem Laws.Fits.vst (m : Bool) (v : BitVec 3) (k : BitVec 2) (g : BitVec 5) (i : BitVec 5) : Statement (.vst m v k g i) := by
  rintro _ ⟨⟩
  simp only [place, Instr.size]
  have := m.toNat_lt
  have := v.isLt
  have := k.isLt
  have := g.isLt
  have := i.isLt
  omega
theorem Laws.Fits.vlds (m : Bool) (v : BitVec 3) (k : BitVec 2) (g : BitVec 5) (h : BitVec 5) (t : BitVec 4) : Statement (.vlds m v k g h t) := by
  rintro _ ⟨⟩
  simp only [place, Instr.size]
  have := m.toNat_lt
  have := v.isLt
  have := k.isLt
  have := g.isLt
  have := h.isLt
  have := t.isLt
  omega
theorem Laws.Fits.vsts (m : Bool) (v : BitVec 3) (k : BitVec 2) (g : BitVec 5) (h : BitVec 5) (t : BitVec 4) : Statement (.vsts m v k g h t) := by
  rintro _ ⟨⟩
  simp only [place, Instr.size]
  have := m.toNat_lt
  have := v.isLt
  have := k.isLt
  have := g.isLt
  have := h.isLt
  have := t.isLt
  omega
theorem Laws.Fits.vgth (m : Bool) (v : BitVec 3) (k : BitVec 2) (g : BitVec 5) (x : BitVec 3) (t : BitVec 4) : Statement (.vgth m v k g x t) := by
  rintro _ ⟨⟩
  simp only [place, Instr.size]
  have := m.toNat_lt
  have := v.isLt
  have := k.isLt
  have := g.isLt
  have := x.isLt
  have := t.isLt
  omega
theorem Laws.Fits.vsct (m : Bool) (v : BitVec 3) (k : BitVec 2) (g : BitVec 5) (x : BitVec 3) (t : BitVec 4) : Statement (.vsct m v k g x t) := by
  rintro _ ⟨⟩
  simp only [place, Instr.size]
  have := m.toNat_lt
  have := v.isLt
  have := k.isLt
  have := g.isLt
  have := x.isLt
  have := t.isLt
  omega
theorem Laws.Fits.kand (m : Bool) (d : BitVec 3) (a : BitVec 3) (b : BitVec 3) : Statement (.kand m d a b) := by
  rintro _ ⟨⟩
  simp only [place, Instr.size]
  have := m.toNat_lt
  have := d.isLt
  have := a.isLt
  have := b.isLt
  omega
theorem Laws.Fits.kor (m : Bool) (d : BitVec 3) (a : BitVec 3) (b : BitVec 3) : Statement (.kor m d a b) := by
  rintro _ ⟨⟩
  simp only [place, Instr.size]
  have := m.toNat_lt
  have := d.isLt
  have := a.isLt
  have := b.isLt
  omega
theorem Laws.Fits.kxor (m : Bool) (d : BitVec 3) (a : BitVec 3) (b : BitVec 3) : Statement (.kxor m d a b) := by
  rintro _ ⟨⟩
  simp only [place, Instr.size]
  have := m.toNat_lt
  have := d.isLt
  have := a.isLt
  have := b.isLt
  omega
theorem Laws.Fits.knot (m : Bool) (d : BitVec 3) (a : BitVec 3) : Statement (.knot m d a) := by
  rintro _ ⟨⟩
  simp only [place, Instr.size]
  have := m.toNat_lt
  have := d.isLt
  have := a.isLt
  omega
theorem Laws.Fits.kmovGk (m : Bool) (v : BitVec 3) (g : BitVec 5) : Statement (.kmovGk m v g) := by
  rintro _ ⟨⟩
  simp only [place, Instr.size]
  have := m.toNat_lt
  have := v.isLt
  have := g.isLt
  omega
theorem Laws.Fits.kmovKg (m : Bool) (v : BitVec 3) (g : BitVec 5) : Statement (.kmovKg m v g) := by
  rintro _ ⟨⟩
  simp only [place, Instr.size]
  have := m.toNat_lt
  have := v.isLt
  have := g.isLt
  omega
theorem Laws.Fits.kpop (m : Bool) (v : BitVec 3) (g : BitVec 5) : Statement (.kpop m v g) := by
  rintro _ ⟨⟩
  simp only [place, Instr.size]
  have := m.toNat_lt
  have := v.isLt
  have := g.isLt
  omega
theorem Laws.Fits.ktest (m : Bool) (v : BitVec 3) (k : BitVec 2) (g : BitVec 5) : Statement (.ktest m v k g) := by
  rintro _ ⟨⟩
  simp only [place, Instr.size]
  have := m.toNat_lt
  have := v.isLt
  have := k.isLt
  have := g.isLt
  omega
theorem Laws.Fits.vfree (m : Bool) (d : BitVec 3) : Statement (.vfree m d) := by
  rintro _ ⟨⟩
  simp only [place, Instr.size]
  have := m.toNat_lt
  have := d.isLt
  omega
theorem Laws.Fits.vmov (m : Bool) (d : BitVec 3) (k : BitVec 2) (a : BitVec 3) : Statement (.vmov m d k a) := by
  rintro _ ⟨⟩
  simp only [place, Instr.size]
  have := m.toNat_lt
  have := d.isLt
  have := k.isLt
  have := a.isLt
  omega
theorem Laws.Fits.mlease (m : Bool) : Statement (.mlease m) := by
  rintro _ ⟨⟩
  simp only [place, Instr.size]
  have := m.toNat_lt
  omega
theorem Laws.Fits.mtryl (m : Bool) (d : BitVec 5) : Statement (.mtryl m d) := by
  rintro _ ⟨⟩
  simp only [place, Instr.size]
  have := m.toNat_lt
  have := d.isLt
  omega
theorem Laws.Fits.mrel (m : Bool) (a : BitVec 5) : Statement (.mrel m a) := by
  rintro _ ⟨⟩
  simp only [place, Instr.size]
  have := m.toNat_lt
  have := a.isLt
  omega
theorem Laws.Fits.missue (m : Bool) (d : BitVec 5) (a : BitVec 5) : Statement (.missue m d a) := by
  rintro _ ⟨⟩
  simp only [place, Instr.size]
  have := m.toNat_lt
  have := d.isLt
  have := a.isLt
  omega
theorem Laws.Fits.mwait (m : Bool) (d : BitVec 5) (a : BitVec 5) : Statement (.mwait m d a) := by
  rintro _ ⟨⟩
  simp only [place, Instr.size]
  have := m.toNat_lt
  have := d.isLt
  have := a.isLt
  omega
theorem Laws.Fits.mseq (m : Bool) (d : BitVec 5) (a : BitVec 5) : Statement (.mseq m d a) := by
  rintro _ ⟨⟩
  simp only [place, Instr.size]
  have := m.toNat_lt
  have := d.isLt
  have := a.isLt
  omega
theorem Laws.Fits.maccv (m : Bool) (v : BitVec 3) (a : BitVec 5) : Statement (.maccv m v a) := by
  rintro _ ⟨⟩
  simp only [place, Instr.size]
  have := m.toNat_lt
  have := v.isLt
  have := a.isLt
  omega
theorem Laws.Fits.maccw (m : Bool) (v : BitVec 3) (a : BitVec 5) : Statement (.maccw m v a) := by
  rintro _ ⟨⟩
  simp only [place, Instr.size]
  have := m.toNat_lt
  have := v.isLt
  have := a.isLt
  omega
theorem Laws.Fits.spawn (m : Bool) (d : BitVec 5) (b : BitVec 5) (c : BitVec 5) : Statement (.spawn m d b c) := by
  rintro _ ⟨⟩
  simp only [place, Instr.size]
  have := m.toNat_lt
  have := d.isLt
  have := b.isLt
  have := c.isLt
  omega
theorem Laws.Fits.spawnat (m : Bool) (d : BitVec 5) (b : BitVec 5) (c : BitVec 5) : Statement (.spawnat m d b c) := by
  rintro _ ⟨⟩
  simp only [place, Instr.size]
  have := m.toNat_lt
  have := d.isLt
  have := b.isLt
  have := c.isLt
  omega
theorem Laws.Fits.spawnany (m : Bool) (d : BitVec 5) (b : BitVec 5) (c : BitVec 5) : Statement (.spawnany m d b c) := by
  rintro _ ⟨⟩
  simp only [place, Instr.size]
  have := m.toNat_lt
  have := d.isLt
  have := b.isLt
  have := c.isLt
  omega
theorem Laws.Fits.tid (m : Bool) (d : BitVec 5) : Statement (.tid m d) := by
  rintro _ ⟨⟩
  simp only [place, Instr.size]
  have := m.toNat_lt
  have := d.isLt
  omega
theorem Laws.Fits.prio (m : Bool) (a : BitVec 5) : Statement (.prio m a) := by
  rintro _ ⟨⟩
  simp only [place, Instr.size]
  have := m.toNat_lt
  have := a.isLt
  omega
theorem Laws.Fits.qsend (m : Bool) (g : BitVec 5) (h : BitVec 5) : Statement (.qsend m g h) := by
  rintro _ ⟨⟩
  simp only [place, Instr.size]
  have := m.toNat_lt
  have := g.isLt
  have := h.isLt
  omega
theorem Laws.Fits.qrecv (m : Bool) (g : BitVec 5) (h : BitVec 5) (c : BitVec 5) : Statement (.qrecv m g h c) := by
  rintro _ ⟨⟩
  simp only [place, Instr.size]
  have := m.toNat_lt
  have := g.isLt
  have := h.isLt
  have := c.isLt
  omega
theorem Laws.Fits.qeos (m : Bool) (h : BitVec 5) : Statement (.qeos m h) := by
  rintro _ ⟨⟩
  simp only [place, Instr.size]
  have := m.toNat_lt
  have := h.isLt
  omega
theorem Laws.Fits.qstat (m : Bool) (d : BitVec 5) (h : BitVec 5) : Statement (.qstat m d h) := by
  rintro _ ⟨⟩
  simp only [place, Instr.size]
  have := m.toNat_lt
  have := d.isLt
  have := h.isLt
  omega
theorem Laws.Fits.dsend (m : Bool) (g : BitVec 5) (h : BitVec 5) : Statement (.dsend m g h) := by
  rintro _ ⟨⟩
  simp only [place, Instr.size]
  have := m.toNat_lt
  have := g.isLt
  have := h.isLt
  omega
theorem Laws.Fits.drecv (m : Bool) (g : BitVec 5) (h : BitVec 5) (c : BitVec 5) : Statement (.drecv m g h c) := by
  rintro _ ⟨⟩
  simp only [place, Instr.size]
  have := m.toNat_lt
  have := g.isLt
  have := h.isLt
  have := c.isLt
  omega
theorem Laws.Fits.dseal (m : Bool) (h : BitVec 5) (c : BitVec 5) : Statement (.dseal m h c) := by
  rintro _ ⟨⟩
  simp only [place, Instr.size]
  have := m.toNat_lt
  have := h.isLt
  have := c.isLt
  omega
theorem Laws.Fits.dquiet (m : Bool) (d : BitVec 5) (h : BitVec 5) : Statement (.dquiet m d h) := by
  rintro _ ⟨⟩
  simp only [place, Instr.size]
  have := m.toNat_lt
  have := d.isLt
  have := h.isLt
  omega
theorem Laws.Fits.xupd (m : Bool) (d : BitVec 5) (h : BitVec 5) (c : BitVec 5) : Statement (.xupd m d h c) := by
  rintro _ ⟨⟩
  simp only [place, Instr.size]
  have := m.toNat_lt
  have := d.isLt
  have := h.isLt
  have := c.isLt
  omega
theorem Laws.Fits.xscan (m : Bool) (g : BitVec 5) (h : BitVec 5) : Statement (.xscan m g h) := by
  rintro _ ⟨⟩
  simp only [place, Instr.size]
  have := m.toNat_lt
  have := g.isLt
  have := h.isLt
  omega
theorem Laws.Fits.xcnt (m : Bool) (d : BitVec 5) (h : BitVec 5) (c : BitVec 5) : Statement (.xcnt m d h c) := by
  rintro _ ⟨⟩
  simp only [place, Instr.size]
  have := m.toNat_lt
  have := d.isLt
  have := h.isLt
  have := c.isLt
  omega
theorem Laws.Fits.cpy (m : Bool) (a : BitVec 5) (b : BitVec 5) (c : BitVec 5) (l : BitVec 5) : Statement (.cpy m a b c l) := by
  rintro _ ⟨⟩
  simp only [place, Instr.size]
  have := m.toNat_lt
  have := a.isLt
  have := b.isLt
  have := c.isLt
  have := l.isLt
  omega
theorem Laws.Fits.cpy2d (m : Bool) (a : BitVec 5) (b : BitVec 5) : Statement (.cpy2d m a b) := by
  rintro _ ⟨⟩
  simp only [place, Instr.size]
  have := m.toNat_lt
  have := a.isLt
  have := b.isLt
  omega
theorem Laws.Fits.awinit (m : Bool) (d : BitVec 5) (b : BitVec 5) (c : BitVec 5) : Statement (.awinit m d b c) := by
  rintro _ ⟨⟩
  simp only [place, Instr.size]
  have := m.toNat_lt
  have := d.isLt
  have := b.isLt
  have := c.isLt
  omega
theorem Laws.Fits.awwait (m : Bool) (d : BitVec 5) (b : BitVec 5) (c : BitVec 5) : Statement (.awwait m d b c) := by
  rintro _ ⟨⟩
  simp only [place, Instr.size]
  have := m.toNat_lt
  have := d.isLt
  have := b.isLt
  have := c.isLt
  omega
theorem Laws.Fits.scstart (m : Bool) (d : BitVec 5) (b : BitVec 5) (c : BitVec 5) : Statement (.scstart m d b c) := by
  rintro _ ⟨⟩
  simp only [place, Instr.size]
  have := m.toNat_lt
  have := d.isLt
  have := b.isLt
  have := c.isLt
  omega
theorem Laws.Fits.scmail (m : Bool) (d : BitVec 5) (b : BitVec 5) (c : BitVec 5) : Statement (.scmail m d b c) := by
  rintro _ ⟨⟩
  simp only [place, Instr.size]
  have := m.toNat_lt
  have := d.isLt
  have := b.isLt
  have := c.isLt
  omega
theorem Laws.Fits.scwait (m : Bool) (d : BitVec 5) (c : BitVec 5) : Statement (.scwait m d c) := by
  rintro _ ⟨⟩
  simp only [place, Instr.size]
  have := m.toNat_lt
  have := d.isLt
  have := c.isLt
  omega
theorem Laws.Fits.sysr (m : Bool) (d : BitVec 5) (i : BitVec 11) : Statement (.sysr m d i) := by
  rintro _ ⟨⟩
  simp only [place, Instr.size]
  have := m.toNat_lt
  have := d.isLt
  have := i.isLt
  omega
theorem Laws.Fits.sysw (m : Bool) (a : BitVec 5) (i : BitVec 11) : Statement (.sysw m a i) := by
  rintro _ ⟨⟩
  simp only [place, Instr.size]
  have := m.toNat_lt
  have := a.isLt
  have := i.isLt
  omega
theorem Laws.Fits.trap (m : Bool) (i : BitVec 11) : Statement (.trap m i) := by
  rintro _ ⟨⟩
  simp only [place, Instr.size]
  have := m.toNat_lt
  have := i.isLt
  omega
theorem Laws.Fits.syscall (m : Bool) : Statement (.syscall m) := by
  rintro _ ⟨⟩
  simp only [place, Instr.size]
  have := m.toNat_lt
  omega
theorem Laws.Fits.eret (m : Bool) : Statement (.eret m) := by
  rintro _ ⟨⟩
  simp only [place, Instr.size]
  have := m.toNat_lt
  omega
theorem Laws.Fits.brk (m : Bool) : Statement (.brk m) := by
  rintro _ ⟨⟩
  simp only [place, Instr.size]
  have := m.toNat_lt
  omega
theorem Laws.Fits.wake (m : Bool) (a : BitVec 5) (b : BitVec 5) : Statement (.wake m a b) := by
  rintro _ ⟨⟩
  simp only [place, Instr.size]
  have := m.toNat_lt
  have := a.isLt
  have := b.isLt
  omega
theorem Laws.Fits.inval (m : Bool) (b : BitVec 5) : Statement (.inval m b) := by
  rintro _ ⟨⟩
  simp only [place, Instr.size]
  have := m.toNat_lt
  have := b.isLt
  omega
theorem Laws.Fits.segld (m : Bool) (b : BitVec 5) : Statement (.segld m b) := by
  rintro _ ⟨⟩
  simp only [place, Instr.size]
  have := m.toNat_lt
  have := b.isLt
  omega
theorem Laws.Fits.bkRd (d : BitVec 5) (a : BitVec 5) : Statement (.bkRd d a) := by
  rintro _ ⟨⟩
  simp only [place, Instr.size]
  have := d.isLt
  have := a.isLt
  omega
theorem Laws.Fits.bkWr (a : BitVec 5) (b : BitVec 5) : Statement (.bkWr a b) := by
  rintro _ ⟨⟩
  simp only [place, Instr.size]
  have := a.isLt
  have := b.isLt
  omega
theorem Laws.Fits.bkGet (d : BitVec 5) (a : BitVec 5) (b : BitVec 5) (c : BitVec 5) : Statement (.bkGet d a b c) := by
  rintro _ ⟨⟩
  simp only [place, Instr.size]
  have := d.isLt
  have := a.isLt
  have := b.isLt
  have := c.isLt
  omega
theorem Laws.Fits.bkPut (d : BitVec 5) (a : BitVec 5) (b : BitVec 5) (c : BitVec 5) : Statement (.bkPut d a b c) := by
  rintro _ ⟨⟩
  simp only [place, Instr.size]
  have := d.isLt
  have := a.isLt
  have := b.isLt
  have := c.isLt
  omega
theorem Laws.Fits.bkWait (d : BitVec 5) (a : BitVec 5) (b : BitVec 5) : Statement (.bkWait d a b) := by
  rintro _ ⟨⟩
  simp only [place, Instr.size]
  have := d.isLt
  have := a.isLt
  have := b.isLt
  omega
theorem Laws.Fits.bkSig (a : BitVec 5) (b : BitVec 5) : Statement (.bkSig a b) := by
  rintro _ ⟨⟩
  simp only [place, Instr.size]
  have := a.isLt
  have := b.isLt
  omega
theorem Laws.Fits.bookendBaseInstruction (w : BitVec 32) : Statement (.bookendBaseInstruction w) := nofun
theorem Laws.Fits.longResultReturn (t c k n : Nat) : Statement (.longResultReturn t c k n) := nofun
theorem Laws.Fits.normaliserServiceEnd (t : Nat) : Statement (.normaliserServiceEnd t) := nofun
theorem Laws.Fits.sleepDeadline (t c k : Nat) : Statement (.sleepDeadline t c k) := nofun
theorem Laws.Fits.vectorBind (t : Nat) : Statement (.vectorBind t) := nofun
theorem Laws.Fits.storeBufferDrain (t c : Nat) (bad : Bool) : Statement (.storeBufferDrain t c bad) := nofun
theorem Laws.Fits.migrationCommit (t c k : Nat) : Statement (.migrationCommit t c k) := nofun
theorem Laws.Fits.departureConvert (t c k : Nat) : Statement (.departureConvert t c k) := nofun
theorem Laws.Fits.hutchAdmit (n : Nat) : Statement (.hutchAdmit n) := nofun
theorem Laws.Fits.hutchDispatch (t : Nat) : Statement (.hutchDispatch t) := nofun
theorem Laws.Fits.contextLoadDone (t c k : Nat) : Statement (.contextLoadDone t c k) := nofun
theorem Laws.Fits.idleDonationRequest (t : Nat) : Statement (.idleDonationRequest t) := nofun
theorem Laws.Fits.donationShip (n : Nat) : Statement (.donationShip n) := nofun
theorem Laws.Fits.parkMove (t c k : Nat) : Statement (.parkMove t c k) := nofun
theorem Laws.Fits.wakeMessage (n : Nat) : Statement (.wakeMessage n) := nofun
theorem Laws.Fits.retireNote (n : Nat) : Statement (.retireNote n) := nofun
theorem Laws.Fits.quotaIncrement (n : Nat) : Statement (.quotaIncrement n) := nofun
theorem Laws.Fits.quotaDecrement (n : Nat) : Statement (.quotaDecrement n) := nofun
theorem Laws.Fits.remoteRequest (n : Nat) : Statement (.remoteRequest n) := nofun
theorem Laws.Fits.remoteResponse (n : Nat) : Statement (.remoteResponse n) := nofun
theorem Laws.Fits.postedOp (n : Nat) : Statement (.postedOp n) := nofun
theorem Laws.Fits.postedAck (n : Nat) : Statement (.postedAck n) := nofun
theorem Laws.Fits.waiterRetry (t c k : Nat) : Statement (.waiterRetry t c k) := nofun
theorem Laws.Fits.feBudgetExpire (t c k : Nat) : Statement (.feBudgetExpire t c k) := nofun
theorem Laws.Fits.feWithdrawAck (n : Nat) : Statement (.feWithdrawAck n) := nofun
theorem Laws.Fits.barWaitTimeout (t c k : Nat) : Statement (.barWaitTimeout t c k) := nofun
theorem Laws.Fits.hbarTreeArrive (n : Nat) : Statement (.hbarTreeArrive n) := nofun
theorem Laws.Fits.hbarTreeRelease (n : Nat) : Statement (.hbarTreeRelease n) := nofun
theorem Laws.Fits.hbarTimeout (t c k : Nat) : Statement (.hbarTimeout t c k) := nofun
theorem Laws.Fits.queueRecordAppend (n : Nat) : Statement (.queueRecordAppend n) := nofun
theorem Laws.Fits.resendRetry (t : Nat) : Statement (.resendRetry t) := nofun
theorem Laws.Fits.dresserRecordApply (n : Nat) : Statement (.dresserRecordApply n) := nofun
theorem Laws.Fits.dresserNote (n : Nat) : Statement (.dresserNote n) := nofun
theorem Laws.Fits.bandPass (t q : Nat) : Statement (.bandPass t q) := nofun
theorem Laws.Fits.trestleCommandStart (t : Nat) : Statement (.trestleCommandStart t) := nofun
theorem Laws.Fits.trestleStep (t : Nat) : Statement (.trestleStep t) := nofun
theorem Laws.Fits.trestleCommandComplete (t : Nat) : Statement (.trestleCommandComplete t) := nofun
theorem Laws.Fits.operandLineRequest (n : Nat) : Statement (.operandLineRequest n) := nofun
theorem Laws.Fits.mcastWindowExpire (t n : Nat) : Statement (.mcastWindowExpire t n) := nofun
theorem Laws.Fits.operandLineArrive (n : Nat) : Statement (.operandLineArrive n) := nofun
theorem Laws.Fits.leaseExpireTime (t : Nat) : Statement (.leaseExpireTime t) := nofun
theorem Laws.Fits.copyPieceIssue (t : Nat) : Statement (.copyPieceIssue t) := nofun
theorem Laws.Fits.copyRead (n : Nat) : Statement (.copyRead n) := nofun
theorem Laws.Fits.copyWrite (n : Nat) : Statement (.copyWrite n) := nofun
theorem Laws.Fits.arrivalCount (n : Nat) : Statement (.arrivalCount n) := nofun
theorem Laws.Fits.pageWalkComplete (t n : Nat) : Statement (.pageWalkComplete t n) := nofun
theorem Laws.Fits.faultRecordWrite (t : Nat) : Statement (.faultRecordWrite t) := nofun
theorem Laws.Fits.invalCommand (n : Nat) : Statement (.invalCommand n) := nofun
theorem Laws.Fits.sysBroadcastAck (n : Nat) : Statement (.sysBroadcastAck n) := nofun
theorem Laws.Fits.segldTable (n : Nat) : Statement (.segldTable n) := nofun
theorem Laws.Fits.rtClassUpdate (n : Nat) : Statement (.rtClassUpdate n) := nofun
theorem Laws.Fits.classSwitchTake (t : Nat) : Statement (.classSwitchTake t) := nofun
theorem Laws.Fits.vaultFillReturn (t n errs : Nat) : Statement (.vaultFillReturn t n errs) := nofun
theorem Laws.Fits.writebackEntryFree (t n : Nat) : Statement (.writebackEntryFree t n) := nofun
theorem Laws.Fits.prefetchIssue (t n : Nat) : Statement (.prefetchIssue t n) := nofun
theorem Laws.Fits.scrubRead (t line : Nat) (seen : LineRead) : Statement (.scrubRead t line seen) := nofun
theorem Laws.Fits.routerHop (n : Nat) : Statement (.routerHop n) := nofun
theorem Laws.Fits.ageTick (md : Nat) : Statement (.ageTick md) := nofun
theorem Laws.Fits.periodicDrain (md : Nat) : Statement (.periodicDrain md) := nofun
theorem Laws.Fits.linkFailure (md site port : Nat) : Statement (.linkFailure md site port) := nofun
theorem Laws.Fits.routerFailure (md site plane : Nat) : Statement (.routerFailure md site plane) := nofun
theorem Laws.Fits.nameTableSwitch (md : Nat) : Statement (.nameTableSwitch md) := nofun
theorem Laws.Fits.tileReset (t : Nat) : Statement (.tileReset t) := nofun
theorem Laws.Fits.nonresidentSpill (n : Nat) : Statement (.nonresidentSpill n) := nofun
theorem Laws.Fits.gangStop (t : Nat) : Statement (.gangStop t) := nofun
theorem Laws.Fits.gangSave (t : Nat) : Statement (.gangSave t) := nofun
theorem Laws.Fits.gangResume (asid : Nat) : Statement (.gangResume asid) := nofun
theorem Laws.Fits.powerOnReset (md : Nat) : Statement (.powerOnReset md) := nofun
theorem Laws.Fits.recoveryInstall (md : Nat) : Statement (.recoveryInstall md) := nofun
theorem Laws.Fits.recoveryLogReset (md : Nat) : Statement (.recoveryLogReset md) := nofun
theorem Laws.Fits.hostRegisterWrite (md port off : Nat) (val : BitVec 64) : Statement (.hostRegisterWrite md port off val) := nofun
theorem Laws.Fits.mgSemRead (md port n : Nat) : Statement (.mgSemRead md port n) := nofun
theorem Laws.Fits.mgSemWrite (md port n : Nat) (val : BitVec 64) : Statement (.mgSemWrite md port n val) := nofun
theorem Laws.Fits.mgLqtail (md port : Nat) (val : BitVec 64) : Statement (.mgLqtail md port val) := nofun
theorem Laws.Fits.launchValidate (md : Nat) : Statement (.launchValidate md) := nofun
theorem Laws.Fits.launchPlace (md lid : Nat) : Statement (.launchPlace md lid) := nofun
theorem Laws.Fits.backfillFence (md : Nat) : Statement (.backfillFence md) := nofun
theorem Laws.Fits.launchComplete (md lid : Nat) : Statement (.launchComplete md lid) := nofun
theorem Laws.Fits.mgRetire (md port : Nat) (val : BitVec 64) : Statement (.mgRetire md port val) := nofun
theorem Laws.Fits.mgAbort (md port : Nat) (val : BitVec 64) : Statement (.mgAbort md port val) := nofun
theorem Laws.Fits.mgCtx (md port off : Nat) (val : BitVec 64) : Statement (.mgCtx md port off val) := nofun
theorem Laws.Fits.dbgHalt (md : Nat) (pod : Bool) : Statement (.dbgHalt md pod) := nofun
theorem Laws.Fits.dbgResume (md : Nat) (pod : Bool) : Statement (.dbgResume md pod) := nofun
theorem Laws.Fits.dbgFreeze (md : Nat) : Statement (.dbgFreeze md) := nofun
theorem Laws.Fits.dbgBrkhalt (md : Nat) (on : Bool) : Statement (.dbgBrkhalt md on) := nofun
theorem Laws.Fits.mgDbgstep (md : Nat) (val : BitVec 64) : Statement (.mgDbgstep md val) := nofun
theorem Laws.Fits.debugHaltTake (md : Nat) : Statement (.debugHaltTake md) := nofun
theorem Laws.Fits.debugResumeTake (md : Nat) : Statement (.debugResumeTake md) := nofun
theorem Laws.Fits.stepEnd (md : Nat) : Statement (.stepEnd md) := nofun
theorem Laws.Fits.apertureRead (md port off size : Nat) : Statement (.apertureRead md port off size) := nofun
theorem Laws.Fits.apertureWrite (md port off : Nat) (bytes : List (BitVec 8)) : Statement (.apertureWrite md port off bytes) := nofun
theorem Laws.Fits.portLinkDown (md port : Nat) : Statement (.portLinkDown md port) := nofun
theorem Laws.Fits.hostCompletionTimeout (n : Nat) : Statement (.hostCompletionTimeout n) := nofun
theorem Laws.Fits.getVersion (md port : Nat) : Statement (.getVersion md port) := nofun
theorem Laws.Fits.getCapabilities (md port : Nat) : Statement (.getCapabilities md port) := nofun
theorem Laws.Fits.negotiateAlgorithms (md port : Nat) : Statement (.negotiateAlgorithms md port) := nofun
theorem Laws.Fits.getDigests (md port : Nat) : Statement (.getDigests md port) := nofun
theorem Laws.Fits.getCertificate (md port : Nat) : Statement (.getCertificate md port) := nofun
theorem Laws.Fits.challenge (md port : Nat) (nonce : BitVec 256) : Statement (.challenge md port nonce) := nofun
theorem Laws.Fits.getMeasurements (md port n : Nat) : Statement (.getMeasurements md port n) := nofun
theorem Laws.Fits.powerExcursion (md : Nat) : Statement (.powerExcursion md) := nofun
theorem Laws.Fits.powerRestored (md : Nat) : Statement (.powerRestored md) := nofun
theorem Laws.Fits.thermalShutdown (md : Nat) : Statement (.thermalShutdown md) := nofun
theorem Laws.Fits.illegalEncoding (w : BitVec 32) : Statement (.illegalEncoding w) := nofun
theorem Laws.Fits.fetchFault (cause : BitVec 8) : Statement (.fetchFault cause) := nofun
theorem Laws.Fits.hostLinkUp (md port : Nat) : Statement (.hostLinkUp md port) := nofun
theorem Laws.Fits.ejectionPortReopen (t : Nat) : Statement (.ejectionPortReopen t) := nofun

end

end Sys2Proof
end

