-- ==== Sys2Proof/Tests/Slice0.lean ====
section
/-! SUPPORT. Tests: the decoder on words written out from the encodings of 02 R45 to R57 and 12 R265, an ill-formed instruction for each
check, single steps with results from the rules, and for each statement a state that meets its hypotheses. -/
namespace Sys2Proof.Tests

open Machine

/-! ## Decoding -/

/-- Each word is decoded to the instruction beside it. -/
def reads (d : Nat → Except DecodeError Instr) (ws : List (Nat × Instr)) : Bool :=
  ws.all (fun e => match d e.1 with
    | .ok i => i == e.2
    | .error _ => false)

/-- One word of each form of the compact forms (02 R47), from its encoding: the fixed bits and every field in its place. -/
theorem test_decode_compact : reads decodeHalf [
  (0x0A40, .cMv false 0x12 2), (0x1E62, .cAdd false 0x13 7), (0x3E24, .cSub false 0x11 0xF), (0x24A6, .cAnd false 5 9),
  (0x0968, .cOr false 0xB 2), (0x248A, .cXor false 4 9), (0x28EC, .cShli false 7 0xA), (0x4C2E, .cShri false 1 0x13),
  (0x2D30, .cSrai false 9 0xB), (0x4572, .cAddi false 0xB 0x11), (0x1D34, .cLi false 9 7), (0x1556, .cLd false 0xA 5),
  (0x2258, .cSt false 0x12 8), (0x487A, .cCmpeq false 3 0x12), (0x2C5C, .cCmplt false 2 0xB), (0x295E, .cBp1 false 0x14A)] = true := by decide

/-- One word of each form of majors 0x00 to 0x02 (02 R55), from its encoding: the fixed bits and every field in its place. -/
theorem test_decode_alu : reads decodeFull [
  (0x002CAD01, .add false 0xD 5 0xB), (0x00B02301, .sub false 3 1 0xC), (0x013CAE01, .and false 0xE 5 0xF),
  (0x018CAD01, .or false 0xD 5 3), (0x020A4501, .xor false 5 0x12 2), (0x02B5EB01, .andn false 0xB 0xF 0xD),
  (0x031C2B01, .orn false 0xB 1 7), (0x03B4C901, .xnor false 9 6 0xD), (0x0430A101, .shl false 1 5 0xC),
  (0x04B91301, .shr false 0x13 8 0xE), (0x05198101, .sra false 1 0xC 6), (0x05A1AD01, .rol false 0xD 0xD 8),
  (0x063D6B01, .ror false 0xB 0xB 0xF), (0x06A10501, .minS false 5 8 8), (0x073D4601, .minZ false 6 0xA 0xF),
  (0x07B4C101, .maxS false 1 6 0xD), (0x08191201, .maxZ false 0x12 8 6), (0x10154B01, .addW false 0xB 0xA 5),
  (0x10A47101, .subW false 0x11 3 9), (0x114A2701, .shlW false 7 0x11 0x12), (0x11ADF201, .shrW false 0x12 0xF 0xB),
  (0x1208EB01, .sraW false 0xB 7 2), (0x00196C05, .mul false 0xC 0xB 6), (0x008D0B05, .mulhS false 0xB 8 3),
  (0x01288905, .mulhZ false 9 4 0xA), (0x01B82F05, .mulhSz false 0xF 1 0xE), (0x02044105, .divS false 1 2 1),
  (0x02BE0405, .divZ false 4 0x10 0xF), (0x03355105, .remS false 0x11 0xA 0xD), (0x03BA3205, .remZ false 0x12 0x11 0xE),
  (0x042C4C05, .mulW false 0xC 2 0xB), (0x00026B09, .clz false 0xB 0x13), (0x00805009, .ctz false 0x10 2),
  (0x01018409, .popc false 4 0xC), (0x01808A09, .bswap false 0xA 4), (0x02017009, .brev false 0x10 0xB),
  (0x0281C909, .sextB false 9 0xE), (0x0300C609, .sextH false 6 6), (0x03823009, .sextW false 0x10 0x11), (0x04004609, .zextB false 6 2),
  (0x0481E209, .zextH false 2 0xF), (0x05008309, .zextW false 3 4)] = true := by decide

/-- One word of each form of majors 0x03 to 0x0E, from its encoding: the fixed bits and every field in its place. -/
theorem test_decode_immediate : reads decodeFull [
  (0xFDD1680D, .addi false 8 0xB 0x3F74), (0xE45C6311, .andi false 3 3 0x3917), (0x51B5E415, .ori false 4 0xF 0x146D),
  (0x5191EC19, .xori false 0xC 0xF 0x1464), (0x1F02071D, .shli false 7 0x10 0x3E), (0x3D81621D, .shri false 2 0xB 0x3B),
  (0x4A804C1D, .srai false 0xC 2 0x15), (0x7200411D, .roli false 1 2 0x24), (0x8602461D, .shliW false 6 0x12 0xC),
  (0xAA02061D, .shriW false 6 0x10 0x14), (0xC282681F, .sraiW true 8 0x13 5), (0x71F8C621, .lui false 6 0x38FC6),
  (0x2CD6A925, .auipc false 9 0x166B5), (0x0B966B29, .lih false 0xB 0x5CB3), (0x253A052D, .bfxZ false 5 0x10 0xE 0x25),
  (0x6454E32D, .bfxS false 3 7 0x15 0x24), (0x8F5E712D, .bfi false 0x11 0x13 0x17 0xF), (0x0218A333, .cmp true 3 5 6 4),
  (0x099C6935, .cmpi false 9 3 7 0x26), (0x0011E439, .pand false 4 0xF 4), (0x00B92239, .por false 2 9 0xE),
  (0x01018539, .pxor false 5 0xC 0), (0x01A80539, .pandn false 5 0 0xA), (0x02018B39, .pnot false 0xB 0xC),
  (0x32801139, .prd false 0x11 3), (0xB301E039, .pwr false 0xF 0xB), (0x23B92E39, .sel false 0xE 9 0xE 2)] = true := by decide

/-- One word of each form of majors 0x10 to 0x16, from its encoding: the fixed bits and every field in its place. -/
theorem test_decode_flow : reads decodeFull [
  (0xBC531E41, .j false 0xBC531E), (0xB40CC245, .call false 0xB40CC2), (0xA7A4E049, .bp false 0 0x53D27),
  (0xC4051649, .bnp false 6 0x62028), (0x0001E04D, .jr false 0xF), (0x0082004D, .callr false 0x10), (0x0100004D, .ret false),
  (0x9B5E2751, .bz false 7 0x11 0x26D7), (0xAE9D4A55, .bnz false 0xA 0xA 0x2BA7), (0x00000059, .nop false), (0x00800059, .yield false),
  (0x01000059, .exit false), (0x01804059, .sleep false 2)] = true := by decide

/-- One word of each form of majors 0x18 to 0x1D (02 R55), from its encoding: the fixed bits and every field in its place. -/
theorem test_decode_memory : reads decodeFull [
  (0x1E48D361, .ld false 0x13 6 2 0xF2), (0xD6B18B65, .ldr false 0xB 0xC 4 0x6B5), (0x9A4E6769, .st false 7 0x13 3 0x4D2),
  (0x97E9A76D, .str false 7 0xD 2 0x4BF), (0xE4C08571, .ldfe false 5 4 0x726), (0x38E4CB71, .ldff false 0xB 6 0x1C7),
  (0x26C98971, .stef false 9 0xC 0x136), (0x8EEC4671, .stff false 6 2 0x477), (0xC4D06B71, .feprobe false 0xB 3 0x626),
  (0xF1552471, .feset false 4 9 0x78A), (0x2661A075, .migrate false 0xD 0x133), (0x00040075, .pin false), (0x00080075, .unpin false),
  (0x000C0075, .home false), (0x00100D75, .here false 0xD)] = true := by decide

/-- One word of each form of majors 0x20 to 0x26 (02 R56), from its encoding: the fixed bits and every field in its place. -/
theorem test_decode_remote : reads decodeFull [
  (0x0C2D8083, .ramo true 0xC 0xB 8 1 0), (0x0A110585, .amo false 5 8 4 4 1 0), (0x06AE5289, .cas false 0x12 0x12 0xB 0xD 0 0),
  (0x0400008D, .fence false 0 1), (0x004C4091, .barInit false 2 0x13), (0x00ADE291, .barArr false 2 0xF 0xB),
  (0x012D6691, .barWait false 6 0xB 0xB), (0x01AE2C91, .barArrw false 0xC 0x11 0xB), (0x023E2291, .barCmb false 2 0x11 0xF),
  (0x02C98691, .barCmbw false 6 0xC 0x12), (0x01000095, .hbar false 2), (0x26004395, .hbarCmb false 3 2 4 1),
  (0x00000199, .time false 1), (0x0081C099, .waitt false 0xE), (0x01000199, .cycle false 1)] = true := by decide

/-- One word of each form of majors 0x28 to 0x2B, from its encoding: the fixed bits and every field in its place. -/
theorem test_decode_float : reads decodeFull [
  (0x181A28A1, .fadd false 8 0x11 6 3 0), (0x58C562A3, .fsub true 2 0xB 0x11 3 2), (0xF14673A3, .fmul true 0x13 0x13 0x11 2 7),
  (0x09B161A3, .fdiv true 1 0xB 0xC 1 0), (0x420169A1, .fsqrt false 9 0xB 0 2), (0x02AD46A1, .fmin false 6 0xA 0xB 0),
  (0x130CCAA1, .fmax false 0xA 6 3 2), (0x03B641A1, .fsgnj false 1 0x12 0xD 0), (0x0C35A3A1, .fsgnjn false 3 0xD 0xD 1),
  (0x14C9B2A1, .fsgnjx false 0x12 0xD 0x12 2), (0x0D0093A1, .fclass false 0x13 4 1), (0x30CDC9A5, .fma false 9 0xE 0x13 1 3),
  (0x562062A5, .fms false 2 3 8 0xC 1), (0xA68E0AA5, .fnma false 0xA 0x10 3 0xD 2), (0xC64821A5, .fnms false 1 1 0x12 0xC 0),
  (0x093DC8AB, .fcmp true 8 0xE 0xF 2 1), (0x1D0DF1AD, .fcvt false 0x11 0xF 3 4 7 0)] = true := by decide

/-- One word of each form of majors 0x2C to 0x35 (02 R57), from its encoding: the fixed bits and every field in its place. -/
theorem test_decode_vector : reads decodeFull [
  (0x0400DFB1, .vadd false 7 3 6 0 8), (0x0982DBB3, .vsub true 3 3 6 2 3), (0x108138B1, .vmul false 0 3 1 1 1),
  (0x18817EB3, .vmulh true 6 3 3 1 1), (0x228413B1, .vmin false 3 2 0 4 5), (0x2A879FB3, .vmax true 7 3 4 7 5),
  (0x328257B1, .vand false 7 2 2 2 5), (0x380526B3, .vor true 6 0 1 5 0), (0x430562B1, .vxor false 2 0 3 5 6),
  (0x4B86E0B3, .vshl true 0 0 7 6 7), (0x53855EB3, .vshr true 6 3 2 5 7), (0x5C00ADB1, .vsra false 5 1 5 0 8),
  (0x61801FB1, .vabs false 7 3 0 3), (0x6900C7B1, .vneg false 7 0 6 2), (0x018089B5, .vfma false 1 1 4 0 3),
  (0x0A0269B5, .vfms false 1 1 3 2 4), (0x1203B7B7, .vfnma true 7 2 5 3 4), (0x23052AB9, .vcmp false 2 1 1 5 6 4),
  (0x0480DFBD, .vsel false 7 3 6 0 9), (0x088427BF, .vperm true 7 0 1 4 1), (0x150258BD, .vbcast false 0 3 0x12 0xA),
  (0x1CC0A1BF, .vext true 1 5 0x10 9), (0x2420C1BD, .vins false 1 6 8 8), (0x28800DBF, .viota true 5 1 1),
  (0x0280BCC3, .vrsum true 4 3 5 5), (0x0A0120C1, .vrmax false 0 0 9 4), (0x11808DC3, .vrmin true 5 1 4 3),
  (0x190208C1, .vrmaxabs false 0 1 0x10 2), (0x014839C7, .vcvt true 1 3 1 9 2), (0x0C9C2DC7, .vquant true 5 1 1 7 0 9),
  (0x15006AC5, .vdeq false 2 1 3 0xA), (0x0187F6CB, .vdot true 6 2 7 7 3), (0x0A055FC9, .vdots false 7 3 2 5 4),
  (0x001A66CD, .vld false 6 0 0x13 6), (0x0849FCCD, .vst false 4 3 0xF 0x12), (0x1039DACF, .vlds true 2 3 0xE 0xE 0),
  (0x18955CCD, .vsts false 4 3 0xA 5 1), (0x20060ECF, .vgth true 6 1 0x10 1 0), (0x28964ACF, .vsct true 2 1 0x12 5 1),
  (0x000063D1, .kand false 3 3 0), (0x080121D3, .kor true 1 1 1), (0x100042D3, .kxor true 2 2 0), (0x180002D3, .knot true 2 0),
  (0x200242D1, .kmovGk false 2 0x12), (0x280083D1, .kmovKg false 3 4), (0x3001C0D3, .kpop true 0 0xE),
  (0x380178D1, .ktest false 0 3 0xB), (0x000001D5, .vfree false 1), (0x0800B3D5, .vmov false 3 2 5)] = true := by decide

/-- One word of each form of majors 0x38 to 0x3C, from its encoding: the fixed bits and every field in its place. -/
theorem test_decode_queue : reads decodeFull [
  (0x000000E1, .mlease false), (0x00800AE1, .mtryl false 0xA), (0x010260E1, .mrel false 0x13), (0x0181C5E1, .missue false 5 0xE),
  (0x02024BE1, .mwait false 0xB 0x12), (0x028133E1, .mseq false 0x13 9), (0x030060E1, .maccv false 0 3),
  (0x038264E1, .maccw false 4 0x13), (0x0038A6E9, .spawn false 6 5 0xE), (0x00B946E9, .spawnat false 6 0xA 0xE),
  (0x010CEBE9, .spawnany false 0xB 7 3), (0x018009E9, .tid false 9), (0x0201C0E9, .prio false 0xE), (0x000062ED, .qsend false 2 3),
  (0x008C2DED, .qrecv false 0xD 1 3), (0x010080ED, .qeos false 4), (0x018110ED, .qstat false 0x10 8), (0x0001ACF1, .dsend false 0xC 0xD),
  (0x00C032F1, .drecv false 0x12 1 0x10), (0x0104C0F1, .dseal false 6 1), (0x018163F1, .dquiet false 3 0xB),
  (0x023271F1, .xupd false 0x11 0x13 0xC), (0x02812CF1, .xscan false 0xC 9), (0x03384EF1, .xcnt false 0xE 2 0xE)] = true := by decide

/-- One word of each form of majors 0x3D and 0x3E, from its encoding: the fixed bits and every field in its place. -/
theorem test_decode_system : reads decodeFull [
  (0x0120C5F5, .cpy false 5 6 8 2), (0x1000E7F5, .cpy2d false 7 7), (0x200891F5, .awinit false 0x11 4 2),
  (0x301C47F5, .awwait false 7 2 7), (0x40084AF5, .scstart false 0xA 2 2), (0x50344BF5, .scmail false 0xB 2 0xD),
  (0x602411F5, .scwait false 0x11 9), (0xAD8010F9, .sysr false 0x10 0x56C), (0xBC84C0F9, .sysw false 6 0x5E4),
  (0x69C800F9, .trap false 0x34E), (0x000C00F9, .syscall false), (0x002C00F9, .eret false), (0x004C00F9, .brk false),
  (0x006D2BF9, .wake false 0xB 9), (0x008D60F9, .inval false 0xB), (0x00AD60F9, .segld false 0xB)] = true := by decide

/-- One word of each form of the Bookend's own (12 R265), from its encoding: the fixed bits and every field in its place. -/
theorem test_decode_bookend : reads decodeBookend [
  (0x0006840B, .bkRd 8 0xD), (0x0016900B, .bkWr 0xD 1), (0x6822A30B, .bkGet 6 5 2 0xD), (0x10E3370B, .bkPut 0xE 6 0xE 2),
  (0x00A8C40B, .bkWait 8 0x11 0xA), (0x00B1D00B, .bkSig 3 0xB)] = true := by decide
/-! ## Ill-formed instructions: one for each check, refused by that check's name -/

theorem test_ill_register : (Instr.add false 24 1 2).defect = some .register := by decide
theorem test_ill_shift_width : (Instr.shliW false 1 1 32).defect = some .combination := by decide
theorem test_ill_bit_field : (Instr.bfxZ false 1 1 63 1).defect = some .combination := by decide
theorem test_ill_condition : (Instr.cmp false 1 1 2 11).defect = some .selector := by decide
theorem test_ill_zero_halfword : (Instr.cMv false 0 0).defect = some .zeroHalfword := by decide
theorem test_ill_load_width : (Instr.ld false 1 1 7 0).defect = some .selector := by decide
theorem test_ill_store_width : (Instr.st false 1 1 4 0).defect = some .selector := by decide
theorem test_ill_atomic : (Instr.amo false 1 1 2 11 0 0).defect = some .selector ∧ (Instr.amo false 1 1 2 0 2 0).defect = some .combination ∧
    (Instr.ramo false 1 2 0 0 4).defect = some .combination := by decide
theorem test_ill_fence : (Instr.fence false 3 0).defect = some .combination ∧ (Instr.fence false 0 4).defect = some .combination := by decide
theorem test_ill_barrier_level : (Instr.hbar false 0).defect = some .combination ∧ (Instr.hbar false 5).defect = some .combination ∧
    (Instr.hbarCmb false 1 2 1 6).defect = some .combination := by decide
theorem test_ill_rounding : (Instr.fadd false 1 1 2 0 5).defect = some .rounding := by decide
theorem test_ill_float_compare : (Instr.fcmp false 1 1 2 4 0).defect = some .selector := by decide
theorem test_ill_conversion : (Instr.fcvt false 1 2 10 0 0 0).defect = some .typeCode ∧ (Instr.fcvt false 1 2 4 4 0 0).defect = some .combination ∧
    (Instr.vcvt false 1 0 2 3 3).defect = some .combination := by decide
theorem test_ill_vector_type : (Instr.vadd false 1 0 2 3 9).defect = some .typeCode ∧ (Instr.vand false 1 0 2 3 2).defect = some .typeCode ∧
    (Instr.vfma false 1 0 2 3 0).defect = some .typeCode ∧ (Instr.vabs false 1 0 2 1).defect = some .typeCode ∧
    (Instr.vdot false 1 0 2 3 0).defect = some .typeCode ∧ (Instr.vquant false 1 0 2 0 0 8).defect = some .typeCode ∧
    (Instr.vlds false 1 0 2 3 3).defect = some .typeCode ∧ (Instr.vperm false 1 0 2 3 11).defect = some .typeCode := by decide
theorem test_ill_vector_condition : (Instr.vcmp false 1 0 2 3 0 7).defect = some .selector ∧ (Instr.vcmp false 1 0 2 3 0 6).defect = some .typeCode := by
  decide
theorem test_ill_mask : (Instr.kand false 0 1 2).defect = some .mask ∧ (Instr.kand false 1 4 2).defect = some .mask ∧
    (Instr.vcmp false 4 0 2 3 0 0).defect = some .mask := by decide
theorem test_ill_group : (Instr.qsend false 21 1).defect = some .group ∧ (Instr.qrecv false 4 1 7).defect = some .group := by decide

/-- A well-formed instruction passes them all. -/
theorem test_well_formed : wellFormed (.qrecv false 20 1 3) = true ∧ wellFormed (.bfxZ false 1 1 0 63) = true := by decide

/-! ## Words that are no instruction -/

/-- 02 R48, R54, R53: the zero halfword, a reserved major, a reserved field that is not 0; and bytes that end too soon. -/
theorem test_refused : decode [0, 0] = .error .zeroHalfword ∧ decode [0x3D, 0, 0, 0] = .error .reservedMajor ∧
    decode [0xF9, 0x20, 0, 0] = .error .reservedField ∧ decode [0x01, 0x41] = .error .truncated := ⟨rfl, rfl, rfl, rfl⟩

/-! ## A small machine -/

/-- The state after a step that answers one, and the state after reset else. -/
def next (o : Out) : State :=
  match o with
  | .next s => s
  | _ => State.reset

/-- A thread with some registers set. -/
def thread : Thread := { st := .ready, asid := 1, tid := 0x200001, pc := 0x100, g := [(1, 0x40), (2, 0x77), (3, 5), (4, 0x2000000000000040), (5, 1), (6, 0x200), (7, 0x300),
    (8, 8), (10, 16), (11, 2), (12, 0x100), (13, 0x200), (14, 0x200003), (15, 0x200803)] }

/-- Segment 0 is the tile's own memory, one page at 0x10000 that may be used in every way; segment 1 is spread over tiles 0 and 512 in pieces
of 64 bytes; segment 2 is code. -/
def segments : Tab Segment := [
  (0, { kind := 3, rd := true, w := true, a := true, f := true, limit := 4096 }),
  (1, { kind := 1, rd := true, w := true, a := true, f := true, g := 6, lw := 1, limit := 4096, origin := 0 }),
  (2, { kind := 2, rd := true, x := true, limit := 4096 })]

/-- Tile 512, the second of the top row, with the partition of address space 1 resident. -/
def tile : Tile :=
  { name := 512, slotsReg := fullSlots, segValid := true, asid := 1, segs := segments
    tlb := [{ asid := 1, seg := 0, page := 0, psize := 0, frame := 0x10000, vault := false, wp := false, dirty := true },
      { asid := 1, seg := 1, page := 0, psize := 0, frame := 0x20000, vault := false, wp := false, dirty := true },
      { asid := 1, seg := 2, page := 0, psize := 0, frame := 0x30000, vault := false, wp := false, dirty := false }] }

/-- The machine with the thread in slot 0 of core 0 of tile 512 executing, and nothing else. -/
def demo (th : Thread := thread) (tl : Tile := tile) : State :=
  { State.reset with tiles := [(512, { tl with cores := [(0, { slots := [(0, th)] })] })], cur := (512, 0, 0) }

/-- Device address of segment 0, offset o. -/
def at0 (o : Nat) : Nat := sramAt 512 (0x10000 + o)

/-- The conditions of `State.Hits`, but for the device address, and that address. -/
def reaches (s : State) (n : Need) (write : Bool) (size : Nat) (va : Dword) (a : Nat) : Bool :=
  let d := s.myTile.seg (vaSeg va)
  (n.check d s.me.scratch (vaOff va)).isNone && d.owner s.here (vaOff va) == some s.here && !devVault a &&
  s.myCore.sb.all (fun e => (List.range size).all (fun i => (e.at_ (a + i)).isNone)) &&
  s.myCore.stalled.isNone && (s.tile (devTile a)).errs.isEmpty &&
  (match s.translate s.here s.me.asid.toNat (vaSeg va) d.mapping.scratch write d.mapping.psize (d.localOffset s.me.scratch (vaOff va)) with
    | .at_ p _ => p == a
    | .miss => false)

theorem reaches_hits {s : State} {n : Need} {write : Bool} {size : Nat} {va : Dword} {a : Nat} (h : reaches s n write size va a = true) :
    s.Hits n write size va a := by
  simp only [reaches, Bool.and_eq_true, Option.isNone_iff_eq_none, beq_iff_eq, Bool.not_eq_true', List.all_eq_true, List.mem_range,
    List.isEmpty_iff] at h
  obtain ⟨⟨⟨⟨⟨⟨h1, h2⟩, h3⟩, h4⟩, h6⟩, h7⟩, h5⟩ := h
  refine ⟨h1, h2, ?_, h3, h4, h6, h7⟩
  split at h5
  · rename_i p u e
    exact ⟨u, (beq_iff_eq.mp h5) ▸ e⟩
  · simp at h5

/-- The executing thread has nothing outstanding and no register with bad parity. -/
def calm (s : State) : Bool :=
  s.me.st == .ready && !s.me.walking && s.me.wait.isNone && s.me.pending.isEmpty && s.me.silent.isEmpty && s.me.posted.isEmpty && s.me.parity.isEmpty &&
  s.me.frm == 0 && s.me.denial.isNone && s.myCore.sb.isEmpty

/-- Such a thread passes the checks before any form with at most 16 destinations. -/
theorem calm_clear {s : State} {m : Bool} {dst src : List Dest} {long mem waits dyn : Bool} (h : calm s = true)
    (hd : dst.length ≤ 16) : s.Clear m dst src long mem waits dyn := by
  simp only [calm, Bool.and_eq_true, beq_iff_eq, Bool.not_eq_true', Option.isNone_iff_eq_none, List.isEmpty_iff] at h
  obtain ⟨⟨⟨⟨⟨⟨⟨⟨⟨h1, h2⟩, h3⟩, h4⟩, h8⟩, h5⟩, h6⟩, h7⟩, -⟩, -⟩ := h
  refine ⟨h1, h2, h3, fun _ => h4, fun _ => .inr ?_, fun _ => ?_, fun _ _ _ => ?_, ?_, fun _ => ?_⟩
  · rw [Thread.awaited, h4]
    exact Nat.le_trans (Nat.le_of_eq (Nat.zero_add _)) (Nat.le_trans (List.length_filter_le ..) hd)
  · rw [h4, h8, h5]; simp
  · rw [h4]; simp
  · rw [h6]; simp
  · rw [h7]; decide

/-- And it waits for nothing at a release. -/
theorem calm_released {s : State} (h : calm s = true) : s.Released := by
  simp only [calm, Bool.and_eq_true, beq_iff_eq, Bool.not_eq_true', Option.isNone_iff_eq_none, List.isEmpty_iff] at h
  obtain ⟨⟨⟨⟨⟨⟨⟨⟨⟨-, -⟩, -⟩, h4⟩, h6⟩, h5⟩, -⟩, -⟩, h8⟩, h9⟩ := h
  exact ⟨h4, h6, h5, by rw [Core.drained, h9]; rfl, h8⟩

theorem calm_demo : calm demo = true := by decide

/-- What holds of the one module listed, and of one that is not, holds of every module. -/
theorem every_module {s : State} {m : Module} {P : Module → Prop} (h : s.mods = [(0, m)]) (h1 : P m) (h0 : P {}) (n : Nat) :
    P (s.module n) := by
  rw [State.module, h]
  by_cases e : 0 = n
  · subst e; exact h1
  · simpa [Tab.get, e] using h0

/-- What holds of the one tile of such a machine, and of a tile not listed, holds of every tile. -/
theorem every_tile {s : State} {tl : Tile} {P : Tile → Prop} (h : s.tiles = [(512, tl)]) (h1 : P tl) (h0 : P {})
    (h2 : ∀ n r d, P { name := n, slotsReg := r, treedepth := d }) (t : Nat) : P (s.tile t) := by
  rw [State.tile, h]
  by_cases e : 512 = t
  · subst e; exact h1
  · simp only [Tab.get, e, if_false, freshTile]
    split
    · exact h2 ..
    · exact h0

/-- One whose only tile has no soft error is sound. -/
theorem sound {s : State} {tl : Tile} (h : s.tiles = [(512, tl)]) (h1 : tl.errs = []) : s.Sound :=
  every_tile (P := fun x => x.errs = []) h h1 rfl (fun _ _ _ => rfl)

/-- The executing thread of the small machine passes the checks before every form. -/
theorem demo_clear {m : Bool} {dst src : List Dest} {long mem waits dyn : Bool} (hd : dst.length ≤ 16 := by decide) :
    demo.Clear m dst src long mem waits dyn := calm_clear calm_demo hd

/-! ## States that meet the hypotheses: integer instructions and the events of a core -/

theorem witness_IntegerRegisterForms : demo.Clear false [gd 1] [gd 2, gd 3] := demo_clear

theorem witness_BitForms : demo.Clear true [gd 1] [gd 2] ∧ demo.Clear false [gd 1] [gd 1, gd 2] ∧
    (0 : BitVec 6).toNat + (63 : BitVec 6).toNat + 1 ≤ 64 := ⟨demo_clear, demo_clear, by decide⟩

theorem witness_IntegerImmediateForms : demo.Clear false [gd 1] [gd 2] ∧ demo.Clear false [gd 1] [] ∧ demo.Clear false [gd 1] [gd 1] ∧
    ∃ target : CodeAddr, target = demo.me.pc + ((1 : BitVec 19) ++ (0 : BitVec 13)).signExtend 48 :=
  ⟨demo_clear, demo_clear, demo_clear, _, rfl⟩

theorem witness_CompareAndPredicateForms : (10 ≤ 10 ∧ demo.Clear false [pd 1] [gd 1, gd 2] ∧ demo.Clear false [pd 15] [gd 1]) ∧
    demo.Clear false [pd 1] [pd 2, pd 3] ∧ demo.Clear false [pd 1] [pd 2] ∧ ((1 : BitVec 4) ≠ 0 ∧ demo.Clear false [gd 1] [pd 1]) ∧
    demo.Clear false [gd 1] allPreds ∧ demo.Clear false [pd 1] [gd 1] ∧ demo.Clear false allPreds [gd 1] ∧
    demo.Clear false [gd 1] [gd 2, gd 3, pd 1] :=
  ⟨⟨by decide, demo_clear, demo_clear⟩, demo_clear, demo_clear, ⟨by decide, demo_clear⟩, demo_clear, demo_clear,
    demo_clear, demo_clear⟩

theorem witness_CompactForms : demo.Clear false [gd 1] [gd 2] ∧ demo.Clear false [gd 1] [gd 1, gd 2] ∧ demo.Clear false [gd 1] [gd 1] ∧
    demo.Clear false [gd 1] [] ∧ demo.Clear false [pd 1] [gd 1, gd 2] ∧ demo.Clear true [] [pd 1] :=
  ⟨demo_clear, demo_clear, demo_clear, demo_clear, demo_clear, demo_clear⟩

theorem witness_MultiplyDivideForms : demo.Clear false [gd 1] [gd 2, gd 3] (long := true) ∧ demo.me.rg 3 ≠ 0 ∧
    demo.me.rg 9 = 0 := ⟨demo_clear, by decide, by decide⟩

/-- A result that has come, and one sleeping thread for each case: at its deadline, before it, and with none. -/
def withResult : State := demo { thread with pending := [{ tag := 0, dests := [.g 2], ready := true, writes := [toG 2 7] }] }
def asleep (ava : Dword) (waitt : Bool) : State := demo { thread with st := .sleeping, ava := ava, waitt := waitt }
/-- A thread in the normaliser, a store in the buffer, and a vector instruction in the queue with its group free. -/
def normalising : State :=
  demo { thread with st := .normalise } { tile with
    norm := [{ core := 0, slot := 0, result := { tag := 0, dests := [.g 2], ready := true, writes := [toG 2 7] } }] }
def entry (pos : Nat) : SbEntry :=
  { pos := pos, addr := at0 (16 * pos), bytes := [some 9, some 8], asid := 1, seg := 0, lo := 16 * pos, va := 0, tid := 0x200001 }
def buffered : State :=
  { demo with
    time := 1
    tiles := [(512, { tile with cores := [(0, { slots := [(0, thread)], sb := [entry 0], sbNext := 1 })] })] }
def vectorQueued : State :=
  { demo with
    time := 10
    tiles := [(512, { tile with
      slotsReg := 0x384210, cores := [(0, { slots := [(0, thread)], vq := [{ slot := 0, tag := 0, cost := 1, at_ := 9 }], credit := 1 })] })] }

theorem witness_CoreEvents :
    (∃ p, (withResult.thread 512 0 0).pending[0]? = some p ∧ p.ready = true ∧ p.gates = []) ∧
    ((asleep 0 true).thread 512 0 0).st = .sleeping ∧ ((asleep 0 true).thread 512 0 0).ava.toNat ≤ (asleep 0 true).time ∧
    ((asleep 0 true).thread 512 0 0).waitt = true ∧
    ((asleep 1 true).thread 512 0 0).st = .sleeping ∧ (asleep 1 true).time < ((asleep 1 true).thread 512 0 0).ava.toNat ∧
    (((asleep (BitVec.allOnes 64) false).thread 512 0 0).waitt = false ∧
      ((asleep (BitVec.allOnes 64) false).thread 512 0 0).ava = BitVec.allOnes 64) ∧
    (∃ q, (normalising.tile 512).norm = q :: [] ∧ (normalising.thread 512 q.core q.slot).st = .normalise ∧
      normalising.coreHalted 512 q.core (normalising.thread 512 q.core q.slot) = false) ∧
    (∃ e, ((buffered.tile 512).core 0).sb = e :: [] ∧ e.bytes = [9, 8].map some ∧ devVault e.addr = false ∧
      buffered.isPoisoned e.addr 2 = false ∧ e.entered < buffered.time ∧ ((buffered.tile 512).core 0).stalled = none ∧
      (buffered.tile (devTile e.addr)).errs = []) ∧
    (∃ e g, ((vectorQueued.tile 512).core 0).vq = e :: [] ∧ e.at_ < vectorQueued.time ∧ e.cost ≤ ((vectorQueued.tile 512).core 0).credit ∧
      (vectorQueued.tile 512).laneGroups = [g] ∧ (vectorQueued.tile 512).groupBusy.get 0 g ≤ vectorQueued.time ∧
      (∀ i < 4, i ≠ 0 → ((vectorQueued.tile 512).core i).vq = []) ∧ 0 < e.cost ∧ (vectorQueued.tile 512).arbAt ≤ vectorQueued.time ∧
      (vectorQueued.thread 512 0 e.slot).wait = none) :=
  ⟨⟨_, rfl, rfl, rfl⟩, rfl, by decide, rfl, rfl, by decide, ⟨rfl, rfl⟩, ⟨_, rfl, rfl, by decide⟩,
    ⟨entry 0, rfl, rfl, by decide, by decide, by decide, rfl, rfl⟩,
    ⟨_, 0, rfl, by decide, by decide, by decide, by decide, by decide, by decide, by decide, rfl⟩⟩

/-! ## Control transfer, traps and the thread's registers -/

/-- One return address is held, and one with a full store; a register with an odd address, and one with bits past a code address. -/
def oneLink : State := demo { thread with ldepth := 1, links := [(0, 0x200)] }
def fullLinks : State := demo { thread with ldepth := 3, links := [(0, 0x200), (1, 0x204), (2, 0x208)] }
def oddTarget : State := demo { thread with g := [(1, 0x41), (2, 0x200000000000)] }

theorem witness_TransferForms :
    (demo.Clear false [] [] ∧ demo.Clear false [] [pd 1] ∧ demo.Clear false [] [gd 1] ∧ (demo.me.rg 1).getLsbD 0 = false ∧
      (demo.me.rg 1).extractLsb' 45 16 = 0) ∧
    (oneLink.Clear false [] [] ∧ oneLink.me.ldepth ≠ 3 ∧ oneLink.me.ldepth ≠ 0 ∧ oneLink.Clear false [] [gd 1] ∧
      (oneLink.me.rg 1).getLsbD 0 = false ∧ (oneLink.me.rg 1).extractLsb' 45 16 = 0) ∧
    (oddTarget.Clear false [] [gd 1] ∧ (oddTarget.me.rg 1).getLsbD 0 = true) ∧
    (oddTarget.Clear false [] [gd 2] ∧ (oddTarget.me.rg 2).getLsbD 0 = false ∧ (oddTarget.me.rg 2).extractLsb' 45 16 ≠ 0) ∧
    (fullLinks.Clear false [] [] ∧ fullLinks.me.ldepth = 3 ∧ fullLinks.me.pending = [] ∧ fullLinks.Clear false [] [gd 1] ∧
      (fullLinks.me.rg 1).getLsbD 0 = false ∧ (fullLinks.me.rg 1).extractLsb' 45 16 = 0) ∧
    (demo.Clear false [] [] ∧ demo.me.ldepth = 0) :=
  have one : calm oneLink = true := by decide
  have odd : calm oddTarget = true := by decide
  have full : calm fullLinks = true := by decide
  ⟨⟨demo_clear, demo_clear, demo_clear, by decide, by decide⟩,
    ⟨calm_clear one (by decide), by decide, by decide, calm_clear one (by decide), by decide, by decide⟩,
    ⟨calm_clear odd (by decide), by decide⟩, ⟨calm_clear odd (by decide), by decide, by decide⟩,
    ⟨calm_clear full (by decide), rfl, rfl, calm_clear full (by decide), by decide, by decide⟩, demo_clear, rfl⟩

theorem witness_WaitAndReadForms : demo.Clear false [] [] ∧ demo.Clear false [gd 1] [] ∧ demo.Clear false [] [gd 1] ∧
    (demo.me.priv = 0 ∧ ((demo.me.rg 9).truncate 2 : BitVec 2).toNat ≤ demo.me.prio.toNat) ∧
    (demo.me.priv = 0 ∧ demo.me.prio.toNat < ((demo.me.rg 3).truncate 2 : BitVec 2).toNat) :=
  ⟨demo_clear, demo_clear, demo_clear, ⟨rfl, by decide⟩, rfl, by decide⟩

theorem witness_TrapEntry : Cause.illegal ≠ Cause.linkOverflow ∧ (demo.thread 512 0 0).pending = [] ∧
    (withResult.thread 512 0 0).pending ≠ [] := ⟨by decide, rfl, by decide⟩

/-- A supervisor thread, and one that returns to machine privilege, which it may not. -/
def supervisor : State := demo { thread with priv := 1 }
def wrongReturn : State := demo { thread with priv := 1, ppriv := 3 }
/-- BRK halts. -/
def brkHalts : State := { demo with mods := [(0, { brkhalt := true })] }

theorem witness_TrapForms : demo.Clear false [] [] ∧ (demo.module (Config.nameM 512)).brkhalt = false ∧
    (brkHalts.Clear false [] [] ∧ (brkHalts.module (Config.nameM 512)).brkhalt = true) ∧
    (supervisor.Clear false [] [] ∧ supervisor.me.priv ≠ 0 ∧ supervisor.me.ppriv ≠ 2 ∧ supervisor.me.ppriv ≠ 3) ∧
    (wrongReturn.Clear false [] [] ∧ wrongReturn.me.ppriv = 3 ∧ wrongReturn.me.priv ≠ 3) :=
  ⟨demo_clear, by decide, ⟨calm_clear (by decide) (by decide), by decide⟩,
    ⟨calm_clear (by decide) (by decide), by decide, by decide, by decide⟩, calm_clear (by decide) (by decide), rfl, by decide⟩

theorem witness_ThreadRegisters : demo.Clear false [gd 1] [] (waits := true) ∧ demo.Clear false [] [gd 1] (waits := true) ∧
    demo.me.priv = 0 ∧ supervisor.Clear false [gd 1] [] (waits := true) ∧ supervisor.Clear false [] [gd 1] (waits := true) ∧
    supervisor.me.priv ≠ 0 :=
  ⟨demo_clear, demo_clear, rfl, calm_clear (by decide) (by decide), calm_clear (by decide) (by decide), by decide⟩

/-! ## Memory at the thread's own tile -/

/-- The thread's registers as pointers: g1 to segment 0, g4 to segment 1. -/
theorem witness_LocalLoads :
    (demo.Clear false [gd 2] [gd 1] (long := true) (mem := true) ∧
      demo.Hits { size := 1, align := 1, right := .rd } false 1 0x40 (at0 0x40) ∧ demo.isPoisoned (at0 0x40) 1 = false ∧
      (0x40 : Dword) = demo.me.rg 1 + (0 : BitVec 11).signExtend 64 * BitVec.ofNat 64 1) ∧
    (demo.Hits { size := 8, align := 8, right := .rd } false 8 0x40 (at0 0x40) ∧ demo.isPoisoned (at0 0x40) 8 = false ∧
      (0x40 : Dword) = demo.me.rg 1) :=
  ⟨⟨demo_clear, ⟨by decide, by decide, ⟨_, rfl⟩, by decide, by decide, rfl, rfl⟩, by decide, by decide⟩,
    ⟨by decide, by decide, ⟨_, rfl⟩, by decide, by decide, rfl, rfl⟩, by decide, by decide⟩

/-- The store buffer of the thread's core is full. -/
def fullBuffer : State :=
  { demo with tiles := [(512, { tile with cores := [(0, { slots := [(0, thread)], sb := (List.range 16).map entry, sbNext := 16 })] })] }

theorem fullBuffer_clear {m : Bool} {dst src : List Dest} {mem : Bool} : fullBuffer.Clear m dst src (mem := mem) :=
  ⟨rfl, rfl, rfl, fun _ => rfl, nofun, fun _ => ⟨nofun, nofun⟩, nofun, nofun, nofun⟩

theorem witness_LocalStores :
    (demo.Clear false [] [gd 2, gd 1] (mem := true) ∧ demo.Hits { size := 8, align := 8, right := .w } true 8 0x40 (at0 0x40) ∧
      demo.isPoisoned (at0 0x40) 8 = false ∧ (3, 8) ∈ [(0, 1), (1, 2), (2, 4), (3, 8)] ∧ demo.myCore.sb.length < 16 ∧
      (0x40 : Dword) = demo.me.rg 1 + (0 : BitVec 11).signExtend 64 * BitVec.ofNat 64 8 ∧ (0x40 : Dword) = demo.me.rg 1) ∧
    (fullBuffer.Clear false [] [gd 2, gd 1] (mem := true) ∧ 16 ≤ fullBuffer.myCore.sb.length ∧
      fullBuffer.Hits { size := 8, align := 8, right := .w } true 8 0x400 (at0 0x400)) :=
  ⟨⟨demo_clear, ⟨by decide, by decide, ⟨_, rfl⟩, by decide, by decide, rfl, rfl⟩, by decide, by decide, by decide, by decide, by decide⟩,
    fullBuffer_clear, by decide, by decide, by decide, ⟨_, rfl⟩, by decide, by decide, rfl, rfl⟩

/-- The word at 0x40 is empty. -/
def emptyWord : State := { demo with empties := [at0 0x40] }

theorem emptyWord_clear {m : Bool} {dst src : List Dest} {long mem waits dyn : Bool} (hd : dst.length ≤ 16 := by decide) :
    emptyWord.Clear m dst src long mem waits dyn := calm_clear (by decide) hd

theorem witness_FullEmptyForms :
    (0x40 : Dword) = demo.me.rg 1 + (0 : BitVec 11).signExtend 64 * 8 ∧ at0 0x40 % 8 = 0 ∧
    (demo.isPoisoned (at0 0x40) 8 = false ∧ (demo.tile demo.here).waitersAt (at0 0x40) = [] ∧ demo.empties.contains (at0 0x40) = false ∧
      demo.Clear false [gd 2] [gd 1] (long := true) (mem := true) ∧
      demo.Hits { size := 8, align := 8, right := .fe, host := false } true 8 0x40 (at0 0x40) ∧
      demo.Hits { size := 8, align := 8, right := .fe, host := false } false 8 0x40 (at0 0x40) ∧
      demo.Clear false [] [gd 2, gd 1] (mem := true) ∧ demo.Released ∧
      demo.Hits { size := 8, align := 8, right := .feW, host := false } true 8 0x40 (at0 0x40)) ∧
    (emptyWord.isPoisoned (at0 0x40) 8 = false ∧ (emptyWord.tile emptyWord.here).waitersAt (at0 0x40) = [] ∧
      emptyWord.empties.contains (at0 0x40) = true ∧ (emptyWord.tile emptyWord.here).waiterCount < 4096 ∧
      emptyWord.Clear false [gd 2] [gd 1] (long := true) (mem := true) ∧
      emptyWord.Hits { size := 8, align := 8, right := .fe, host := false } true 8 0x40 (at0 0x40) ∧
      emptyWord.Hits { size := 8, align := 8, right := .fe, host := false } false 8 0x40 (at0 0x40) ∧
      emptyWord.Clear false [] [gd 2, gd 1] (mem := true) ∧ emptyWord.Released ∧
      emptyWord.Hits { size := 8, align := 8, right := .feW, host := false } true 8 0x40 (at0 0x40)) :=
  ⟨by decide, by decide,
    ⟨by decide, by decide, by decide, demo_clear, ⟨by decide, by decide, ⟨_, rfl⟩, by decide, by decide, rfl, rfl⟩,
      ⟨by decide, by decide, ⟨_, rfl⟩, by decide, by decide, rfl, rfl⟩, demo_clear, calm_released calm_demo,
      ⟨by decide, by decide, ⟨_, rfl⟩, by decide, by decide, rfl, rfl⟩⟩,
    by decide, by decide, by decide, by decide, emptyWord_clear, ⟨by decide, by decide, ⟨_, rfl⟩, by decide, by decide, rfl, rfl⟩,
    ⟨by decide, by decide, ⟨_, rfl⟩, by decide, by decide, rfl, rfl⟩, emptyWord_clear, calm_released (by decide),
    ⟨by decide, by decide, ⟨_, rfl⟩, by decide, by decide, rfl, rfl⟩⟩

theorem witness_LocalAtomics :
    at0 0x40 % 8 = 0 ∧ demo.isPoisoned (at0 0x40) 8 = false ∧ demo.Released ∧
    demo.Hits { size := 8, align := 8, right := .a, host := true } true 8 (demo.me.rg 1) (at0 0x40) ∧ (8 : BitVec 4).toNat ≤ 8 ∧
    demo.Hits { size := 4, align := 4, right := .a } true 4 (demo.me.rg 1) (at0 0x40) ∧
    demo.Hits { size := 4, align := 4, right := .a, host := false } true 4 (demo.me.rg 1) (at0 0x40) ∧
    demo.Clear false [gd 2] [gd 1, gd 3] (long := true) (mem := true) ∧ demo.Clear false [] [gd 1, gd 3] (mem := true) ∧
    demo.Clear false [gd 2] [gd 1, gd 3, gd 4] (long := true) (mem := true) :=
  ⟨by decide, by decide, calm_released calm_demo, ⟨by decide, by decide, ⟨_, rfl⟩, by decide, by decide, rfl, rfl⟩, by decide,
    ⟨by decide, by decide, ⟨_, rfl⟩, by decide, by decide, rfl, rfl⟩, ⟨by decide, by decide, ⟨_, rfl⟩, by decide, by decide, rfl, rfl⟩, demo_clear, demo_clear,
    demo_clear⟩

/-! ## Checks and paths of an access -/

/-- What a segment check of an 8-byte load finds at each of four addresses: an invalid segment, an odd one, one past the limit, and a segment
that may not be read. -/
theorem witness_AccessTraps :
    (demo.Clear false [gd 2] [gd 1] (long := true) (mem := true) ∧ demo.Clear false [] [gd 2, gd 1] (mem := true) ∧ demo.Released ∧
      demo.Clear false [gd 2] [gd 1, gd 3] (long := true) (mem := true) ∧ demo.Clear false [] [gd 1, gd 3] (mem := true) ∧
      demo.Clear false [gd 2] [gd 1, gd 3, gd 4] (long := true) (mem := true)) ∧
    (let g := fun (va : Dword) => demo.myTile.seg (vaSeg va)
     (g 0xE000000000000000).kind = 0 ∧ ((g 0x41).kind ≠ 0 ∧ vaOff 0x41 % 8 ≠ 0) ∧
     ((g 4096).kind ≠ 0 ∧ vaOff 4096 % 8 = 0 ∧ (g 4096).size demo.me.scratch < vaOff 4096 + 8) ∧
     ((g 0x4000000000000FF8).kind ≠ 0 ∧ vaOff 0x4000000000000FF8 % 8 = 0 ∧
       vaOff 0x4000000000000FF8 + 8 ≤ (g 0x4000000000000FF8).size demo.me.scratch ∧ (g 0x4000000000000FF8).w = false)) :=
  ⟨⟨demo_clear, demo_clear, calm_released calm_demo, demo_clear, demo_clear, demo_clear⟩,
    by decide, by decide, by decide, by decide⟩

/-- An offset of segment 1 that tile 0 owns, for a thread that may leave and for one that is pinned. -/
def remotePointer : Dword := 0x2000000000000000
def pinned : State := demo { thread with pincnt := 5, g := [(1, 0x2000000000000000)] }
def leaving : State := demo { thread with g := [(1, 0x2000000000000000)] }
/-- One that may leave but has a load that has not returned. -/
def heldUp : State :=
  demo { thread with g := [(1, 0x2000000000000000)], pending := [{ tag := 0, dests := [.g 9], ready := false, writes := [] }] }

theorem heldUp_clear {dst src : List Dest} {long mem : Bool} (hd : 1 + (live dst).length ≤ 16 := by decide) :
    heldUp.Clear false dst src long mem :=
  ⟨rfl, rfl, rfl, nofun, fun _ => .inr hd, fun _ => ⟨by decide, nofun⟩, nofun, nofun, nofun⟩

theorem leaving_clear {m : Bool} {dst src : List Dest} {long mem waits dyn : Bool} (hd : dst.length ≤ 16 := by decide) :
    leaving.Clear m dst src long mem waits dyn := calm_clear (by decide) hd

/-- A refused record of the thread, for a queue of tile 0, waits in the resend buffer. -/
def refused : Op :=
  { kind := .queue .eos, path := .posted, origin := .thread 512 0x200001 7, asid := 1, seg := 0, va := 0x3, lo := 3, owner := 0, src := 512 }
def pinnedBehind : State :=
  demo { thread with pincnt := 5, g := [(1, 0x2000000000000000)] } { tile with resend := [(0, refused)] }

theorem witness_PathsToAnotherTile :
    leaving.stays leaving.me = false ∧ leaving.me.denial = none ∧ leaving.me.posted.length < 255 ∧ leaving.Released ∧
    leaving.me.rg 1 = remotePointer ∧ remotePointer = leaving.me.rg 1 + (0 : BitVec 11).signExtend 64 * 8 ∧
    leaving.Away { size := 8, align := 8, right := .rd } remotePointer 0 ∧ leaving.Away { size := 8, align := 8, right := .w } remotePointer 0 ∧
    leaving.Away { size := 8, align := 8, right := .fe, host := false } remotePointer 0 ∧
    leaving.Away { size := 8, align := 8, right := .feW, host := false } remotePointer 0 ∧
    leaving.Away { size := 8, align := 8, right := .a } remotePointer 0 ∧
    leaving.Away { size := 16, align := 16, right := .rdWA, host := false, sramOnly := true } remotePointer 0 ∧
    leaving.Away { size := 16, align := 16, right := .rdWA, host := false, sramOnly := true, kind13 := true } remotePointer 0 ∧
    leaving.Clear false [gd 2] [gd 1] (long := true) (mem := true) ∧ leaving.Clear false [] [gd 2, gd 1] (mem := true) ∧
    leaving.Clear false [gd 2] [gd 1, gd 3] (long := true) (mem := true) ∧ leaving.Clear false [] [gd 1, gd 3] (mem := true) ∧
    leaving.Clear false [gd 2] [gd 1, gd 3, gd 4] (long := true) (mem := true) ∧
    (pinned.stays pinned.me = true ∧ pinned.Clear false [gd 2] [gd 1] (long := true) (mem := true) ∧
      pinned.Away { size := 8, align := 8, right := .rd } remotePointer 0) ∧
    (heldUp.stays heldUp.me = false ∧ heldUp.me.pending ≠ [] ∧ heldUp.Clear false [gd 2] [gd 1] (long := true) (mem := true) ∧
      heldUp.Clear false [] [gd 2, gd 1] (mem := true) ∧ heldUp.Away { size := 8, align := 8, right := .rd } remotePointer 0) ∧
    leaving.myTile.resend = [] ∧
    (pinnedBehind.stays pinnedBehind.me = true ∧ pinnedBehind.Clear false [] [gd 2, gd 1] (mem := true) ∧
      pinnedBehind.me.denial = none ∧ pinnedBehind.me.posted.length < 255 ∧
      pinnedBehind.Away { size := 8, align := 8, right := .w } remotePointer 0 ∧
      pinnedBehind.myTile.resend.any (fun x => (pinnedBehind.asks (.store 8 (pinnedBehind.me.rg 2)) .posted remotePointer 0).follows x.2)
        = true) :=
  ⟨by decide, by decide, by decide, calm_released (by decide), by decide, by decide, ⟨by decide, by decide, by decide, by decide⟩,
    ⟨by decide, by decide, by decide, by decide⟩, ⟨by decide, by decide, by decide, by decide⟩, ⟨by decide, by decide, by decide, by decide⟩,
    ⟨by decide, by decide, by decide, by decide⟩, ⟨by decide, by decide, by decide, by decide⟩, ⟨by decide, by decide, by decide, by decide⟩,
    leaving_clear, leaving_clear, leaving_clear, leaving_clear, leaving_clear,
    ⟨by decide, calm_clear (by decide) (by decide), by decide, by decide, by decide, by decide⟩,
    ⟨by decide, by decide, heldUp_clear, heldUp_clear, by decide, by decide, by decide, by decide⟩, rfl,
    by decide, calm_clear (by decide) (by decide), rfl, by decide, ⟨by decide, by decide, by decide, by decide⟩, by decide⟩

/-- A thread of another tile, one of a tile that is not there, and one that departs. -/
def guest : State := demo { thread with tid := 0x1 }
def heldGuest : State :=
  demo { thread with tid := 0x1, pending := [{ tag := 0, dests := [.g 9], ready := false, writes := [] }] }
def homeless : State := demo { thread with tid := 0xFFFFF001 }
def departing : State :=
  demo { thread with
    st := .departing, depart := some 0, departAt := some 0
    wait := some { dests := [], op := { kind := .arrive, path := .here, origin := .thread 512 0x200001 0, asid := 1, seg := 1, va := remotePointer
                                        lo := 0, owner := 0, src := 512 } } }
/-- It comes from the tile that it goes back to, for the first time and for the fourth. -/
def bouncing (b : BitVec 3) : State :=
  demo { thread with
    st := .departing, depart := some 0, departAt := some 0, d1 := 0, bounce := b
    wait := some { dests := [], op := { kind := .arrive, path := .here, origin := .thread 512 0x200001 0, asid := 1, seg := 1, va := remotePointer
                                        lo := 0, owner := 0, src := 512 } } }

theorem witness_MigrationForms :
    (leaving.Clear false [] [gd 1] (mem := true) (waits := true) ∧ leaving.me.denial = none ∧ leaving.stays leaving.me = false ∧
      leaving.Away { size := 1, align := 1, right := .none, host := false } remotePointer 0) ∧
    (pinned.Clear false [] [gd 1] (mem := true) (waits := true) ∧ pinned.stays pinned.me = true ∧
      pinned.Away { size := 1, align := 1, right := .none, host := false } remotePointer 0) ∧
    (({ size := 1, align := 1, right := .none, host := false } : Need).check (demo.myTile.seg (vaSeg 0x40)) demo.me.scratch (vaOff 0x40) = none ∧
      (demo.myTile.seg (vaSeg 0x40)).owner demo.here (vaOff 0x40) = some demo.here) ∧
    (demo.Clear false [] [] (mem := true) ∧ demo.me.tid.toNat / 4096 = demo.here) ∧
    (guest.Clear false [] [] (mem := true) ∧ guest.me.tid.toNat / 4096 ≠ guest.here ∧ guest.stays guest.me = false ∧
      guest.reachable (guest.me.tid.toNat / 4096) = true ∧ guest.me.pending = []) ∧
    (heldGuest.Clear false [] [] (mem := true) ∧ heldGuest.me.tid.toNat / 4096 ≠ heldGuest.here ∧
      heldGuest.stays heldGuest.me = false ∧ heldGuest.reachable (heldGuest.me.tid.toNat / 4096) = true ∧ heldGuest.me.pending ≠ []) ∧
    (homeless.Clear false [] [] (mem := true) ∧ homeless.me.tid.toNat / 4096 ≠ homeless.here ∧ homeless.stays homeless.me = false ∧
      homeless.reachable (homeless.me.tid.toNat / 4096) = false) ∧
    (∀ s ∈ [departing, bouncing 0, bouncing 3], ∃ w, (s.thread 512 0 0).st = .departing ∧ (s.thread 512 0 0).depart = some 0 ∧
      (s.thread 512 0 0).departAt = some 0 ∧ (s.thread 512 0 0).wait = some w ∧ s.unitsRun 512 = true) ∧
    (departing.thread 512 0 0).d1.toNat ≠ 0 ∧ ((bouncing 0).thread 512 0 0).d1.toNat = 0 ∧ ((bouncing 0).thread 512 0 0).bounce.toNat ≠ 3 ∧
    ((bouncing 3).thread 512 0 0).bounce.toNat = 3 ∧
    (heldUp.me.denial = none ∧ heldUp.me.st = .ready ∧ heldUp.me.walking = false ∧ heldUp.me.wait = none ∧ heldUp.me.pending ≠ []) ∧
    departing.time ≤ 0 + 2048 ∧ 0 + 2048 < ({ departing with time := 2049 } : State).time := by
  refine ⟨⟨leaving_clear, by decide, by decide, by decide, by decide, by decide, by decide⟩,
    ⟨calm_clear (by decide) (by decide), by decide, by decide, by decide, by decide, by decide⟩, by decide,
    ⟨demo_clear, by decide⟩, ⟨calm_clear (by decide) (by decide), by decide, by decide, by decide, rfl⟩,
    ⟨⟨rfl, rfl, rfl, nofun, nofun, fun _ => ⟨by decide, nofun⟩, nofun, nofun, nofun⟩, by decide, by decide, by decide, nofun⟩,
    ⟨calm_clear (by decide) (by decide), by decide, by decide, by decide⟩, ?_, by decide, by decide, by decide, by decide,
    ⟨rfl, rfl, rfl, rfl, nofun⟩, by decide, by decide⟩
  intro s hs
  simp only [List.mem_cons, List.not_mem_nil, or_false] at hs
  obtain rfl | rfl | rfl := hs <;> exact ⟨_, rfl, rfl, rfl, rfl, by decide⟩

/-- Something of the thread is outstanding: a store of the core's buffer below its mark, and a posted operation at another tile. -/
def undrained : State :=
  { demo with tiles := [(512, { tile with cores := [(0, { slots := [(0, { thread with mark := 1 })], sb := [entry 0], sbNext := 1 })] })] }
def unacknowledged : State := demo { thread with posted := [{ tag := 0, owner := 0, acq := false }] }
/-- A load that has not returned. -/
def loading : State := demo { thread with pending := [{ tag := 0, dests := [.g 2], ready := false, writes := [], mem := true }] }

theorem witness_FenceForm :
    ((2 : BitVec 3).toNat ≤ 2 ∧ (3 : BitVec 3).toNat ≤ 3 ∧ demo.Clear false [] [] (mem := true) ∧ (∀ p ∈ demo.me.pending ++ demo.me.silent, p.mem = false) ∧
      (∀ e ∈ demo.myCore.sb, demo.me.mark ≤ e.pos) ∧ (∀ p ∈ demo.me.posted, p.owner ≠ demo.here) ∧ demo.me.posted = [] ∧
      demo.me.denial = none) ∧
    (undrained.Clear false [] [] (mem := true) ∧ ¬ ∀ e ∈ undrained.myCore.sb, undrained.me.mark ≤ e.pos) ∧
    (unacknowledged.Clear false [] [] (mem := true) ∧ (∀ p ∈ unacknowledged.me.posted, p.owner ≠ unacknowledged.here) ∧
      unacknowledged.me.posted ≠ []) ∧
    (loading.Clear false [] [] (mem := true) ∧ ¬ ∀ p ∈ loading.me.pending ++ loading.me.silent, p.mem = false) := by
  refine ⟨⟨by decide, by decide, demo_clear, by decide, by decide, by decide, by decide, by decide⟩, ⟨?_, by decide⟩,
    ⟨?_, by decide, by decide⟩, ?_, by decide⟩
  all_goals exact ⟨rfl, rfl, rfl, nofun, nofun, fun _ => ⟨by decide, by decide⟩, by decide, nofun, nofun⟩

/-! ## Barriers and arrival words -/

/-- An object at 0x40 that expects one arrival; in memory that is all zero it expects 65,536. -/
def barrier : State := { demo with mem := [(at0 0x40, 1)] }
theorem barrier_clear {m : Bool} {dst src : List Dest} {long mem waits dyn : Bool} (hd : dst.length ≤ 16 := by decide) :
    barrier.Clear m dst src long mem waits dyn := calm_clear (by decide) hd
def object (s : State) : BarObj := { w0 := s.dword (at0 0x40), w1 := s.dword (at0 0x40 + 8) }
def counts (s : State) (r : BitVec 5) : BarObj × Bool × Option Dword :=
  let x := s.me.rg r
  (object s).arrive (field x 0 16) (x.getLsbD 20) (field x 16 4) none
def combines (s : State) (r : BitVec 5) : BarObj × Bool × Option Dword := (object s).arrive 1 false 0 (some (s.me.rg r))

/-- An arrival of a stale phase; one below, at and beyond the expected number; and the same for the forms, with g9, g5 and g3 as rs2. -/
theorem witness_BarrierForms :
    (1 ≠ field (object demo).w0 32 4 ∧ 0 = field (object demo).w0 32 4) ∧
    (field (object barrier).w0 0 16 = 1 ∧ field (object barrier).w0 16 16 + 0 < 1 ∧ field (object barrier).w0 16 16 + 1 = 1 ∧
      1 < field (object barrier).w0 16 16 + 2) ∧
    (∀ s ∈ [demo, barrier], s.Released ∧ s.isPoisoned (at0 0x40) 16 = false ∧ (s.tile s.here).waitersAt (at0 0x40) = [] ∧
      (s.tile s.here).waiterCount < 4096 ∧ s.Clear false [] [gd 1, gd 3] (mem := true) ∧
      s.Clear false [gd 2] [gd 1, gd 3] (long := true) (mem := true) ∧
      s.Hits { size := 16, align := 16, right := .rdWA, host := false, sramOnly := true } true 16 (s.me.rg 1) (at0 0x40) ∧
      s.Hits { size := 16, align := 16, right := .rdWA, host := false, sramOnly := true } false 16 (s.me.rg 1) (at0 0x40)) ∧
    (field (demo.me.rg 3) 0 4 ≠ (object demo).phase ∧ field (demo.me.rg 9) 0 4 = (object demo).phase) ∧
    ((counts barrier 9).2.1 = false ∧ (counts barrier 9).2.2 = none ∧ (counts barrier 5).2.1 = false ∧ (counts barrier 5).2.2 ≠ none ∧
      (counts barrier 3).2.1 = true ∧ (object barrier).w0.getLsbD 44 = false) ∧
    ((combines demo 3).2.1 = false ∧ (combines demo 3).2.2 = none ∧ (combines barrier 3).2.1 = false ∧
      (combines barrier 3).2.2 ≠ none) := by
  refine ⟨by decide, by decide, fun s hs => ?_, by decide, by decide, by decide⟩
  simp only [List.mem_cons, List.not_mem_nil, or_false] at hs
  obtain rfl | rfl := hs
  · exact ⟨calm_released calm_demo, by decide, by decide, by decide, demo_clear, demo_clear,
      ⟨by decide, by decide, ⟨_, rfl⟩, by decide, by decide, rfl, rfl⟩, ⟨by decide, by decide, ⟨_, rfl⟩, by decide, by decide, rfl, rfl⟩⟩
  · exact ⟨calm_released (by decide), by decide, by decide, by decide, barrier_clear, barrier_clear,
      ⟨by decide, by decide, ⟨_, rfl⟩, by decide, by decide, rfl, rfl⟩, ⟨by decide, by decide, ⟨_, rfl⟩, by decide, by decide, rfl, rfl⟩⟩

/-- Counts below, at and past a target of 64, and a target of 0. -/
theorem witness_ArrivalWordForms :
    ((0x7FFFFFFF : Nat) < 2 ^ 31 ∧ field (64 : Dword) 32 32 + 63 < field (64 : Dword) 0 31 ∧
      field (64 : Dword) 0 31 ≤ field (64 : Dword) 32 32 + 64 ∧ field (64 : Dword) 0 31 ≠ 0 ∧ field (0 : Dword) 0 31 = 0) ∧
    (demo.isPoisoned (at0 0x40) 16 = false ∧ (demo.tile demo.here).waitersAt (at0 0x40) = [] ∧
      demo.Clear false [gd 2] [gd 1, gd 3] (long := true) (mem := true) ∧ demo.Released ∧
      demo.Hits { size := 16, align := 16, right := .rdWA, host := false, sramOnly := true, kind13 := true } true 16 0x40 (at0 0x40) ∧
      demo.Hits { size := 16, align := 16, right := .rdWA, host := false, sramOnly := true, kind13 := true } false 16 0x40 (at0 0x40) ∧
      field (demo.dword (at0 0x40 + 8)) 0 16 ≠ field (demo.me.rg 3) 0 16 ∧
      field (demo.dword (at0 0x40 + 8)) 0 16 = field (demo.me.rg 9) 0 16 ∧ (demo.tile demo.here).waiterCount < 4096) :=
  ⟨by decide, by decide, by decide, demo_clear, calm_released calm_demo, ⟨by decide, by decide, ⟨_, rfl⟩, by decide, by decide, rfl, rfl⟩,
    ⟨by decide, by decide, ⟨_, rfl⟩, by decide, by decide, rfl, rfl⟩, by decide, by decide, by decide⟩

/-- A tile whose barrier counts n threads. -/
def counting (n : BitVec 16) : State := demo thread { tile with hbarcnt := n }
theorem counting_calm (n : BitVec 16) : calm (counting n) = true := by
  have : calm (counting n) = calm (counting 0) := rfl
  rw [this]; decide

theorem witness_TileBarrierForms (n : BitVec 16) (_ : n ∈ [(0 : BitVec 16), 1, 2]) :
    (counting n).Released ∧ (∀ t, ((counting n).tile t).hbar = none) ∧ (counting n).episodes = [] ∧ (5 : BitVec 3).toNat ≤ 5 ∧ (counting n).cur.2.1 < 4 ∧
    (counting n).cur.2.2 < 16 ∧ (counting n).Clear false [] [] (mem := true) ∧
    (counting n).Clear false [gd 1] [gd 2] (long := true) (mem := true) ∧ (counting n).myTile.hbarExtra = [] ∧
    (counting n).myTile.hbarcnt = n :=
  ⟨calm_released (counting_calm n), every_tile (P := fun x => x.hbar = none) rfl rfl rfl (fun _ _ _ => rfl), rfl, by decide,
    Nat.zero_lt_succ 3, Nat.zero_lt_succ 15, calm_clear (counting_calm n) (by decide),
    calm_clear (counting_calm n) (by decide), rfl, rfl⟩

/-! ## Floating-point and vector forms -/

/-- The bits of a subnormal F64 number, and of one that is not. -/
theorem witness_ScalarFloatForms :
    demo.Clear false [gd 1] [gd 2, gd 3] (long := true) (dyn := true) ∧ demo.Clear false [gd 1] [gd 2] (long := true) (dyn := true) ∧
    demo.Clear false [gd 1] [gd 2, gd 3] (long := true) ∧ demo.Clear false [gd 1] [gd 2] (long := true) ∧
    demo.Clear false [gd 1] [gd 2, gd 3, gd 4] (long := true) (dyn := true) ∧ demo.Clear false [pd 1] [gd 2, gd 3] (long := true) ∧
    ((3 : BitVec 2).toNat, bf16) ∈ [(0, f64), (1, f32), (2, f16), (3, bf16)] ∧
    (4 ≤ (4 : BitVec 4).toNat ∧ f64.subnormal (demo.me.rg 3).toNat = true) ∧ f64.subnormal (demo.me.rg 4).toNat = false :=
  ⟨demo_clear, demo_clear, demo_clear, demo_clear, demo_clear, demo_clear, by decide, by decide, by decide⟩

/-- A thread that may use all the vector registers, at a tile with its four lane groups. -/
def room (s : State) : Prop := (7 : BitVec 3).toNat < s.me.vregs ∧ s.me.vregs = 8 ∧ s.myTile.laneGroups ≠ [] ∧ s.myCore.vq.length < 8

theorem room_demo : room demo := ⟨by decide, rfl, by decide, by decide⟩

theorem witness_VectorIntegerForms : room demo ∧
    ((8 : BitVec 4).toNat, 8, false) ∈ [(0, 32, true), (1, 32, false), (5, 16, true), (6, 16, false), (7, 8, true), (8, 8, false)] ∧
    demo.Clear false [vd 1] [vd 1, vd 2, vd 7, kd 1] (long := true) ∧ demo.Clear false [vd 1] [vd 1, vd 2, kd 1] (long := true) :=
  ⟨room_demo, by decide, demo_clear, demo_clear⟩

theorem witness_VectorFloatForms : room demo ∧ ((4 : BitVec 4).toNat, f16) ∈ [(2, f32), (3, bf16), (4, f16)] ∧
    demo.Clear false [vd 1] [vd 1, vd 2, vd 7, kd 1] (long := true) ∧ demo.Clear false [vd 1] [vd 1, vd 2, kd 1] (long := true) :=
  ⟨room_demo, by decide, demo_clear, demo_clear⟩

theorem witness_VectorOtherForms : room demo ∧ demo.Clear false [vd 1] [vd 1, vd 2, vd 3, kd 1] (long := true) ∧
    demo.Clear false [vd 1] [vd 2, vd 3, kd 1] (long := true) ∧ demo.Clear false [.k 1] [vd 2, vd 3, kd 1] (long := true) ∧
    demo.Clear false [vd 1] [vd 1, kd 1] (long := true) ∧ demo.Clear false [vd 1] [vd 1, gd 2, kd 1] (long := true) (dyn := true) ∧
    demo.Clear false [vd 1] [vd 1, gd 2, gd 3] (long := true) ∧ demo.Clear false [gd 1] [vd 1, gd 2] (long := true) ∧
    demo.Clear false [gd 1] [vd 1, kd 1] (long := true) ∧
    ((7 : BitVec 4).toNat, 8, true) ∈ [(0, 32, true), (1, 32, false), (5, 16, true), (6, 16, false), (7, 8, true), (8, 8, false)] ∧
    ((5 : BitVec 3).toNat, (fun p q => q ≤ p : Int → Int → Prop)) ∈ [((0 : Nat), (fun p q => p = q : Int → Int → Prop)), (1, fun p q => p ≠ q),
      (2, fun p q => p < q), (3, fun p q => p ≤ q), (4, fun p q => q < p), (5, fun p q => q ≤ p)] ∧
    ((2 : BitVec 4).toNat, f32) ∈ [(2, f32), (3, bf16), (4, f16)] ∧
    ((6 : BitVec 3).toNat, 3, false, true) ∈ [(0, 0, false, true), (1, 0, false, false), (2, 1, false, true), (3, 2, false, true),
      (4, 1, true, true), (5, 2, true, true), (6, 3, false, true)] :=
  ⟨room_demo, demo_clear, demo_clear, demo_clear, demo_clear, demo_clear, demo_clear, demo_clear, demo_clear, by decide,
    by simp only [BitVec.reduceToNat, List.mem_cons, or_true, true_or], by decide, by decide⟩

theorem witness_MaskForms : demo.Clear false [.k 1] [.k 2, .k 3] (long := true) ∧ demo.Clear false [.k 1] [.k 2] (long := true) ∧
    demo.Clear false [.k 1] [gd 1] (long := true) ∧ demo.Clear false [gd 1] [.k 1] (long := true) ∧
    demo.Clear false [gd 1] [.k 1, kd 2] (long := true) ∧ (7 : BitVec 3).toNat < demo.me.vregs ∧ demo.Clear false [vd 7] [] (long := true) :=
  ⟨demo_clear, demo_clear, demo_clear, demo_clear, demo_clear, by decide, demo_clear⟩

/-- Blocks at 0x40, and elements whose stride is 0x77 or whose indexes are 0, under a mask that takes no lane and one that takes the first. -/
def masked : State := demo { thread with k1 := 1 }

set_option exponentiation.threshold 600 in
theorem witness_VectorMemoryForms :
    (room demo ∧ demo.Clear false [vd 1] [vd 1, gd 1, kd 1] (long := true) (mem := true) ∧ demo.isPoisoned (at0 0x40) 64 = false ∧
      demo.Hits { size := 64, align := 64, right := .rd, block := true } false 64 0x40 (at0 0x40) ∧
      demo.Clear false [] [vd 1, gd 1, kd 1] (mem := true) ∧ demo.myCore.sb.length < 16 ∧
      demo.Hits { size := 64, align := 64, right := .w, block := true } true 64 0x40 (at0 0x40)) ∧
    (room masked ∧ masked.me.posted.length < 256 ∧ masked.Clear false [vd 1] [vd 1, gd 1, gd 2, kd 1] (long := true) (mem := true) ∧
      masked.Clear false [] [vd 1, gd 1, gd 2, kd 1] (mem := true) ∧
      masked.Clear false [vd 1] [vd 1, gd 1, vd 2, kd 1] (long := true) (mem := true) ∧
      masked.Clear false [] [vd 1, gd 1, vd 2, kd 1] (mem := true) ∧
      ∀ j < 16, (masked.me.rk 1).getLsbD j = true →
        masked.Hits { size := 4, align := 4, right := .rd } false 4 (masked.me.rg 1 + BitVec.ofNat 64 j * masked.me.rg 2) (at0 0x40) ∧
        masked.Hits { size := 4, align := 4, right := .w } true 4
          (masked.me.rg 1 + 4 * (BitVec.ofNat 32 (elem 32 (masked.me.rv 2) j)).signExtend 64) (at0 0x40) ∧
        masked.isPoisoned (at0 0x40) 4 = false) := by
  refine ⟨⟨room_demo, demo_clear, by decide, ⟨by decide, by decide, ⟨_, rfl⟩, by decide, by decide, rfl, rfl⟩, demo_clear, by decide,
    ⟨by decide, by decide, ⟨_, rfl⟩, by decide, by decide, rfl, rfl⟩⟩, ⟨by decide, rfl, by decide, by decide⟩, by decide,
    calm_clear (by decide) (by decide), calm_clear (by decide) (by decide), calm_clear (by decide) (by decide),
    calm_clear (by decide) (by decide), fun j hj hk => ?_⟩
  have : j = 0 := by
    revert hk; revert j; decide
  subst this
  exact ⟨⟨by decide, by decide, ⟨_, rfl⟩, by decide, by decide, rfl, rfl⟩, ⟨by decide, by decide, ⟨_, rfl⟩, by decide, by decide, rfl, rfl⟩, by decide⟩

/-! ## Matrix forms -/

def me : BitVec 32 := 0x200001

/-- A Trestle with a holder and a FIFO. -/
def lease (holder : Option (BitVec 32)) (fifo : List (BitVec 32 × Bool) := []) : State :=
  demo thread { tile with trestle := { holder := holder, fifo := fifo }, accs := [(0, { owner := some me })] }
theorem lease_calm (h : Option (BitVec 32)) (f : List (BitVec 32 × Bool)) : calm (lease h f) = true := by
  have : calm (lease h f) = calm (lease none) := rfl
  rw [this]; decide
theorem lease_clear {h : Option (BitVec 32)} {f : List (BitVec 32 × Bool)} {m : Bool} {dst src : List Dest} {long mem waits dyn : Bool}
    (hd : dst.length ≤ 16 := by decide) : (lease h f).Clear m dst src long mem waits dyn := calm_clear (lease_calm h f) hd

/-- The lease is the thread's, free, another's, or another's with the thread LAPSED; MREL names slot 0, gives the lease up, or takes
orphans. -/
theorem witness_LeaseForms :
    ((lease (some me)).myTile.hasTrestle = true ∧ (lease (some me)).Clear false [] [] ∧ (lease (some me)).Clear false [gd 1] [] (long := true) ∧
      (lease (some me)).myTile.trestle.holder = some (lease (some me)).me.tid) ∧
    ((lease none).myTile.trestle.holder = none ∧ (me, true) ∉ (lease none).myTile.trestle.fifo) ∧
    ((lease (some 7)).myTile.trestle.holder ≠ some me ∧ (lease (some 7)).myTile.trestle.holder ≠ none) ∧
    ((lease (some 7) [(me, true)]).myTile.trestle.holder ≠ some me ∧ (me, true) ∈ (lease (some 7) [(me, true)]).myTile.trestle.fifo) ∧
    (let s := lease (some me)
     s.Clear false [] [gd 5] ∧ (s.me.rg 5).getLsbD 9 = false ∧ (s.me.rg 5).getLsbD 8 = false ∧ (s.me.rg 5).getLsbD 0 = true ∧
       (s.myTile.acc 0).owner = some s.me.tid ∧ (s.myTile.acc 0).orphaned = false ∧ s.myTile.slotBusy 0 = false ∧
       (∀ n < 8, n ≠ 0 → (s.me.rg 5).getLsbD n = false) ∧
       (s.me.rg 12).getLsbD 8 = true ∧ (∀ n < 8, (s.me.rg 12).getLsbD n = false) ∧ s.myTile.trestle.fifo = []) :=
  ⟨⟨by decide, lease_clear, lease_clear, rfl⟩, ⟨rfl, by decide⟩, ⟨by decide, by decide⟩, ⟨by decide, by decide⟩,
    lease_clear, by decide, by decide, by decide, by decide, by decide, by decide, by decide, by decide, by decide, rfl⟩

/-- The holder of the lease has read a block, which is a lawful ZERO of slot 0, or one with a reserved bit set. -/
def issuing (w : Dword) : State :=
  demo { thread with block := some [w] } { tile with trestle := { holder := some me } }
theorem issuing_calm (w : Dword) : calm (issuing w) = true := by
  have : calm (issuing w) = calm (issuing 0) := rfl
  rw [this]; decide
theorem issuing_trestle (w : Dword) : (issuing w).myTile.hasTrestle = true := by
  have : (issuing w).myTile.hasTrestle = (issuing 0).myTile.hasTrestle := rfl
  rw [this]; decide
/-- A thread with one vector register. -/
def fewVectors : State := demo { thread with vregs := 1 } { tile with trestle := { holder := some me } }
/-- One command is accepted and not completed, and the thread holds the lease. -/
def working : State := demo thread { tile with trestle := { holder := some me, accepted := 1 } }

theorem witness_MatrixCommandForms :
    (∀ w : Dword, (issuing w).myTile.hasTrestle = true ∧ (issuing w).Clear false [gd 1] [gd 2] (long := true) (mem := true) ∧
      (issuing w).Released ∧ (issuing w).myTile.trestle.holder = some (issuing w).me.tid ∧ (issuing w).me.block = some [w]) ∧
    (let b := fun (w : Dword) => ({ words := [w], seq := 1, tid := me, asid := 1, scratch := none, segs := segments } : Block)
     (b 0x100000000).rejection 0 = some (0, 5) ∧ (b 0x501).rejection 0 = none ∧
       ((issuing 0x501).myTile.acc (b 0x501).slot).orphaned = false ∧ ((issuing 0x501).myTile.acc (b 0x501).slot).owner = none ∧
       (issuing 0x501).myTile.trestle.queue.length < 8 ∧ (issuing 0x501).myTile.trestle.commands ≠ 15) ∧
    (let s := working
     s.Clear false [gd 1] [gd 2] (long := true) ∧ min (s.me.rg 9).toNat s.myTile.trestle.accepted ≤ s.myTile.trestle.completed ∧
       s.myTile.trestle.completed < min (s.me.rg 5).toNat s.myTile.trestle.accepted ∧ s.me.rg 9 = 0 ∧ s.me.rg 5 = 1 ∧
       (8 ≤ (s.me.rg 8).toNat ∧ (s.me.rg 8).toNat < 16) ∧ 16 ≤ (s.me.rg 10).toNat ∧ (2 ≤ (s.me.rg 11).toNat ∧ (s.me.rg 11).toNat < 8) ∧
       (7 : BitVec 3).toNat < s.me.vregs ∧ s.myTile.holds s.me.tid = true ∧ (s.myTile.acc 0).orphaned = false ∧ (s.myTile.acc 0).owner = none ∧
       s.myTile.slotBusy 0 = false ∧ s.Clear false [vd 1] [gd 9] (long := true) ∧ (s.myTile.acc 0).fault = 0 ∧
       s.Clear false [] [vd 1, gd 9]) ∧
    (fewVectors.myTile.hasTrestle = true ∧ fewVectors.me.vregs ≤ (7 : BitVec 3).toNat ∧ fewVectors.Clear false [vd 7] [gd 9] (long := true) ∧
      fewVectors.Clear false [] [vd 7, gd 9]) ∧
    (issuing 0x501).myTile.trestle.before ≤ (issuing 0x501).myTile.trestle.completed :=
  have w : calm working = true := by decide
  ⟨fun x => ⟨issuing_trestle x, calm_clear (issuing_calm x) (by decide), calm_released (issuing_calm x), rfl, rfl⟩, by decide,
    ⟨calm_clear w (by decide), by decide, by decide, by decide, by decide, by decide, by decide, by decide, by decide, by decide, by decide,
    by decide, by decide, calm_clear w (by decide), by decide, calm_clear w (by decide)⟩, ⟨by decide, by decide, calm_clear (by decide) (by decide), calm_clear (by decide) (by decide)⟩, by decide⟩

/-- Each doubleword of a block at 0x40 of segment 0 is found and clean. -/
theorem witness_ParameterBlockIsRead :
    (∀ j < 8, reaches working { size := 8, align := 8, right := .rd } false 8 (0x40 + BitVec.ofNat 64 (8 * j)) (at0 (0x40 + 8 * j)) = true ∧
      working.isPoisoned (at0 (0x40 + 8 * j)) 8 = false) ∧
    working.me.block = none ∧ working.Clear false [gd 2] [gd 1] (long := true) (mem := true) ∧ working.Released ∧
    working.myTile.hasTrestle = true ∧ working.myTile.trestle.holder = some working.me.tid ∧
    (working.myTile.seg (vaSeg 0x40)).check working.me.scratch (vaOff 0x40) 64 64 .rd = none ∧
    (working.myTile.seg (vaSeg 0x40)).owner working.here (vaOff 0x40) = some working.here ∧
    working.Clear false [] [gd 1, gd 3] (mem := true) ∧
    (working.Clear false [gd 2] [gd 1, gd 3] (long := true) (mem := true) ∧ (working.me.rg 3).getLsbD 1 = false ∧
      (working.myTile.bookend (field (working.me.rg 3) 0 1)).mode ≠ 1 ∧ working.ownsRange working.me 0x40 64 = true) ∧
    (supervisor.me.block = none ∧ supervisor.Clear false [] [gd 1] (mem := true) ∧ supervisor.me.priv ≠ 0 ∧
      (supervisor.myTile.seg (vaSeg 0x40)).check supervisor.me.scratch (vaOff 0x40) 32 32 .rd = none ∧
      (supervisor.myTile.seg (vaSeg 0x40)).check supervisor.me.scratch (vaOff 0x40) 288 32 .rd = none ∧
      supervisor.ownsRange supervisor.me 0x40 32 = true ∧
      ∀ j < 36, reaches supervisor { size := 8, align := 8, right := .rd } false 8 (0x40 + BitVec.ofNat 64 (8 * j)) (at0 (0x40 + 8 * j)) = true ∧
        supervisor.isPoisoned (at0 (0x40 + 8 * j)) 8 = false) :=
  have w : calm working = true := by decide
  have u : calm supervisor = true := by decide
  ⟨by decide, rfl, calm_clear w (by decide), calm_released w, by decide, rfl, by decide, by decide, calm_clear w (by decide),
    ⟨calm_clear w (by decide), by decide, by decide, by decide⟩, rfl, calm_clear u (by decide), by decide, by decide, by decide, by decide,
    by decide⟩

/-! ## Threads, queues and indexes -/

/-- An entry address, and task type 0 in the tile's table: valid, 8 vector registers, entry 0x100. -/
def tasks : State :=
  { demo with mem := [(sramAt 512 1, 1), (sramAt 512 6, 0x20), (sramAt 512 7, 0x80)] }

theorem witness_SpawnAndExitForms :
    (∀ s ∈ [demo, tasks], s.Clear false [gd 2] [gd 1, gd 3] (long := true) (mem := true) ∧ s.Released ∧ s.Sound ∧ s.me.quotaTaken = false ∧
      s.originTile s.me.asid.toNat = some s.here ∧ s.myTile.quota = 0 ∧ (s.dword (sramAt s.here 0x1730200)).toNat + 1 < 2 ^ 64 ∧
      0 ∉ s.myTile.live ∧ (0 + 4095 - s.myTile.lastSeq % 4096) % 4096 = 0) ∧
    ((demo.me.rg 1).getLsbD 0 = false ∧ (demo.me.rg 1).extractLsb' 45 16 = 0) ∧
    ((tasks.me.rg 5).getLsbD 0 = true ∧ field (tasks.me.rg 5) 6 58 = 0 ∧ (tasks.taskType 512 (field (tasks.me.rg 5) 1 5)).valid = true ∧
      (tasks.taskType 512 (field (tasks.me.rg 5) 1 5)).scratch ≤ tasks.myTile.poolSize) ∧
    (({ size := 1, align := 1, right := .rd, host := false } : Need).check (demo.myTile.seg (vaSeg (demo.me.rg 3))) demo.me.scratch
      (vaOff (demo.me.rg 3)) = none ∧ (demo.myTile.seg (vaSeg (demo.me.rg 3))).owner demo.here (vaOff (demo.me.rg 3)) = some demo.here) ∧
    demo.Clear false [] [] (waits := true) := by
  refine ⟨fun s hs => ?_, by decide, by decide, by decide, demo_clear⟩
  simp only [List.mem_cons, List.not_mem_nil, or_false] at hs
  obtain rfl | rfl := hs
  · exact ⟨demo_clear, calm_released calm_demo, sound rfl rfl, rfl, by decide, rfl, by decide, by decide, by decide⟩
  · have h : calm tasks = true := by decide
    exact ⟨calm_clear h (by decide), calm_released h, sound rfl rfl, rfl, by decide, rfl, by decide, by decide, by decide⟩

/-- Plain queue 3 of the tile, whose handle g14 holds, with what its ring holds; g15 holds a D-queue's handle. -/
def queued (ring : List QItem) : State := demo thread { tile with queues := [(3, { size := 1, ring := ring })] }
theorem queued_calm (r : List QItem) : calm (queued r) = true := by
  have : calm (queued r) = calm (queued []) := rfl
  rw [this]; decide

theorem witness_PlainQueueForms :
    (let s := queued []
     ∃ q, s.handleFault s.me (s.me.rg 14) false = none ∧ field (s.me.rg 14) 12 20 = s.here ∧ s.myTile.plain (field (s.me.rg 14) 0 11) = some q ∧
       q.waiters = [] ∧ q.ring.length < q.size ∧ s.myTile.resendBusy (s.me.rg 14) = false ∧ s.myTile.resend.length < 64 ∧
       s.me.posted.length < 255 ∧ q.ring = [] ∧ s.myTile.waiterCount < 4096 ∧ s.Released ∧
       s.Clear false [] ([.g 1, .g 2, .g 3, .g 4] ++ [gd 14]) (mem := true) ∧ s.Clear false [] [gd 14] (mem := true) ∧
       s.Clear false ([.g 1, .g 2, .g 3, .g 4] ++ [gd 5]) [gd 14] (long := true) (mem := true) ∧
       s.Clear false [gd 1] [gd 14] (long := true) (mem := true) ∧
       field (s.me.rg 4) 32 32 ≠ 0 ∧ s.handleFault s.me (s.me.rg 15) false = some 2 ∧ s.myCore.stalled = none ∧ s.Sound) ∧
    (∃ q r, (queued [.record r]).myTile.plain 3 = some q ∧ q.ring = [.record r] ∧
      (queued [.record r]).isPoisoned (sramAt 512 ((queued [.record r]).myTile.plainBase 3 + 32 * q.head)) 32 = false) ∧
    (∃ q, (queued [.eos]).myTile.plain 3 = some q ∧ q.ring = [.eos] ∧
      (queued [.eos]).isPoisoned (sramAt 512 ((queued [.eos]).myTile.plainBase 3 + 32 * q.head)) 32 = false) :=
  ⟨⟨_, by decide, by decide, rfl, rfl, by decide, by decide, by decide, by decide, rfl, by decide, calm_released (queued_calm _),
      calm_clear (queued_calm _) (by decide), calm_clear (queued_calm _) (by decide), calm_clear (queued_calm _) (by decide),
      calm_clear (queued_calm _) (by decide), by decide, by decide, rfl, sound rfl rfl⟩,
    ⟨_, { w0 := 1, w1 := 2, w2 := 3, w3 := 4 }, rfl, rfl, rfl⟩, _, rfl, rfl, rfl⟩

/-- D-queue 3 with a window, and under release. The group g2 to g5 is a record of key 0x77, round 0 and change 1; g3 to g6 one of change 0x200
and round 0, and g9 to g12 is one whose last register is set by the test. -/
def dresser (window : List DEntry) (rel : Option Release := none) (fin : Option Nat := none) : State :=
  demo thread { tile with dqueues := [(3, { producers := 2, window := window, rel := rel, finalBegun := fin })] }
theorem dresser_calm (w : List DEntry) (r : Option Release) (f : Option Nat) : calm (dresser w r f) = true := by
  have : calm (dresser w r f) = calm (dresser []) := rfl
  rw [this]; decide
theorem dresser_clear {w : List DEntry} {r : Option Release} {f : Option Nat} {m : Bool} {dst src : List Dest} {long mem waits dyn : Bool}
    (hd : dst.length ≤ 16 := by decide) : (dresser w r f).Clear m dst src long mem waits dyn := calm_clear (dresser_calm w r f) hd
def inWindow (sum : Int) : DEntry := { key := 0x77, v1 := 5, v2 := 0x2000000000000040, round := 0, sum := sum }

theorem witness_DresserForms :
    (let s := dresser []
     ∃ q, s.handleFault s.me (s.me.rg 15) true = none ∧ field (s.me.rg 15) 12 20 = s.here ∧ s.myTile.dqueue (field (s.me.rg 15) 0 11) = some q ∧
       s.myTile.resendBusy (s.me.rg 15) = false ∧ s.myTile.resend.length < 64 ∧ s.me.posted.length < 255 ∧
       s.Clear false [] ([.g 2, .g 3, .g 4, .g 5] ++ [gd 15]) (mem := true) ∧ (0 + 65536 - q.base % 65536) % 65536 < 4 ∧
       q.finalBegun = none ∧ field (s.me.rg 5) 32 16 = 0 ∧ ((s.me.rg 5).truncate 32 : BitVec 32) ≠ 0 ∧ q.window = [] ∧ q.rel = none ∧
       ((s.me.rg 9).truncate 32 : BitVec 32) = 0 ∧ s.Released ∧ s.Clear false [] [gd 15, gd 9] (mem := true) ∧
       field (s.me.rg 9) 0 16 = 0 ∧ q.notes.get 0 0 < q.producers ∧ (q.notes.set 0 (q.notes.get 0 0 + 1)).get 0 q.base ≠ q.producers ∧
       s.Clear false ([.g 1, .g 2, .g 3, .g 4] ++ [gd 5]) [gd 15] (long := true) (mem := true) ∧
       s.Clear false [gd 1] [gd 15] (long := true) (mem := true) ∧ s.myCore.stalled = none ∧ s.Sound) ∧
    (let e : DEntry := { key := 0x77, v1 := 5, v2 := 0x2000000000000040, round := 0, sum := 1 }
     (inWindow (-1)).same e = true ∧ (inWindow (-1)).sum + 1 = 0 ∧ (inWindow 1).sum + 1 ≠ 0 ∧ -2147483648 ≤ (inWindow 1).sum + 1 ∧
       (inWindow 1).sum + 1 ≤ 2147483647) ∧
    (∃ q rel x, (dresser [inWindow 1] (some { round := 0, final := false, passDue := false, tokenDue := true })).myTile.dqueue 3 = some q ∧
      q.rel = some rel ∧ rel.passDue = false ∧ q.window = [x] ∧ x.poison = false ∧ x.round = rel.round ∧ x.ovf = false ∧
      rel.tokenDue = true) ∧
    (∃ q rel, (dresser [] (some { round := 0, final := true, passDue := false, tokenDue := true }) (some 0)).myTile.dqueue 3 = some q ∧
      q.rel = some rel ∧ rel.passDue = false ∧ q.window = [] ∧ rel.tokenDue = true ∧ rel.final = true ∧ q.finalBegun ≠ none) :=
  ⟨⟨_, by decide, by decide, rfl, by decide, by decide, by decide, dresser_clear, by decide, rfl, by decide, by decide, rfl, rfl,
      by decide, calm_released (dresser_calm ..), dresser_clear, by decide, by decide, by decide, dresser_clear, dresser_clear, rfl, sound rfl rfl⟩, by decide,
    ⟨_, _, _, rfl, rfl, rfl, rfl, rfl, rfl, rfl, rfl⟩, _, _, rfl, rfl, rfl, rfl, rfl, rfl, nofun⟩

/-- A D-queue whose base round is so far that the record's round 0 is beyond the window. -/
def farDresser : State := demo thread { tile with dqueues := [(3, { producers := 2, base := 60000 })] }

theorem witness_DresserForms_spill :
    (let s := farDresser
     ∃ q, s.handleFault s.me (s.me.rg 15) true = none ∧ field (s.me.rg 15) 12 20 = s.here ∧ s.myTile.dqueue (field (s.me.rg 15) 0 11) = some q ∧
       s.myTile.resendBusy (s.me.rg 15) = false ∧ s.myTile.resend.length < 64 ∧ s.me.posted.length < 255 ∧
       s.Clear false [] ([.g 2, .g 3, .g 4, .g 5] ++ [gd 15]) (mem := true) ∧
       4 ≤ (field (s.me.rg 5) 32 16 + 65536 - q.base % 65536) % 65536 ∧ (field (s.me.rg 5) 32 16 + 65536 - q.base % 65536) % 65536 < 32768 ∧
       q.finalBegun = none ∧ ((s.me.rg 5).truncate 32 : BitVec 32) ≠ 0 ∧ q.ring.length < q.ringSize ∧ s.myCore.stalled = none ∧ s.Sound ∧
       (s.touch (vaultAt s.here (s.myTile.spillBase (field (s.me.rg 15) 0 11) + 32 * (q.tail % q.ringSize))) 32 true).stalled = false) :=
  have calm_far : calm farDresser = true := by
    have : calm farDresser = calm (dresser []) := rfl
    rw [this]; decide
  ⟨_, by decide, by decide, rfl, by decide, by decide, by decide, calm_clear calm_far (by decide), by decide, by decide, rfl, by decide, by decide, rfl,
    sound rfl rfl, by decide⟩

/-- An index at 0x40 of 64 places at 0x100, empty, and one that holds the key 5, of g3, in its home place with the total 9. -/
def index : State := { demo with mem := [(at0 0x41, 1), (at0 0x48, 64)] }
def home5 : Nat := crc32c (leBytes 8 5) % 64
def entries : State :=
  { demo with mem := [(at0 0x41, 1), (at0 0x48, 64), (at0 (0x100 + 32 * home5), 5), (at0 (0x108 + 32 * home5), 9), (at0 (0x118 + 32 * home5), 1)] }
def place (i : Nat) : Nat := at0 (0x100 + 32 * i)
/-- Where an index's place is found. -/
def placed (s : State) (w : Bool) (r : IdxArray) (i : Nat) : Bool :=
  match s.translate s.here s.myTile.asid.toNat r.seg false w (s.myTile.seg r.seg).psize (r.lo + 32 * i) with
  | .at_ a _ => a == place i
  | .miss => false

theorem placed_at {s : State} {w : Bool} {r : IdxArray} {i : Nat} (h : placed s w r i = true) :
    ∃ u, s.translate s.here s.myTile.asid.toNat r.seg false w (s.myTile.seg r.seg).psize (r.lo + 32 * i) = .at_ (place i) u := by
  unfold placed at h
  split at h
  · rename_i a u e; exact ⟨u, (beq_iff_eq.mp h) ▸ e⟩
  · simp at h

set_option maxRecDepth 8000 in
theorem witness_IndexForms :
    (∃ r, index.idxLawful index.here (at0 0x40) (index.idxHeader (at0 0x40)) = some r ∧ index.isPoisoned (at0 0x40) 64 = false ∧
      reaches index { size := 64, align := 64, right := .rdWA, host := false, sramOnly := true, kind13 := true } false 64 0x40 (at0 0x40) = true ∧
      reaches index { size := 64, align := 64, right := .rdWA, host := false, sramOnly := true, kind13 := true } true 64 0x40 (at0 0x40) = true ∧
      (∀ i < 64, placed index false r i = true ∧ placed index true r i = true ∧ index.isPoisoned (place i) 32 = false) ∧
      (index.idxHeader (at0 0x40)).cap = 64 ∧ (index.idxHeader (at0 0x40)).used + 2 ≤ 3 * 64 / 4 ∧
      (index.idxHeader (at0 0x40)).live + 1 < 2 ^ 32 ∧ (index.idxHeader (at0 0x40)).keys + 1 < 2 ^ 32) ∧
    (index.Clear false [gd 2] [gd 1, gd 3] (long := true) (mem := true) ∧
      index.Clear false [.g 2, .g 3, .g 4, .g 5] [gd 2, gd 5, gd 1] (long := true) (mem := true) ∧
      index.Clear false [gd 2] (gd 1 :: [.g 2, .g 3, .g 4, .g 5]) (long := true) (mem := true) ∧ (∀ i < 64, index.dword (place i + 24) = 0) ∧
      ((index.me.rg 5).truncate 32 : BitVec 32) ≠ 0) ∧
    (∀ x < 64, ∀ y < 64, x ≠ y → place x + 32 ≤ place y ∨ place y + 32 ≤ place x) ∧
    (∀ x < 64, place x + 32 ≤ at0 0x40 ∨ at0 0x40 + 64 ≤ place x) ∧
    (entries.me.rg 3 = 5 ∧ entries.dword (place home5) = 5 ∧ entries.dword (place home5 + 24) = 1 ∧
      entries.dword (place ((home5 + 1) % 64) + 24) = 0) := by
  have h : calm index = true := by decide
  refine ⟨⟨{ seg := 0, va := 0x100, lo := 0x100, cap := 64 }, by decide, by decide, by decide, by decide, by decide, by decide, by decide,
    by decide, by decide⟩, ⟨calm_clear h (by decide), calm_clear h (by decide), calm_clear h (by decide), by decide, by decide⟩, ?_, ?_,
    by decide⟩
  · intro x _ y _ n
    simp only [place, at0, sramAt, devAddr]; omega
  · intro x _
    simp only [place, at0, sramAt, devAddr]; omega

/-! ## Copies, Bookends and the supervisor's forms -/

/-- Sixteen commands wait for the copy engine. -/
def copyFull : State :=
  demo { thread with block := some [0x200, 0x300, 0x100000008] } { tile with
    copies := (List.range 16).map (fun _ => { asid := 1, tid := 7, rows := [], aw := 0x40, supervisor := false, scratch := none, segs := [] }) }
/-- The thread has read a CPY2D's block: one row of 8 bytes, or of none. -/
def copying (n : Dword) : State := demo { thread with block := some [0x200, 0x300, n] }
theorem copying_calm (n : Dword) : calm (copying n) = true := by
  have : calm (copying n) = calm (copying 0) := rfl
  rw [this]; decide

theorem witness_CopyForms :
    (demo.Released ∧ demo.Clear false [] [gd 1, gd 6, gd 7, gd 3] (mem := true) ∧ demo.me.rg 9 = 0 ∧ demo.me.rg 3 ≠ 0 ∧
      demo.copyTrap demo.me [{ dst := demo.me.rg 6, src := demo.me.rg 7, len := 5 }] (demo.me.rg 1) = none ∧
      demo.myTile.copies.length < 16) ∧
    (copyFull.Released ∧ copyFull.Clear false [] [gd 1, gd 6, gd 7, gd 3] (mem := true) ∧
      copyFull.copyTrap copyFull.me [{ dst := copyFull.me.rg 6, src := copyFull.me.rg 7, len := 5 }] (copyFull.me.rg 1) = none ∧
      16 ≤ copyFull.myTile.copies.length) ∧
    (∀ n : Dword, (copying n).Released ∧ (copying n).Clear false [] [gd 1, gd 2] (mem := true) ∧ (copying n).me.block = some [0x200, 0x300, n]) ∧
    (1 ≤ field (0x100000008 : Dword) 0 32 ∧ field (0x100000008 : Dword) 0 32 ≤ 2 ^ 24 ∧ 1 ≤ field (0x100000008 : Dword) 32 32 ∧
      field (0x100000008 : Dword) 32 32 ≤ 65536 ∧ field (0 : Dword) 0 32 = 0) ∧
    (copying 0x100000008).copyTrap (copying 0x100000008).me [{ dst := 0x200, src := 0x300, len := 8 }] 0x40 = none :=
  have f : calm copyFull = true := by decide
  ⟨⟨calm_released calm_demo, demo_clear, by decide, by decide, by decide, by decide⟩,
    ⟨calm_released f, calm_clear f (by decide), by decide, by decide⟩,
    fun n => ⟨calm_released (copying_calm n), calm_clear (copying_calm n) (by decide), rfl⟩, by decide, by decide⟩

/-- Bookend 0 runs with some words in its inbox and outbox, and has read no block or one of a program of 4 bytes of code. -/
def mailing (inbox outbox : List Dword) : State :=
  demo thread { tile with bookends := [(0, { mode := 1, inbox := inbox, outbox := outbox })] }
theorem mailing_calm (i o : List Dword) : calm (mailing i o) = true := by
  have : calm (mailing i o) = calm (mailing [] []) := rfl
  rw [this]; decide
def starting (w : Dword) (va : Dword) : State := demo { thread with block := some [w], g := [(1, va), (2, 2)] }
theorem starting_calm (w va : Dword) : calm (starting w va) = true := by
  have : calm (starting w va) = calm (starting 0 0) := rfl
  rw [this]; decide
theorem starting_unforced (w va : Dword) : ((starting w va).me.rg 9).getLsbD 1 = false := by
  have : (starting w va).me.rg 9 = 0 := rfl
  rw [this]; decide

theorem witness_BookendForms :
    (∀ i o, (mailing i o).Clear false [gd 2] [gd 3, gd 9] (long := true) (mem := true) ∧ (mailing i o).Released ∧
      (mailing i o).Clear false [gd 2] [gd 9] (long := true) (mem := true) ∧ ((mailing i o).myTile.bookend 0).mode = 1 ∧
      ((mailing i o).myTile.bookend 0).inbox = i ∧ ((mailing i o).myTile.bookend 0).outbox = o) ∧
    (8 ≤ (List.replicate 8 (0 : Dword)).length ∧ (List.replicate 7 (0 : Dword)).length < 8) ∧
    (demo.myTile.bookend 0).mode ≠ 1 ∧
    ((mailing [] []).me.block = none ∧ ((mailing [] []).me.rg 9).getLsbD 1 = false ∧
      ((mailing [] []).myTile.seg (vaSeg ((mailing [] []).me.rg 1))).check (mailing [] []).me.scratch (vaOff ((mailing [] []).me.rg 1)) 64 64 .rd
        = none) ∧
    (((starting 0 0x40).me.rg 2).getLsbD 1 = true ∧ (starting 0 0x40).me.priv = 0) ∧
    (∀ w va, (starting w va).Clear false [gd 2] [gd 1, gd 9] (long := true) (mem := true) ∧ (starting w va).Released ∧
      (starting w va).me.block = some [w] ∧ ((starting w va).me.rg 9).getLsbD 1 = false) ∧
    (field (4 : Dword) 0 32 % 4 = 0 ∧ field (4 : Dword) 0 32 ≤ 32768 ∧ 0 < field (4 : Dword) 0 32 ∧ field (4 : Dword) 32 32 = 0 ∧
      field (3 : Dword) 0 32 % 4 ≠ 0) ∧
    ((starting 4 0xFC0).ownsRange (starting 4 0xFC0).me 0xFC0 68 = false ∧ (starting 4 0x40).ownsRange (starting 4 0x40).me 0x40 68 = true ∧
      reaches (starting 4 0x40) { size := 64, align := 64, right := .rd } false 64 0x80 (at0 0x80) = true ∧
      (starting 4 0x40).isPoisoned (at0 0x80) 64 = false) :=
  ⟨fun i o => ⟨calm_clear (mailing_calm i o) (by decide), calm_released (mailing_calm i o), calm_clear (mailing_calm i o) (by decide), rfl, rfl,
      rfl⟩, by decide, by decide, by decide, ⟨by decide, rfl⟩,
    fun w va => ⟨calm_clear (starting_calm w va) (by decide), calm_released (starting_calm w va), rfl, starting_unforced w va⟩, by decide, by decide⟩

/-- A supervisor thread that has read a command: an INVAL of segment 0 with a length, and a segment table for address space 1; `sent` says that
it has been broadcast. -/
def commanding (ws : List Dword) (sent : Bool) (b : Dword := 0) : State :=
  demo { thread with priv := 1, block := some ws, sent := sent, g := [(2, b)] }
theorem commanding_calm (ws : List Dword) (b : Bool) (x : Dword) : calm (commanding ws b x) = true := by
  have : calm (commanding ws b x) = calm (commanding [] false) := rfl
  rw [this]; decide

theorem witness_SupervisorForms :
    (demo.me.priv = 0 ∧ demo.me.runs = true) ∧
    (∀ ws b x, (commanding ws b x).me.priv ≠ 0 ∧ (commanding ws b x).Clear false [] [gd 1, gd 2] (mem := true) ∧
      (commanding ws b x).Clear false [] [gd 2] (mem := true) ∧ (commanding ws b x).me.block = some ws ∧ (commanding ws b x).me.sent = b) ∧
    (((commanding [] false 0xFFFFFFFF).me.rg 2).truncate 32 = (0xFFFFFFFF : BitVec 32) ∧ ((commanding [] false).me.rg 2).truncate 32 = (0 : BitVec 32) ∧
      (commanding [] false).reachable (field ((commanding [] false).me.rg 1) 0 20) = true ∧ (commanding [] false).me.posted.length < 255) ∧
    ((1 : Dword) &&& 0xFFFFFFFFFFFFE000 = 0 ∧ ((commanding [1, 0, 64, 0] false).myTile.seg (field (1 : Dword) 8 3)).kind = 3) ∧
    field (0x100000000 : Dword) 32 8 = (commanding [0, 0x100000000] false).myTile.asid.toNat :=
  ⟨⟨rfl, by decide⟩, fun ws b x => ⟨nofun, calm_clear (commanding_calm ws b x) (by decide), calm_clear (commanding_calm ws b x) (by decide),
    rfl, rfl⟩, by decide, by decide, by decide⟩

/-! ## Messages at their tile -/

/-- A packet of the tile to itself, which it is about to take. -/
def packet (cls : Nat) (body : Payload) : Packet := demo.packet cls 512 512 1 1 body
def arriving (cls : Nat) (body : Payload) (th : Thread := thread) (tl : Tile := tile) : State :=
  { demo th tl with net := [packet cls body] }
/-- An operation of a thread of tile 0 at address va of segment 0. -/
def op (kind : OpKind) (path : Path) (va : Dword := 0x40) : Op :=
  { kind := kind, path := path, origin := .thread 0 0x1 0, asid := 1, seg := 0, va := va, lo := vaOff va, owner := 512, src := 0 }
def record : QRec := { w0 := 7, w1 := 8, w2 := 9, w3 := 1 }
/-- The thread waits for a response to its load of g2. -/
def waitingThread : Thread :=
  { thread with
    st := .remoteWait, tags := 1
    wait := some { op := { op (.load ⟨8, false⟩) .remote with origin := .thread 512 0x200001 0, src := 512, owner := 0 }, dests := [.g 2]
                   direct := true } }

theorem witness_MessagesAtOwners :
    (∀ cls body th, (arriving cls body th).Sound ∧ ((arriving cls body th).tile 512).stalls = []) ∧
    (let o := op (.load ⟨8, false⟩) .remote
     let s := arriving clsREQ (.request o)
     ∃ p, s.Delivers 0 p ∧ p.body = .request o ∧ o.device = false ∧ o.owner = p.dst ∧ s.Finds p.dst o.asid o.seg o.map o.lo false (at0 0x40) ∧
       s.isPoisoned (at0 0x40) 8 = false) ∧
    (let o := op (.store 8 5) .posted
     let s := arriving clsPOST (.posted o)
     ∃ p, s.Delivers 0 p ∧ p.body = .posted o ∧ o.device = false ∧ o.owner = p.dst ∧ s.Finds p.dst o.asid o.seg o.map o.lo true (at0 0x40) ∧
       s.isPoisoned (at0 0x40) 8 = false) ∧
    (let o := op (.queue (.send record)) .posted 0x200003
     let s := fun (ring : List QItem) => arriving clsPOST (.posted o) thread { tile with queues := [(3, { size := 1, ring := ring })] }
     (∀ ring, (s ring).Sound ∧ ((s ring).tile 512).stalls = []) ∧ ∃ p, (s []).Delivers 0 p ∧ (s [.eos]).Delivers 0 p ∧ p.body = .posted o ∧ o.owner = p.dst ∧
       (∃ q, ((s []).tile p.dst).plain (field o.va 0 11) = some q ∧ q.waiters = [] ∧ q.ring.length < q.size) ∧
       ∃ q, ((s [.eos]).tile p.dst).plain (field o.va 0 11) = some q ∧ q.waiters = [] ∧ q.size ≤ q.ring.length) ∧
    (let o := op (.queue (.dsend record)) .posted 0x200803
     let s := arriving clsPOST (.posted o) thread { tile with dqueues := [(3, { producers := 2 })] }
     s.Sound ∧ (s.tile 512).stalls = [] ∧ ∃ p q, s.Delivers 0 p ∧ p.body = .posted o ∧ o.owner = p.dst ∧ (s.tile p.dst).dqueue (field o.va 0 11) = some q ∧
       (field record.w3 32 16 + 65536 - q.base % 65536) % 65536 < 4 ∧ q.finalBegun = none ∧ q.window = [] ∧ q.rel = none) ∧
    (let o := op (.queue (.dseal 0 false)) .posted 0x200803
     let s := arriving clsPOST (.posted o) thread { tile with dqueues := [(3, { producers := 2 })] }
     s.Sound ∧ (s.tile 512).stalls = [] ∧ ∃ p q, s.Delivers 0 p ∧ p.body = .posted o ∧ o.owner = p.dst ∧ (s.tile p.dst).dqueue (field o.va 0 11) = some q ∧
       (0 + 65536 - q.base % 65536) % 65536 < 4 ∧ q.finalBegun = none ∧ q.rel = none ∧ q.notes.get 0 0 < q.producers ∧
       (q.notes.set 0 (q.notes.get 0 0 + 1)).get 0 q.base ≠ q.producers) ∧
    (let s := arriving clsRSP (.response 0x200001 0 0 (.done [5])) waitingThread
     ∃ p w, s.Delivers 0 p ∧ p.body = .response 0x200001 0 0 (.done [5]) ∧
       (s.tile p.dst).threads.find? (fun e => e.2.2.awaits 0x200001 0) = some (0, 0, s.thread p.dst 0 0) ∧
       (s.thread p.dst 0 0).wait = some w ∧ w.elems = false ∧ w.direct = true ∧ w.op.kind ≠ .quota ∧ w.written = [.g 2] ∧
       (s.thread p.dst 0 0).st ≠ .halted) ∧
    (let s := arriving clsPOST (.ack (.thread 512 0x200001 0) none) { thread with posted := [{ tag := 0, owner := 0, acq := false }] }
     ∃ p, s.Delivers 0 p ∧ p.body = .ack (.thread p.dst 0x200001 0) none ∧ (s.thread p.dst 0 0).tid = 0x200001 ∧
       (s.thread p.dst 0 0).st = .ready ∧ ∃ x ∈ (s.thread p.dst 0 0).posted, x.tag = 0) :=
  ⟨fun _ _ _ => ⟨sound rfl rfl, rfl⟩, ⟨packet clsREQ _, ⟨by decide, by decide, by decide, by decide⟩, rfl, rfl, rfl, ⟨⟨_, rfl⟩, by decide, rfl, rfl⟩, by decide⟩,
    ⟨packet clsPOST _, ⟨by decide, by decide, by decide, by decide⟩, rfl, rfl, rfl, ⟨⟨_, rfl⟩, by decide, rfl, rfl⟩, by decide⟩,
    ⟨fun _ => ⟨sound rfl rfl, rfl⟩, packet clsPOST _, ⟨by decide, by decide, by decide, by decide⟩,
      ⟨by decide, by decide, by decide, by decide⟩, rfl, rfl,
      ⟨_, rfl, rfl, by decide⟩, _, rfl, rfl, by decide⟩,
    ⟨sound rfl rfl, rfl, packet clsPOST _, _, ⟨by decide, by decide, by decide, by decide⟩, rfl, rfl, rfl, by decide, rfl, rfl, rfl⟩,
    ⟨sound rfl rfl, rfl, packet clsPOST _, _, ⟨by decide, by decide, by decide, by decide⟩, rfl, rfl, rfl, by decide, rfl, rfl, by decide, by decide⟩,
    ⟨packet clsRSP _, _, ⟨rfl, rfl, rfl, rfl⟩, rfl, rfl, rfl, rfl, rfl, nofun, rfl, by decide⟩,
    packet clsPOST (.ack (.thread 512 0x200001 0) none), ⟨by decide, by decide, by decide, by decide⟩, rfl, rfl, rfl, _, List.mem_cons_self, rfl⟩

/-- A thread in a wait, whose budget of 2^10 cycles runs out at 1,024. -/
def waiting (st : TState) (kind : OpKind) (path : Path) (owner : Nat) (retry : Bool := false) : Thread :=
  { thread with
    st := st, few := 0
    wait := some { op := { op kind path with origin := .thread 512 0x200001 0, src := 512, owner := owner }, dests := [], retry := retry } }
def expired (st : TState) (kind : OpKind) (path : Path) (owner : Nat) (tl : Tile := tile) (time : Nat := 1025) : State :=
  { demo (waiting st kind path owner) tl with time := time }

set_option maxRecDepth 4000 in
theorem witness_WaitsGoOn :
    (let s := demo (waiting .feWait (.fe .ldfe 0) .remote 0 true)
     ∃ w, s.unitsRun 512 = true ∧ (s.thread 512 0 0).wait = some w ∧ w.retry = true ∧ w.withdrawn = false ∧
       (s.thread 512 0 0).st = w.op.kind.waitState ∧ w.op.path = .remote ∧ w.retryAt ≤ s.residentCycles 512 ∧
       s.budgetOut 512 (s.thread 512 0 0) w = false) ∧
    (let s := expired .feWait (.fe .ldfe 0) .remote 0
     ∃ w, s.unitsRun 512 = true ∧ (s.thread 512 0 0).wait = some w ∧ w.answer = none ∧ (s.thread 512 0 0).few ≠ 15 ∧
       w.since + 2 ^ (10 + (s.thread 512 0 0).few.toNat) < s.residentCycles 512 ∧ w.op.path = .remote ∧ w.withdrawn = false ∧
       (s.thread 512 0 0).st = .feWait ∧ w.retry = false ∧
       (expired .feWait (.fe .ldfe 0) .remote 0 tile 1024).residentCycles 512 ≤ w.since + 2 ^ (10 + (s.thread 512 0 0).few.toNat)) ∧
    (let s := expired .barWait (.bar .wait 0) .remote 0
     ∃ w, s.unitsRun 512 = true ∧ (s.thread 512 0 0).wait = some w ∧ w.answer = none ∧ (s.thread 512 0 0).st = .barWait ∧
       w.op.kind = .bar .wait 0 ∧ w.withdrawn = false) ∧
    (let o : Op := { op (.fe .ldfe 0) .here with origin := .thread 512 0x200001 0, src := 512 }
     let s := expired .feWait (.fe .ldfe 0) .here 512 { tile with waiters := [{ op := o, addr := at0 0x40 }] }
     ∃ w, s.unitsRun 512 = true ∧ (s.thread 512 0 0).pending = [] ∧ (s.thread 512 0 0).priv ≠ 3 ∧ (s.thread 512 0 0).wait = some w ∧
       w.op.kind = .fe .ldfe 0 ∧ w.op.path = .here ∧ w.op.owner = 512 ∧
       ∃ r, (s.tile 512).waiters = [] ++ r :: [] ∧ r.op.origin = w.op.origin) ∧
    (let s := expired .barWait .hbar .here 512
     ∃ w, s.unitsRun 512 = true ∧ (s.thread 512 0 0).wait = some w ∧ w.op.kind = .hbar ∧ (s.thread 512 0 0).st = .barWait ∧
       (s.thread 512 0 0).pending = []) ∧
    (let s := arriving clsRSP (.withdrawAck 0x200001 0) { waitingThread with st := .feWait }
     ∃ p w, s.takes 0 = some p ∧ p.body = .withdrawAck 0x200001 0 ∧ p.dst = 512 ∧
       (s.tile 512).threads.find? (fun e => e.2.2.awaits 0x200001 0) = some (0, 0, s.thread 512 0 0) ∧ (s.thread 512 0 0).wait = some w ∧
       (s.thread 512 0 0).pending = [] ∧ (s.thread 512 0 0).priv ≠ 3 ∧ (s.thread 512 0 0).st ≠ .halted) ∧
    (let s := fun (expect : List Nat) => arriving clsCOLL (.collUp 1 2 0 false false 0) thread { tile with
       nodes := [(257, { tag := 1, level := 2, op := 0, cmb := false, expect := expect })] }
     ∃ p nd, (s [6, 7]).collects 0 = some p ∧ p.dst = 512 ∧ p.body = .collUp 1 2 0 false false 0 ∧ 1 * 256 + p.asid = 257 ∧
       ((s [6, 7]).tile 512).nodes.find? (fun e => e.1 == 257) = some (257, nd) ∧ nd.bad = false ∧ nd.sent = false ∧
       ¬ (∀ x ∈ nd.expect, x = treePort 512 p.src) ∧
       (s [treePort 512 512]).collects 0 = some p ∧
       (s [6, 7]).episodes = [] ∧ (∃ r, (s [treePort 512 512]).treeParent 1 512 = some r) ∧ ∃ nd, ((s [treePort 512 512]).tile 512).nodes.find? (fun e => e.1 == 257) = some (257, nd) ∧
         ∀ x ∈ nd.expect, x = treePort 512 p.src) ∧
    (let s := arriving clsCOLL (.collDown 0 false false 0) { waiting .barWait .hbar .here 512 with
       wait := (waiting .barWait .hbar .here 512).wait.map (fun w => { w with direct := true }) } { tile with
       nodes := [(1, { tag := 0, level := 1, op := 0, cmb := false, got := [(localPort, 512, 0)] })]
       hbar := some { level := 1, cmb := false, op := 0, count := 1, sent := true
                      arrivals := [{ core := 0, slot := 0, tid := 0x200001, value := 0 }] } }
     ∃ p nd e, s.collects 0 = some p ∧ p.dst = 512 ∧ p.body = .collDown 0 false false 0 ∧
       (s.tile 512).nodes.find? (fun e => e.1 == 0 * 256 + p.asid) = some (0 * 256 + p.asid, nd) ∧ nd.got = [(localPort, 512, 0)] ∧
       (s.tile 512).resident p.asid = true ∧ (s.tile 512).hbar = some e ∧ (s.tile 512).hbarExtra = [] ∧ e.level = 0 + 1 ∧ e.sent = true ∧
       (∃ a, e.arrivals = [a] ∧ a.core = 0 ∧ a.slot = 0 ∧ a.gone = false ∧ a.tid = (s.thread 512 0 0).tid) ∧
       (∃ w, (s.thread 512 0 0).wait = some w ∧ w.op.kind = .hbar ∧ w.direct = true ∧ w.elems = false ∧
         w.op.origin = .thread 512 0x200001 0) ∧
       (s.thread 512 0 0).st = .barWait ∧ ∀ x, x ≠ 512 → (s.tile x).hbar = none) ∧
    (let s := demo thread { tile with resend := [(0, { op .arrive .posted with owner := 0 })] }
     ∃ o, s.unitsRun 512 = true ∧ (s.tile 512).resend = (0, o) :: [] ∧ 0 ≤ s.residentCycles 512 ∧ o.owner ≠ 512) ∧
    (∀ ring ∈ [[], [QItem.eos]],
     let s := demo thread { tile with
       resend := [(0, op (.queue (.send record)) .posted 0x200003)], queues := [(3, { size := 1, ring := ring })] }
     ∃ o q, s.unitsRun 512 = true ∧ (s.tile 512).resend = (0, o) :: [] ∧ 0 ≤ s.residentCycles 512 ∧ o.owner = 512 ∧
       o.kind = .queue (.send record) ∧ s.Sound ∧ o.origin = .thread 0 0x1 0 ∧ (s.tile 512).plain (field o.va 0 11) = some q ∧ q.waiters = [] ∧ q.ring = ring ∧ q.size = 1) ∧
    (let e : DEntry := { key := 7, v1 := 8, v2 := 9, round := 0, sum := 1 }
     let s := { demo thread { tile with
       dqueues := [(3, { producers := 2, ring := [.record e], tail := 1, rel := some { round := 0, final := false, t := 0, b := 0 } })]
       vc := { lines := [{ line := 0x7E500000 / 64, valid := 0xF, dirty := 0 }] } } with
         mem := [(vaultAt 512 0x7E500000, 7), (vaultAt 512 0x7E500008, 8), (vaultAt 512 0x7E500010, 9), (vaultAt 512 0x7E500018, 1)] }
     ∃ q r, (s.tile 512).dqueue 3 = some q ∧ q.rel = some r ∧ r.passDue = true ∧ s.readRing 512 3 q = [.record e] ∧
       s.Sound ∧ (s.readSpilled 512 3).2 = true ∧ q.waiters = [] ∧ e.round = r.round ∧
       e.inBand r.t r.b = true ∧ e.poison = false ∧ q.window = []) := by
  refine ⟨⟨_, by decide, rfl, rfl, rfl, rfl, rfl, by decide, by decide⟩, ⟨_, by decide, rfl, rfl, by decide, by decide, rfl, rfl, rfl, rfl, by decide⟩,
    ⟨_, by decide, rfl, rfl, rfl, rfl, rfl⟩, ⟨_, by decide, rfl, by decide, rfl, rfl, rfl, rfl, _, rfl, rfl⟩,
    ⟨_, by decide, rfl, rfl, rfl, rfl⟩, ⟨packet clsRSP _, _, rfl, rfl, rfl, rfl, rfl, rfl, by decide, by decide⟩,
    ⟨packet clsCOLL _, _, rfl, rfl, rfl, by decide, rfl, rfl, rfl, by decide, by decide, rfl, ⟨_, rfl⟩, _, rfl, by decide⟩,
    ⟨packet clsCOLL _, _, _, rfl, rfl, rfl, rfl, rfl, by decide, rfl, rfl, rfl, rfl, ⟨_, rfl, rfl, rfl, rfl, rfl⟩,
      ⟨_, rfl, rfl, rfl, rfl, rfl⟩, rfl, fun x hx => ?_⟩, ⟨_, by decide, rfl, by decide, by decide⟩, fun ring hr => ?_,
    _, _, rfl, rfl, rfl, by decide, sound rfl rfl, by decide, rfl, rfl, by decide, rfl, rfl⟩
  · simp only [State.tile, Tab.get, demo, arriving]
    rw [if_neg (Ne.symm hx)]
    simp only [freshTile]
    split <;> rfl
  · simp only [List.mem_cons, List.not_mem_nil, or_false] at hr
    obtain rfl | rfl := hr <;> exact ⟨_, _, by decide, rfl, by decide, rfl, rfl, sound rfl rfl, rfl, rfl, rfl, rfl, rfl⟩


/-! ## Threads between tiles and slots -/

/-- A thread whose departure has been held for 2,048 cycles, with a move, a store or a load to complete at its destination. -/
def heldBack (kind : OpKind) : State :=
  { demo { thread with
      st := .departing, depart := some 0, departAt := some 0
      wait := some { dests := [.g 2], op := { op kind .here remotePointer with origin := .thread 512 0x200001 0, seg := 1, src := 512, owner := 0 } } }
    with time := 2048 }
/-- A context for the Hutch. -/
def context : Ctx := { th := { thread with tid := 0x200002 } }
def held (place : Nat) : Held := { how := .spawned, ctx := context, place := place }
/-- One that may be donated, at a tile with no core in service. -/
def mobile : Held := { held 0 with ctx := { context with donatable := true } }

theorem mobile_donation {tl : Tile} (h : tl.hutch = [mobile]) (hf : ((List.range 4).map (fun c => (tl.freeSlots c).length)).sum = 0) :
    tl.donation = [mobile] := by
  have e : tl.spawnOrder = [mobile] := by
    rw [Tile.spawnOrder, h]
    exact List.mergeSort_singleton _
  rw [Tile.donation, e, hf]
  rfl

theorem no_donation {tl : Tile} (h : tl.hutch = []) : tl.donation = [] := by
  have e : tl.spawnOrder = [] := by
    rw [Tile.spawnOrder, h]
    exact List.mergeSort_nil
  simp [Tile.donation, e]

/-- The Hutch is full. -/
@[irreducible] def fullHutch : List Held := (List.range 4352).map held
def hutchFull : Tile := { tile with hutch := fullHutch }

theorem held_places (n : Nat) : ((List.range n).map held).map (·.place) = List.range n := by
  simp [held, Function.comp_def]

theorem fullHutch_map : fullHutch.map (·.place) = List.range 4352 := by
  unfold fullHutch
  exact held_places 4352

theorem fullHutch_places {tl : Tile} (h : tl.hutch = fullHutch) (j : Nat) (hj : j < 4352) : j ∈ tl.places := by
  rw [Tile.places, h, fullHutch_map]
  exact List.mem_append_left _ (List.mem_range.mpr hj)

/-- One slot of core 0 is free and the other cores are out of service; a context waits for it, or is being loaded into slot 1. -/
def oneCore : Tile := { tile with slotsReg := 0x1F00002 }

set_option maxRecDepth 8000 in
theorem witness_ThreadsMove :
    (∀ kind ∈ [OpKind.arrive, .store 8 5, .load ⟨8, false⟩], let s := heldBack kind
     ∃ w, s.unitsRun 512 = true ∧ (s.thread 512 0 0).st = .departing ∧ (s.thread 512 0 0).wait = some w ∧ w.op.kind = kind ∧
       (s.thread 512 0 0).departAt = some 0 ∧ 0 + 2048 ≤ s.time ∧ (s.tile 512).resend = []) ∧
    (let s := arriving clsMIG (.context context .migrated)
     ∃ p, s.takes 0 = some p ∧ p.dst = 512 ∧ p.body = .context context .migrated ∧ 0 ∉ (s.tile 512).places ∧
       (s.touchLines 512 true (contextLines 512 0 context.th)).2 = true) ∧
    (let s := arriving clsMIG (.context context .migrated) thread hutchFull
     ∃ p, s.takes 0 = some p ∧ p.dst = 512 ∧ ∀ j < 4352, j ∈ (s.tile 512).places) ∧
    (let s := demo thread { oneCore with hutch := [held 0] }
     s.unitsRun 512 = true ∧ (s.tile 512).hutch = [held 0] ∧ (held 0).ctx.scratchNeed = 0 ∧ (held 0).ctx.core = none ∧
       ((s.tile 512).core 0).loading = none ∧ (∃ rest, (s.tile 512).freeSlots 0 = 1 :: rest) ∧
       ∀ d < 4, d ≠ 0 → ((s.tile 512).core d).loading ≠ none ∨ ((s.tile 512).freeSlots d).length < ((s.tile 512).freeSlots 0).length) ∧
    (let s := demo thread { oneCore with hutch := [held 0] }
     s.Sound ∧
       ((s.taskFits 512 (held 0)).touchLines 512 false (contextLines 512 (held 0).place (held 0).ctx.th)).2 = true) ∧
    (let s := { demo with tiles := [(512, { tile with cores := [(0, { slots := [(0, thread)], loading := some (1, held 0) })] })] }
     ∃ x, ((s.tile 512).core 0).loading = some (1, held 0) ∧ (held 0).how ≠ .woken ∧ s.readContext 512 (held 0).place (held 0).ctx.th = some x ∧
       x.priv ≠ 2 ∧ x.wait = none ∧ s.linesDue 512 (held 0).place (held 0).ctx.th = false ∧ ((s.tile 512).core 0).stopped = false ∧
       ((s.tile 512).core 0).brkStopped = false) ∧
    (let s := { demo with
       time := 1024
       tiles := [(512, { tile with cores := [(0, { slots := [(0, thread)] })] }), (1024, { tile with name := 1024 })] }
     s.unitsRun 512 = true ∧ (s.tile 512).segValid = true ∧ (s.tile 512).asking = false ∧ (s.tile 512).hutch = [] ∧ (s.tile 512).askTurn = 0 ∧
       (s.tile 512).idleSince + 1024 ≤ s.residentCycles 512 ∧
       s.inPartition (s.tile 512).asid.toNat (Config.tileName (Config.nameM 512) (Config.nameX 512 + 1) (Config.nameY 512)) = true) ∧
    (let s := arriving clsSYS .donateAsk
     ∃ p, s.takes 0 = some p ∧ p.dst = 512 ∧ p.body = .donateAsk ∧ (s.tile 512).donation = []) ∧
    (let s := arriving clsSYS .donateAsk thread { tile with slotsReg := 0x1F00000, hutch := [mobile] }
     ∃ p, s.takes 0 = some p ∧ p.body = .donateAsk ∧ (s.tile 512).donation = [mobile]) ∧
    (let s := arriving clsSYS .donateNone thread { tile with askTurn := 4, asking := true }
     ∃ p, s.takes 0 = some p ∧ p.body = .donateNone ∧ 4 ≤ (s.tile 512).askTurn) ∧
    (let s := { demo with time := 4096, tiles := [(512, { tile with
       slotsReg := 0x1DF00004, hutch := [held 0]
       cores := [(0, { slots := [(0, waiting .feWait (.fe .ldfe 0) .here 512), (1, thread), (2, thread), (3, thread)] })] })] }
     (s.thread 512 0 0).parkable = true ∧ (s.tile 512).slotWanted = true ∧
       (s.touchLines 512 true (contextLines 512 (wokenPlace 0) (s.thread 512 0 0))).2 = true ∧ ((s.tile 512).core 0).drained (s.thread 512 0 0).mark = true ∧
       (s.thread 512 0 0).waitsSince + 4096 ≤ s.residentCycles 512 ∧ (s.tile 512).freeParked = some 0) ∧
    (let s := arriving clsSYS (.wake 0x200001 false (some (.thread 0 1 0))) { thread with st := .sleeping }
     ∃ p, s.takes 0 = some p ∧ s.comesAfter p = false ∧ p.dst = 512 ∧ p.body = .wake 0x200001 false (some (.thread 0 1 0)) ∧ (s.thread 512 0 0).tid = 0x200001 ∧
       (s.thread 512 0 0).st = .sleeping ∧ (s.thread 512 0 0).waitt = false ∧ (s.tile 512).faultBuf = [] ∧
       ∀ x ∈ (s.tile 512).allThreads, x.tid = 0x200001 → x.st ≠ .parked ∧ x.doing ≠ .parkedFault) ∧
    (∃ p, (arriving clsSYS (.retire 1)).takes 0 = some p ∧ p.dst = 512 ∧ p.body = .retire 1) ∧
    (let o : Op := op .quota .remote
     let s := fun (q : BitVec 32) => { arriving clsSYS (.quotaAdd o) thread { tile with quota := q } with mem := [(sramAt 512 0x1730200, 1)] }
     ∃ p, (s 2).Sound ∧ (s 1).Sound ∧ (s 2).takes 0 = some p ∧ (s 1).takes 0 = some p ∧ p.dst = 512 ∧ p.body = .quotaAdd o ∧ o.owner = 512 ∧
       ((s 2).dword (sramAt 512 0x1730200)).toNat < ((s 2).tile 512).quota.toNat ∧ ((s 1).tile 512).quota ≠ 0 ∧
       ((s 1).tile 512).quota.toNat ≤ ((s 1).dword (sramAt 512 0x1730200)).toNat) ∧
    (∃ p, (arriving clsSYS .quotaSub).takes 0 = some p ∧ p.dst = 512 ∧ p.body = .quotaSub) := by
  refine ⟨fun kind hk => ?_, ⟨packet clsMIG _, rfl, rfl, rfl, by decide, by decide⟩, ⟨packet clsMIG (.context context .migrated), rfl, rfl, ?_⟩,
    ⟨by decide, rfl, rfl, rfl, rfl, ⟨_, rfl⟩, by decide⟩,
    ⟨sound rfl rfl, by decide⟩, ⟨_, rfl, nofun, rfl, nofun, rfl, by decide, rfl, rfl⟩, by decide,
    ⟨packet clsSYS _, rfl, rfl, rfl, no_donation rfl⟩, ⟨packet clsSYS _, rfl, rfl, mobile_donation rfl (by decide)⟩, ⟨packet clsSYS _, rfl, rfl, by decide⟩,
    ⟨by decide, by decide, by decide, by decide, by decide, rfl⟩, ⟨packet clsSYS _, rfl, by decide, rfl, rfl, rfl, rfl, rfl, rfl, by decide⟩,
    ⟨packet clsSYS _, rfl, rfl, rfl⟩, ⟨packet clsSYS _, sound rfl rfl, sound rfl rfl, rfl, rfl, rfl, rfl, rfl, by decide, by decide, by decide⟩,
    packet clsSYS _, rfl, rfl, rfl⟩
  · simp only [List.mem_cons, List.not_mem_nil, or_false] at hk
    obtain rfl | rfl | rfl := hk <;> exact ⟨_, by decide, rfl, rfl, rfl, rfl, by decide, rfl⟩
  · exact fullHutch_places rfl

/-! ## The Trestle, the copy engine, the vault cache -/

/-- A command with word 0 w and everything else zero: its rows lie at address 0 of segment 0. -/
def block (w : Dword) : Block := { words := [w], seq := 1, tid := 0x200001, asid := 1, scratch := none, segs := segments }
def runningAt (w : Dword) (step ahead : Nat) (got : List (Dword × Nat × Line) := []) (unacked : Nat := 0) : Running :=
  { blk := block w, step := step, ahead := ahead, got := got, unacked := unacked }
def trestling (r : Running) : Tile := { tile with trestle := { running := some r } }
def lineReq (data : Option Line := none) (mcast : Bool := false) : LineReq :=
  { asid := 1, tile := 512, seq := 1, seg := 0, va := 0x40, owner := 512, lo := 0x40, len := 64, mcast := mcast, data := data, tid := 0x200001 }
/-- The lines of a step, as zeros. -/
def linesOf (b : Block) (n : Nat) : List (Dword × Nat × Line) := ((b.stepLines n).flatMap b.pieces).map (fun p => (p.1, p.2, 0))

theorem linesOf_due (b : Block) (n : Nat) : ∀ p ∈ (b.stepLines n).flatMap b.pieces, ∃ e ∈ linesOf b n, e.1 = p.1 :=
  fun _ h => ⟨_, List.mem_map_of_mem h, rfl⟩

/-- A FP32 MMA of one step, a ZERO, a LOAD and a STORE. -/
def commands : List Dword := [0x10500, 0x1, 0x502, 0x503]

set_option maxRecDepth 8000 in
theorem witness_TrestleWorks :
    (let s := demo thread { tile with trestle := { queue := [block 1] } }
     s.unitsRun 512 = true ∧ (s.tile 512).trestle.running = none ∧ (s.tile 512).trestle.queue = block 1 :: [] ∧ (block 1).kind = 1) ∧
    (let s := demo thread { tile with trestle := { queue := [block 0x502] } }
     s.unitsRun 512 = true ∧ (s.tile 512).trestle.running = none ∧ (s.tile 512).trestle.queue = block 0x502 :: [] ∧ (block 0x502).kind = 2 ∧
       ∀ i < (block 0x502).steps, ∀ x ∈ ((block 0x502).stepLines i).flatMap (block 0x502).pieces,
         s.reachable ((block 0x502).lineReq 512 x.1 x.2 none).owner = true) ∧
    (∀ w ∈ commands, let r := runningAt w 0 32 (linesOf (block w) 0)
     let s := demo thread (trestling r)
     s.unitsRun 512 = true ∧ (s.tile 512).trestle.running = some r ∧ r.stopped = false ∧ r.step < r.blk.steps ∧
       (∀ p ∈ (r.blk.stepLines r.step).flatMap r.blk.pieces, ∃ e ∈ r.got, e.1 = p.1) ∧ r.toSend = [] ∧ r.blk.steps ≤ r.ahead) ∧
    commands.map (fun w => (block w).kind) = [0, 1, 2, 3] ∧
    (∀ c < 4, let s := demo
     s.reachable ((block 0x503).lineReq 512 (BitVec.ofNat 64 (64 * c)) 64 (some 0)).owner = true) ∧
    ((block 0x503).storeRow ({} : Acc) 0).map (fun w => (w.1, w.2.1)) = (List.range 4).map (fun c => (BitVec.ofNat 64 (64 * c), 64)) ∧
    (let s := demo thread (trestling (runningAt 1 1 1))
     ∃ r, (s.tile 512).trestle.running = some r ∧ r.blk.steps ≤ r.step ∧ r.unacked = 0) ∧
    (let s := arriving clsOPND (.line lineReq 7 0) thread (trestling (runningAt 0x10500 0 1))
     ∃ p r, s.takes 0 = some p ∧ p.dst = 512 ∧ p.body = .line lineReq 7 0 ∧ (s.tile 512).trestle.running = some r ∧ r.blk.seq = lineReq.seq ∧
       r.stopped = false ∧ r.toSend = [] ∧ r.blk.steps ≤ r.ahead) ∧
    (let x := lineReq (some 0)
     let s := arriving clsOPND (.lineAck x 0) thread (trestling (runningAt 0x503 1 32 [] 1))
     ∃ p r, s.takes 0 = some p ∧ p.dst = 512 ∧ p.body = .lineAck x 0 ∧ (s.tile 512).trestle.running = some r ∧ r.blk.seq = x.seq) ∧
    (let s := arriving clsOPND (.lineRead lineReq)
     ∃ p, s.Delivers 0 p ∧ p.dst = 512 ∧ p.body = .lineRead lineReq ∧ s.Finds 512 1 0 lineReq.map lineReq.lo false (at0 0x40) ∧ lineReq.data = none ∧
       lineReq.mcast = false ∧ lineReq.lo % 64 + lineReq.len ≤ 64 ∧ s.isPoisoned (at0 0x40) 64 = false) ∧
    (let x := lineReq none true
     let s := arriving clsOPND (.lineRead x)
     ∃ p, s.Delivers 0 p ∧ p.dst = 512 ∧ p.body = .lineRead x ∧ x.data = none ∧ x.mcast = true ∧ (s.tile 512).windows = []) ∧
    (∀ more ∈ [[], [lineReq none true]], let x := lineReq none true
     let w : Window := { lo := 0x40, seg := 0, asid := 1, opened := 0, joiners := x :: more }
     let s := { demo thread { tile with windows := [w] } with time := 256 }
     s.unitsRun 512 = true ∧ (s.tile 512).windows = [w] ∧ x.data = none ∧ x.lo % 64 + x.len ≤ 64 ∧
       s.Finds 512 x.asid x.seg x.map x.lo false (at0 0x40) ∧
       s.isPoisoned (at0 0x40) x.len = false ∧ w.opened + 256 ≤ s.time) ∧
    (∀ fifo ∈ [[], [((0x200002 : BitVec 32), true)]],
     let s := { demo thread { tile with trestle := { holder := some 0x200001, fifo := fifo } } with time := 65536 }
     s.unitsRun 512 = true ∧ (s.tile 512).trestle.holder = some 0x200001 ∧ (s.tile 512).trestle.fifo = fifo ∧
       (∀ e ∈ (s.tile 512).threads, e.2.2.tid = 0x200001 → e.2.2.issuing = false) ∧
       (s.tile 512).trestle.grantAt + 65536 ≤ s.residentCycles 512) := by
  refine ⟨⟨by decide, rfl, rfl, by decide⟩, ⟨by decide, rfl, rfl, by decide, by decide⟩, fun w hw => ⟨?_, rfl, rfl, ?_, linesOf_due _ _, rfl, ?_⟩, by decide, by decide, by decide,
    ⟨_, rfl, by decide, rfl⟩, ⟨packet clsOPND _, _, rfl, rfl, rfl, rfl, rfl, rfl, rfl, by decide⟩,
    ⟨packet clsOPND _, _, rfl, rfl, rfl, rfl, rfl⟩,
    ⟨packet clsOPND _, ⟨rfl, rfl, rfl, by decide⟩, rfl, rfl, ⟨⟨_, rfl⟩, by decide, rfl, rfl⟩, rfl, rfl, by decide, by decide⟩,
    ⟨packet clsOPND _, ⟨rfl, rfl, rfl, by decide⟩, rfl, rfl, rfl, rfl, rfl⟩, fun more hm => ?_, fun fifo hf => ?_⟩
  · simp only [commands, List.mem_cons, List.not_mem_nil, or_false] at hw
    obtain rfl | rfl | rfl | rfl := hw <;> rfl
  · simp only [commands, List.mem_cons, List.not_mem_nil, or_false] at hw
    obtain rfl | rfl | rfl | rfl := hw <;> decide
  · simp only [commands, List.mem_cons, List.not_mem_nil, or_false] at hw
    obtain rfl | rfl | rfl | rfl := hw <;> decide
  · simp only [List.mem_cons, List.not_mem_nil, or_false] at hm
    obtain rfl | rfl := hm <;> exact ⟨by decide, rfl, rfl, by decide, ⟨⟨_, rfl⟩, by decide, rfl, rfl⟩, by decide, by decide⟩
  · simp only [List.mem_cons, List.not_mem_nil, or_false] at hf
    obtain rfl | rfl := hf <;> exact ⟨rfl, rfl, rfl, by decide, by decide⟩

/-- A piece of a copy within segment 0, of 16 bytes. -/
def piece (data : List Byte := []) : Piece :=
  { asid := 1, origin := .thread 512 0x200001 0, dstOwner := 512, dstLo := 0x100, srcOwner := 512, srcLo := 0x40, len := 16
    aw := some (0, 0x200, 512, 0x200), data := data }
def row (len : Nat) : CopyRow := { dst := 0x100, src := 0x40, len := len }
def copyCmd (len : Nat) : CopyCmd :=
  { asid := 1, tid := 0x200001, rows := [row len], aw := 0x200, supervisor := false, scratch := none, segs := segments }

set_option maxRecDepth 4000 in
theorem witness_CopyEngineWorks :
    (let s := demo thread { tile with copies := [copyCmd 100] }
     s.unitsRun 512 = true ∧ (s.tile 512).copies = copyCmd 100 :: [] ∧ (copyCmd 100).rows = [row 100] ∧ s.reachable 512 = true ∧ 0 < (row 100).len ∧
       ((copyCmd 100).segs.get {} (vaSeg (row 100).dst)).kind = 3 ∧ ((copyCmd 100).segs.get {} (vaSeg (row 100).src)).kind = 3) ∧
    (let s := arriving clsBULK (.copyRead piece)
     ∃ p, s.Delivers 0 p ∧ p.dst = 512 ∧ p.body = .copyRead piece ∧ piece.srcLo % 64 + (piece.len - piece.data.length) ≤ 64 ∧
       piece.parts = [] ∧ s.Finds 512 1 0 piece.srcMap piece.srcLo false (at0 0x40) ∧
       piece.dstOwner ≠ Config.noTile ∧ s.reachable piece.dstOwner = true ∧ ∀ i < piece.len, s.isPoisoned (at0 0x40 + i) 1 = false) ∧
    (let x := piece (List.replicate 16 7)
     let s := arriving clsBULK (.copyData x)
     ∃ p, s.Delivers 0 p ∧ p.dst = 512 ∧ p.body = .copyData x ∧ x.dstLo % 64 + x.len ≤ 64 ∧ x.data.length = x.len ∧
       s.Finds 512 1 0 x.dstMap x.dstLo true (at0 0x100) ∧ s.isPoisoned (at0 0x100) x.len = false ∧ x.poison = [] ∧ x.replica = [] ∧ x.bkPut = false ∧
       s.reachable 512 = true) ∧
    (let s := arriving clsBULK (.copyCount piece)
     ∃ p, s.Delivers 0 p ∧ p.dst = 512 ∧ p.body = .copyCount piece ∧ 0x200 % 64 + 16 ≤ 64 ∧ s.Finds 512 1 0 piece.awMap 0x200 true (at0 0x200) ∧
       s.isPoisoned (at0 0x200) 16 = false ∧ (s.tile 512).waitersAt (at0 0x200) = []) :=
  ⟨⟨by decide, rfl, rfl, by decide, by decide, by decide, by decide⟩,
    ⟨packet clsBULK _, ⟨by decide, by decide, by decide, by decide⟩, rfl, rfl, by decide, rfl, ⟨⟨_, rfl⟩, by decide, rfl, rfl⟩, by decide, by decide, by decide⟩,
    ⟨packet clsBULK _, ⟨by decide, by decide, by decide, by decide⟩, rfl, rfl, by decide, by decide, ⟨⟨_, rfl⟩, by decide, rfl, rfl⟩, by decide, rfl, rfl, rfl, by decide⟩,
    packet clsBULK _, ⟨by decide, by decide, by decide, by decide⟩, rfl, rfl, by decide, ⟨⟨_, rfl⟩, by decide, rfl, rfl⟩, by decide, rfl⟩

/-- A walk of page 1 of segment 0 for a fetch or an access of the thread, and a tree in which its leaf is valid. -/
def walkOf (u : Use) : Walk := { asid := 1, seg := 0, lo := 0x1000, va := 0x1000, write := false, uses := [u] }
def tree : List Host.Cell :=
  [(sramAt 512 0x40000, 0x01), (sramAt 512 0x40001, 0x10), (sramAt 512 0x40002, 0x04), (sramAt 512 0x41000, 0x01),
   (sramAt 512 0x41001, 0x20), (sramAt 512 0x41002, 0x04), (sramAt 512 0x42008, 0x01), (sramAt 512 0x4200A, 0x05)]
/-- A fault queue of 16 records at 0x1700000, with n put and none taken; one record waits. -/
def faulting (n : Byte) : State :=
  { demo thread { tile with
      faultq := 0x1700000
      faultRecs := [{ tid := 0x200001, asid := 1, seg := 0, kind := 1, reason := 1, lo := 0, va := 0, src := 512, cls := 0 }] } with
    mem := [(sramAt 512 0x1700000, 16), (sramAt 512 0x1700008, n)] }
/-- The thread waits for the acknowledgement of a broadcast. -/
def broadcasting (last : Nat) : Thread := { thread with st := .markWait, hold := .acks, sent := true, acks := [last] }
/-- A class switch due at 100. -/
def switching (time : Nat) : State :=
  { demo (broadcasting Config.noTile) { tile with classSwitch := [(0x8080F, 100, 0x200001)], postStopped := [0x200001] } with time := time }

set_option maxRecDepth 8000 in
theorem witness_TranslationAndSystemEvents :
    (let w := walkOf (.fetch 0 0)
     let s := { demo thread { tile with walks := [w], roots := [(0, 0x40001)], scratchReg := 0x1000000 } with mem := tree }
     s.unitsRun 512 = true ∧ (s.tile 512).walks[0]? = some w ∧ w.uses = [.fetch 0 0] ∧
       s.walk 512 w.seg w.vault w.psize w.lo w.write = .present (sramAt 512 0x42008) 0x50001 ∧ s.Sound ∧ (s.tile 512).stalls = [] ∧
       ∀ a ∈ s.walkNodes 512 w.seg w.psize w.lo, devVault a = false) ∧
    (let w := walkOf (.own 0 0)
     let x : WaitRec := { op := { op (.load ⟨8, false⟩) .here 0x1000 with lo := 0x1000, src := 512 }, dests := [.g 2] }
     let s := demo { thread with wait := some x, walking := true } { tile with walks := [w] }
     (s.tile 512).walks[0]? = some w ∧ w.uses = [.own 0 0] ∧ (s.thread 512 0 0).st ≠ .halted ∧ (s.thread 512 0 0).wait = some x ∧ x.next.lo = w.lo ∧ x.next.va = w.va ∧
       s.walk 512 w.seg w.vault w.psize w.lo w.write = .fault 1 ∧ s.Sound ∧ (s.tile 512).stalls = [] ∧
       ∀ a ∈ s.walkNodes 512 w.seg w.psize w.lo, devVault a = false) ∧
    ((∀ n, (faulting n).Sound) ∧ ∀ n ∈ [(0 : Byte), 16], let s := faulting n
     let at_ := fun (i : Nat) => sramAt 512 ((s.tile 512).faultq.toNat + 8 * i)
     s.unitsRun 512 = true ∧ (s.tile 512).faultRecs ≠ [] ∧ s.faultQueue 512 = some 16 ∧ (s.tile 512).waiters = [] ∧
       (s.dword (at_ 0)).getLsbD 32 = false ∧ (s.dword (at_ 1) - s.dword (at_ 2)).toNat = n.toNat) ∧
    (let body := Payload.inval 1 0 0 0 0x1000 0x200001 0
     ∃ p, (arriving clsSYS body).takes 0 = some p ∧ p.dst = 512 ∧ p.body = body ∧ ((arriving clsSYS body).tile 512).vc.misses = [] ∧
       ∀ e ∈ ((arriving clsSYS body).tile 512).cores, e.2.sb = []) ∧
    (let s := arriving clsSYS (.sysAck 0x200001 0) (broadcasting 512)
     ∃ p, s.takes 0 = some p ∧ p.dst = 512 ∧ p.body = .sysAck 0x200001 0 ∧ (s.thread 512 0 0).ackNo = 0 ∧ (s.thread 512 0 0).tid = 0x200001 ∧
       (s.thread 512 0 0).st = .markWait ∧ (s.thread 512 0 0).hold = .acks ∧ (s.thread 512 0 0).sent = true ∧ (s.thread 512 0 0).acks = [p.src]) ∧
    (∀ body ∈ [Payload.segTable [1] 0x200001 0, .classWrite 0 7 0x200001 0 false, .classWrite 3 7 0x200001 0 true, .classTime 7 100 0x200001],
      ∃ p, (arriving clsSYS body).takes 0 = some p ∧ p.dst = 512 ∧ p.body = body ∧ ((arriving clsSYS body).tile 512).postStopped = [] ∧ (arriving clsSYS body).holdsPost 512 p.asid = false) ∧
    (let s := { demo with net := [packet clsSYS (.classWrite 3 7 0x200001 0 true),
        { packet clsPOST .quotaSub with md := 0, col := 1, row := 0, port := 0 }] }
     ∃ p, s.takes 0 = some p ∧ p.dst = 512 ∧ s.holdsPost 512 p.asid = true) ∧
    (∀ time ∈ [99, 100], let s := switching time
     s.unitsRun 512 = true ∧ (s.tile 512).classSwitch = [(0x8080F, 100, 0x200001)] ∧ (s.thread 512 0 0).tid = 0x200001 ∧ (s.thread 512 0 0).st = .markWait ∧ (s.thread 512 0 0).hold = .acks ∧
       (s.thread 512 0 0).sent = true ∧ (s.thread 512 0 0).acks = [Config.noTile]) := by
  refine ⟨⟨by decide, rfl, rfl, by decide, sound rfl rfl, rfl, by decide⟩,
    ⟨rfl, rfl, by decide, rfl, rfl, rfl, by decide, sound rfl rfl, rfl, by decide⟩, ⟨fun _ => sound rfl rfl, by decide⟩, ⟨packet clsSYS _, rfl, rfl, rfl, rfl, by decide⟩,
    ⟨packet clsSYS _, rfl, rfl, rfl, rfl, rfl, rfl, rfl, rfl, rfl⟩, fun body hb => ?_, ⟨packet clsSYS _, rfl, rfl, by decide⟩, by decide⟩
  simp only [List.mem_cons, List.not_mem_nil, or_false] at hb
  obtain rfl | rfl | rfl | rfl := hb <;> exact ⟨packet clsSYS _, rfl, rfl, rfl, rfl, by decide⟩

set_option maxRecDepth 4000 in
theorem witness_VaultCacheAndScrubber :
    (let m : Miss := { line := 5, waitWb := false }
     let s := { State.reset with tiles := [(512, { tile with vc := { misses := [m] } })] }
     (s.tile 512).vc.misses[0]? = some m ∧ m.waitWb = false ∧ (s.tile 512).vc.line? m.line = none ∧ (s.tile 512).threads = [] ∧
       m.lost = 0 ∧ s.powered (Config.nameM 512) = true ∧ ∀ x ∈ (s.tile 512).vc.misses, ∀ g ∈ x.out, g.more = [] ∧ g.bad = false) ∧
    (let s := demo thread { tile with vc := { writeback := [9] } }
     0 < (s.tile 512).vc.writeback.length ∧ s.powered (Config.nameM 512) = true ∧ ∀ m ∈ (s.tile 512).vc.misses, m.waitWb = false) ∧
    (let x : Stream := { last := 5, stride := 1, count := 3, used := 0 }
     let s := demo thread { tile with vc := { streams := [x] } }
     let vc := (s.tile 512).vc
     vc.streams[0]? = some x ∧ s.powered (Config.nameM 512) = true ∧ 3 ≤ x.count ∧ vc.misses.length ≤ 56 ∧ (x.last : Int) + x.stride = (6 : Nat) ∧ 6 / 64 = x.last / 64 ∧
       vc.line? 6 = none ∧ vc.miss? 6 = none ∧ vc.victim 6 = some 0 ∧ vc.holder 6 0 = none) ∧
    demo.powered (Config.nameM 512) = true ∧ (demo.tile 512).failedBank = 0 ∧ (demo.module (Config.nameM 512)).log.length < 8192 ∧ (demo.tile 512).scrubPos = 0 ∧
    (demo.tile 512).errs = [] ∧ (demo.module (Config.nameM 512)).retiring = [] := by decide

/-! ## The fabric, partitions and modules -/

/-- A packet at column 0 of the top row, for the tile of column 1, which came in from the east, aged. -/
def crossing (hops : Nat := 0) (port : Nat := 5) (age : Nat := 16) : Packet :=
  { packet clsREQ (.request (op (.load ⟨8, false⟩) .remote)) with src := 0, col := 0, row := 0, md := 0, hops := hops, port := port, age := age }
def crossingAt (time : Nat) (port : Nat := 5) (age : Nat := 16) : State := { State.reset with time := time, net := [crossing 0 port age] }
/-- A packet of address space 2 at tile 512, where address space 1 is resident. -/
def stranger : Packet := { packet clsPOST .quotaSub with asid := 2 }
/-- Address space 2 is saved there. -/
def savedPart (tl : Tile) : SavedTile := { asid := 2, name := 512, tile := tl, mem := [], empties := [], poison := [] }

set_option maxRecDepth 8000 in
theorem witness_FabricEvents :
    (∀ age ∈ [15, 16], let s := crossingAt 0 5 age
     let p := crossing 0 5 age
     let w : Way := { dir := dirE, vc := p.vc, chan := streamChannel (s.channelSet p) p }
     s.net[0]? = some p ∧ s.powered p.md = true ∧ s.heads p = true ∧ (∀ md, (s.module md).halted = false) ∧ (∀ t, (s.tile t).gang = .running) ∧
       s.mayInject p = true ∧ p.mode = 0 ∧ p.cls < 8 ∧ Config.nameM p.dst = p.md ∧ s.site p.dst = some (1, 0) ∧ p.col < 1 ∧ p.col < 95 ∧
       p.row < 63 ∧ p.plane < 2 ∧
       (s.module p.md).linkTo (routerNo p.col p.row p.plane) dirE = some (routerNo (p.col + 1) p.row p.plane) ∧
       p.len ≤ s.freeSlots p.md (routerNo (p.col + 1) p.row p.plane) dirW w.chan p.cls p.vc ∧ p.age = age ∧ s.draining p.md = false ∧ s.stamp p = p ∧ p.mcast = false ∧ p.aim = none ∧ s.net.length = 1 ∧
       s.arbiter p w = {}) ∧
    (let s := crossingAt 256
     s.powered 0 = true ∧ s.time % 256 = 0 ∧ (s.module 0).agedAt ≠ s.time) ∧
    (let s := crossingAt 65536 dirE
     let p := crossing 0 dirE
     s.time % 65536 = 0 ∧ (s.module 0).drainedAt ≠ s.time ∧ s.net[0]? = some p ∧ s.candidate 0 p = true ∧ (s.drained p).isSome = true ∧
       (crossingAt 65536).candidate 0 crossing = false) ∧
    (∀ time ∈ [9, 10], let s := { State.reset with time := time, mods := [(0, { nameSwitch := some (10, []) })] }
     (s.module 0).nameSwitch = some (10, []) ∧ (s.module 0).repairAt = none ∧ s.powered 0 = true) ∧
    State.reset.linkTo 0 0 dirE = some (0, 2) ∧ 2 * 0 + 1 < routerCount ∧ (State.reset.module 0).routerUp (2 * 0 + 1) = true ∧
    demo.reachable 512 = true ∧ demo.powered (Config.nameM 512) = true ∧
    (let s := fun (region : List SavedTile) => { demo with saved := region, net := [stranger] }
     ∃ p, (s []).arrived 0 = some p ∧ (s [savedPart tile]).arrived 0 = some p ∧ ((s []).tile p.dst).resident p.asid = false ∧ p.body.ofHost = false ∧
       (s []).powered p.md = true ∧ (s []).comesAfter p = false ∧ (s [savedPart tile]).comesAfter p = false ∧ p.cls = clsPOST ∧
       (s []).hasRegion p.dst p.asid = false ∧ (s [savedPart tile]).hasRegion p.dst p.asid = true ∧
       flitsOf (((s [savedPart tile]).tile p.dst).nrspill.filter (fun q => q.asid == p.asid)) + p.len ≤ spillFlits) :=
  ⟨fun age h => by
      simp only [List.mem_cons, List.not_mem_nil, or_false] at h
      rcases h with rfl | rfl <;>
      exact ⟨rfl, by decide, by decide, fun _ => rfl, fun _ => rfl, by decide, rfl, by decide, by decide, by decide, by decide, by decide, by decide,
        by decide, by decide, by decide, rfl, by decide, by decide, rfl, rfl, rfl, by decide⟩, by decide, by decide, by decide, by decide, by decide, by decide, by decide, by decide,
    stranger, by decide, by decide, by decide, by decide, by decide, by decide, by decide, by decide, by decide, by decide, by decide⟩

/-- A launch record on the tiles of columns 1 and 2 of the top row or on the first alone, of address space 1, with one thread a tile. -/
def recordOf (wide : Nat) (lid : Nat := 5) : List Dword :=
  [BitVec.ofNat 64 (2 ^ 32 + lid), 0, 0, BitVec.ofNat 64 (1 + wide * 65536 + 2 ^ 24 + 2 ^ 36), 0, 1, 0, 0, 0, 0, 0, 0, 0]
def launch (st : LState) (wide : Nat := 1) (resume : Option Nat := none) : Launch :=
  { words := recordOf wide, port := 0, at_ := 0, st := st, tiles := if wide = 1 then [512] else [512, 1024], resumeAt := resume }
/-- A booted module with one launch. -/
def bureau (l : Launch) : Module := { booted := true, launches := [l] }
/-- The tile with nothing resident. -/
def freeTile : Tile := { name := 512, slotsReg := fullSlots }
/-- The tile stopped for the gang switch. -/
def stoppedTile : Tile := { tile with gang := .stopped, cores := [(0, { slots := [(0, { thread with st := .sleeping })] })] }

/-- And with its thread READY. -/
def readyTile : Tile := { stoppedTile with cores := [(0, { slots := [(0, thread)] })] }

/-- What holds of the two tiles of such a machine, and of a tile not listed, holds of every tile. -/
theorem two_tiles {s : State} {x y : Tile} {P : Tile → Prop} (h : s.tiles = [(512, x), (1024, y)]) (hx : P x) (hy : P y) (h0 : P {})
    (h2 : ∀ n r d, P { name := n, slotsReg := r, treedepth := d }) (t : Nat) : P (s.tile t) := by
  rw [State.tile, h]
  by_cases e : 512 = t
  · subst e; exact hx
  · by_cases e2 : 1024 = t
    · subst e2; exact hy
    · simp only [Tab.get, e, e2, if_false, freshTile]
      split
      · exact h2 ..
      · exact h0

theorem launchOf_bureau {l : Launch} {id : Nat} {s : State} (h : s.mods = [(0, bureau l)]) (hp : l.placed = true) (ha : l.asid = id) :
    s.launchOf id = some (0, l) := by
  simp [State.launchOf, h, bureau, hp, ha]

set_option maxRecDepth 8000 in
theorem witness_GangSwitchEvents :
    (∀ time ∈ [99, 100], let s := { demo thread { tile with gangstop := 100 } with time := time }
     (s.tile 512).segValid = true ∧ (s.tile 512).gang = .running ∧ s.unitsRun 512 = true ∧ (s.module 0).halted = false ∧
       (s.tile 512).gangstop = 100 ∧ (s.thread 512 0 0).st ≠ .free ∧ (s.tile 512).walks = [] ∧ ∀ e ∈ (s.tile 512).threads, e.2.2.quotaTaken = false) ∧
    (let l := launch .stopping 2
     let s := { State.reset with
       tiles := [(512, stoppedTile), (1024, { stoppedTile with name := 1024 })]
       mods := [(0, bureau l)] }
     (s.tile 512).segValid = true ∧ (s.tile 512).gang = .stopped ∧ s.allParked 1 = true ∧ (∀ n, (s.module n).retiring = []) ∧
       s.launchOf 1 = some (0, l) ∧ l ∈ (s.module 0).launches ∧
       ∃ n ∈ l.tiles, n ≠ 512 ∧ s.savedAt n 1 = false) ∧
    (let l := launch .stopping 2
     let s := { State.reset with
       tiles := [(512, stoppedTile)], saved := [{ savedPart stoppedTile with asid := 1, name := 1024 }], mods := [(0, bureau l)] }
     (s.tile 512).segValid = true ∧ (s.tile 512).gang = .stopped ∧ s.allParked 1 = true ∧
       (∀ n, (s.module n).retiring = [] ∧ (s.module n).placeHeld = false ∧ (s.module n).nameSwitch = none) ∧
       s.launchOf 1 = some (0, l) ∧ l ∈ (s.module 0).launches ∧ (∀ n ∈ l.tiles, n ≠ 512 → s.savedAt n 1 = true) ∧ l.aborting = false) ∧
    (∀ time ∈ [99, 100], let l := launch .saved 2 (some 100)
     let x : SavedTile := { savedPart readyTile with asid := 1 }
     let y : SavedTile := { x with name := 1024 }
     let s := { State.reset with
       time := time, saved := [x, y], mods := [(0, bureau l)]
       tiles := [(512, freeTile), (1024, { freeTile with name := 1024 })] }
     s.launchOf 1 = some (0, l) ∧ l ∈ (s.module 0).launches ∧ l.st = .saved ∧ l.aborting = false ∧ l.resumeAt = some 100 ∧
       (∀ t ∈ l.tiles, (s.module (Config.nameM t)).placeHeld = false ∧ (s.tile t).segValid = false ∧ s.reachable t = true ∧
         s.powered (Config.nameM t) = true ∧ s.moving t = false) ∧ s.Sound ∧ (s.tile 512).hasTrestle = true ∧
       (∀ z ∈ s.saved, z.asid = 1 → z.tile.fallout = []) ∧ (∀ q, (s.tile q).nrspill = []) ∧ s.net = [] ∧ x.tile.asid.toNat = 1 ∧
       (s.module (Config.nameM 512)).halted = false ∧ (∀ z ∈ s.saved, z.asid = 1 → z.tile.faultBuf = []) ∧
       s.saved.filter (fun z => z.asid == 1 && z.name == 512) = [x] ∧
       (∀ e ∈ x.tile.threads, (s.tile 512).slotInService e.1 e.2.1 = true) ∧ (x.tile.thread 0 0).st = .ready) := by
  refine ⟨by decide, ⟨by decide, by decide, by decide, every_module (P := fun m => m.retiring = []) rfl rfl rfl,
      launchOf_bureau rfl (by decide) (by decide), List.mem_cons_self, by decide⟩,
    ⟨by decide, by decide, by decide,
      every_module (P := fun m => m.retiring = [] ∧ m.placeHeld = false ∧ m.nameSwitch = none) rfl (by decide) (by decide),
      launchOf_bureau rfl (by decide) (by decide), List.mem_cons_self, by decide, rfl⟩, fun time ht => ?_⟩
  have h : ∀ e ∈ readyTile.threads, freeTile.slotInService e.1 e.2.1 = true := by decide
  simp only [List.mem_cons, List.not_mem_nil, or_false] at ht
  obtain rfl | rfl := ht <;>
  exact ⟨launchOf_bureau rfl (by decide) (by decide), List.mem_cons_self, rfl, rfl, rfl, by decide, two_tiles (P := fun x => x.errs = []) rfl rfl rfl rfl (fun _ _ _ => rfl), by decide, by decide,
    two_tiles (P := fun x => x.nrspill = []) rfl rfl rfl rfl (fun _ _ _ => rfl), rfl, by decide, by decide, by decide, rfl, h, rfl⟩


/-- A launch record in memory, of one thread on tile 512. -/
def recordBytes : List Host.Cell :=
  [(sramAt 512 0, 5), (sramAt 512 4, 1), (sramAt 512 24, 1), (sramAt 512 26, 1), (sramAt 512 27, 1), (sramAt 512 28, 0x10),
   (sramAt 512 40, 1)]
/-- A booted module with a launch queue of 4 records at tile 512 and one launch, and the tile free or its partition resident. -/
def launching (l : Launch) (tl : Tile := freeTile) (mem : List Host.Cell := []) : State :=
  { State.reset with
    tiles := [(512, tl)], mem := mem
    mods := [(0, { bureau l with ports := [(0, { lqbase := BitVec.ofNat 64 (sramAt 512 0), lqsize := 4 })], sems := [(0, (true, 0))] })] }
/-- It depends on launch 9. -/
def dependent : Launch := { launch .waiting with words := (recordOf 1).set 0 0x1000100000005 |>.set 10 9 }

set_option maxRecDepth 8000 in
theorem witness_LaunchEvents :
    (∀ mem, (launching (launch .submitted) freeTile mem).Sound) ∧
    (∀ mem ∈ [[], recordBytes], let l := launch .submitted
     let s := launching l freeTile mem
     let x := (s.module 0).ports.get {} l.port
     let a := x.lqbase.toNat + 256 * (x.lqhead.toNat % x.lqsize.toNat)
     (s.module 0).booted = true ∧ (s.module 0).frozen = false ∧ (s.module 0).poweredOff = false ∧ (s.module 0).nextSubmitted = some l ∧
       (s.verdict { l with words := (List.range 32).map (fun i => s.dword (a + 8 * i)), st := .waiting }).isSome = mem.isEmpty) ∧
    (let s := launching (launch .waiting)
     let x := (s.module 0).ports.get {} 0
     let head := x.lqhead.toNat + x.lqsize.toNat
     s.net = [] ∧ head < (5 : Dword).toNat ∧ x.lqtail.toNat ≤ (4 : Dword).toNat ∧ (4 : Dword).toNat ≤ head) ∧
    (let s := fun st => launching (launch st)
     (s .submitted).launchBy 0 (field 5 0 32) = none ∧
       ∀ st ∈ [LState.waiting, .resident], (s st).launchBy 0 (field 5 0 32) = some (launch st) ∧ launch st ∈ ((s st).module 0).launches) ∧
    (let s := launching (launch .waiting)
     let val : Dword := 0x100200
     (s.module 0).sems.get (false, 0) 0 = (true, 0) ∧ (s.module 0).sems.get (false, 0) 0 ≠ (true, 1) ∧ Config.nameM (field val 0 20) = 0 ∧
       s.site (field val 0 20) = some (1, 0) ∧ field val 20 4 = 1 ∧ field val 24 4 < 4 ∧ (s.tile (field val 0 20)).segValid = false ∧
       (s.module 0).retiring = [] ∧ (s.module 0).log.length < 8192) ∧
    (let l := { launch .waiting with eligibleAt := some 0, tiles := [] }
     let s := launching l
     s.launchBy 0 5 = some l ∧ l ∈ (s.module 0).launches ∧ s.placeable 0 l = true ∧ s.earlierPlaceable 0 l = false ∧
       s.powered 0 = true ∧ s.Sound) ∧
    (let s := { launching dependent with mods := [(0, { bureau dependent with done := [(9, 3)] })] }
     s.launchBy 0 5 = some dependent ∧ dependent ∈ (s.module 0).launches ∧ dependent.st = .waiting ∧ s.powered 0 = true ∧ s.depFails 0 dependent = some 0) ∧
    (let l := launch .resident
     let s := launching l tile
     s.launchBy 0 5 = some l ∧ l ∈ (s.module 0).launches ∧ l.st = .resident ∧ s.powered 0 = true ∧ s.drainedLaunch l = true) ∧
    (∀ time ∈ [17999999, 18000000], let s := { launching (launch .waiting) with
       time := time, mods := [(0, { bureau (launch .waiting) with head := some (5, 0) })] }
     (s.module 0).head = some (5, 0) ∧ s.powered 0 = true) :=
  ⟨fun _ => sound rfl rfl, by decide, by decide, by decide, by decide,
    ⟨by decide, by decide, by decide, by decide, by decide, sound rfl rfl⟩, by decide, by decide,
    by decide⟩

/-- A module in recovery with some bytes staged and a command given. -/
def recovering (command : Nat) (bytes : List Byte) : Module :=
  { recovery := true, rcmd := BitVec.ofNat 64 (bytes.length * 2 ^ 32 + command), staging := bytes.zipIdx.map (fun e => (e.2, e.1)) }
/-- An image that is formed: it has the magic number, a body of no bytes, and the size. -/
def formed : List Byte := imageMagic ++ List.replicate 252 0
/-- A record that asks for a reset of this module's log. -/
def resetRecord : List Byte := (resetMagic ++ List.replicate 4 0) ++ (leBytes 8 (Config.serialNumber 0).toNat ++ List.replicate 240 0)

theorem ofBytes_leBytes (n x : Nat) (h : x < 256 ^ n) : ofBytes (leBytes n x) = x := by
  induction n generalizing x with
  | zero => simp at h; simp [leBytes, ofBytes, h]
  | succ n ih =>
    rw [leBytes, ofBytes, ih (x / 256) (by rw [Nat.pow_succ] at h; omega), BitVec.toNat_ofNat]
    omega

theorem serial_in_record (x y : List Byte) (w : Dword) (h : x.length = 8) : wordAt (x ++ (leBytes 8 w.toNat ++ y)) 1 = w := by
  have e : ((x ++ (leBytes 8 w.toNat ++ y)).drop (8 * 1)).take 8 = leBytes 8 w.toNat := by
    rw [Nat.mul_one, List.drop_left' h]
    exact List.take_left' (l₁ := leBytes 8 w.toNat) rfl
  rw [wordAt, e, ofBytes_leBytes 8 _ w.isLt, BitVec.ofNat_toNat, BitVec.setWidth_eq]

theorem get_zipIdx (bs : List Byte) (k i : Nat) :
    Tab.get 0 ((bs.zipIdx k).map (fun e => (e.2, e.1))) (k + i) = bs.getD i 0 := by
  induction bs generalizing k i with
  | nil => simp [Tab.get]
  | cons b bs ih =>
    cases i with
    | zero => simp [Tab.get]
    | succ i =>
      have h := ih (k + 1) i
      rw [Nat.add_right_comm] at h
      simpa [Tab.get, Nat.add_assoc] using h

theorem staged_recovering {c : Nat} {bs : List Byte} (h : field (recovering c bs).rcmd 32 32 = bs.length) (hl : bs.length ≤ 2 ^ 26) :
    (recovering c bs).staged = bs := by
  rw [Module.staged, h, Nat.min_eq_right hl]
  refine List.ext_getElem (by simp) fun i h1 h2 => ?_
  have e := get_zipIdx bs 0 i
  rw [Nat.zero_add] at e
  rw [List.getElem_map, List.getElem_range]
  exact e.trans (by simp [h2])

theorem formed_or_not (b : Bool) (x : Nat) : b = false ∨ b = true ∧ 0 ≤ x := by cases b <;> simp

set_option maxRecDepth 8000 in
theorem witness_ModuleEvents :
    (let m : Module := { image := formed }
     m.strap = false ∧ imageFormed m.image = true ∧ (imageSigned m.image = false ∨ imageSigned m.image = true ∧ m.rollback ≤ imageRollback m.image)) ∧
    (let m := recovering 1 []
     m.recoveryCommand = 1 ∧ imageFormed m.staged = false) ∧
    (let m := recovering 1 formed
     m.recoveryCommand = 1 ∧ m.staged = formed ∧ imageFormed m.staged = true ∧ imageRollback m.staged < { m with rollback := 1 }.rollback ∧
       (imageSigned m.staged = false ∨ imageSigned m.staged = true ∧ m.rollback ≤ imageRollback m.staged)) ∧
    (let m := recovering 2 []
     m.recoveryCommand = 2 ∧ m.staged.length ≠ 256) ∧
    (let m := recovering 2 resetRecord
     m.recoveryCommand = 2 ∧ m.staged = resetRecord ∧ m.staged.length = 256 ∧ m.staged.take 4 = resetMagic ∧
       wordAt m.staged 1 = Config.serialNumber 0) ∧
    (let m : Module := { booted := true, halted := true, haltDone := true, sems := [(0, (true, 0))] }
     m.booted = true ∧ m.recovery = false ∧ m.frozen = false ∧ m.poweredOff = false ∧ m.holdsZero 0 = true ∧ m.holdsZero 1 = false ∧
       m.haltDone = true ∧ (m.ports.get {} 0).up = true) ∧
    (let s := fun (sel : Dword) => { demo with mods := [(0, { booted := true, halted := true, haltDone := true, ctxsel := sel })] }
     (s 0x200).selected 0 = (512, 0, 0) ∧ ((s 0x200).thread 512 0 0).st ≠ .free ∧ (s 0x400200).selected 0 = (512, 0, 1) ∧
       ((s 0x400200).thread 512 0 1).st = .free) ∧
    (let l := launch .resident
     let s := launching l tile
     s.powered 0 = true ∧ (s.module 0).booted = true ∧ Config.nameM 512 = 0 ∧ (s.tile 512).segValid = true ∧ (s.tile 512).gang = .running ∧
       s.launchOf (s.tile 512).asid.toNat = some (0, l) ∧ s.launchesOn 0 = [l] ∧ l ∈ (s.module 0).launches ∧ l.st = .resident ∧ 512 ∈ l.tiles) ∧
    (let l := launch .saved
     let s := launching l
     s.launchesOn 0 = [l] ∧ l.st = .saved ∧ l.resumeAt = none ∧ l.aborting = false ∧ s.launchOf l.asid = some (0, l) ∧ l ∈ (s.module 0).launches ∧
       ∀ t ∈ l.tiles, Config.nameM t = 0) := by
  have hf : (recovering 1 formed).staged = formed := staged_recovering (by decide) (by decide)
  have hr : (recovering 2 resetRecord).staged = resetRecord := staged_recovering (by decide) (by decide)
  refine ⟨⟨rfl, by decide, formed_or_not _ _⟩, by decide, ⟨by decide, hf, hf ▸ by decide, hf ▸ by decide, formed_or_not _ _⟩, by decide,
    ⟨by decide, hr, hr ▸ rfl, hr ▸ rfl, (congrArg (wordAt · 1) hr).trans (serial_in_record _ _ _ rfl)⟩, by decide, by decide, by decide, by decide⟩

/-! ## Debugging, ports and Bookends -/

/-- The small machine with module 0 in some condition. -/
def debugging (m : Module) (th : Thread := thread) (gang : Gang := .running) (time : Nat := 0) : State :=
  { demo th { tile with gang := gang } with mods := [(0, { m with booted := true })], time := time }
/-- The thread HALTED from READY, and the module halted. -/
def haltedThread : Thread := { thread with st := .halted, haltedFrom := .ready }

set_option maxRecDepth 8000 in
theorem witness_DebugAndPortEvents :
    (let s := debugging {}
     let m := s.module 0
     m.booted = true ∧ m.recovery = false ∧ m.frozen = false ∧ m.poweredOff = false ∧ m.halted = false ∧ 0 < s.podSize) ∧
    (let s := debugging { halted := true, haltDone := true } haltedThread .halted
     let m := s.module 0
     let th := s.thread 512 0 0
     m.booted = true ∧ m.halted = true ∧ m.haltDone = true ∧ m.stepping = false ∧ s.findTid 0 0x200001 = some (512, 0, 0) ∧ th.st = .halted ∧ th.haltedFrom = .ready ∧
       th.priv ≠ 2 ∧ (s.tile 512).gang = .halted ∧ ((s.tile 512).core 0).stopped = false) ∧
    (let s := debugging { aps := [(0, BitVec.ofNat 64 (sramAt 512 0))] }
     s.apertureAddr 0 0x40 16 = some (sramAt 512 0x40) ∧ sramAt 512 0x40 % 64 + 16 ≤ 64 ∧ s.apertureAddr 0 (Config.sramBytes - 8) 16 = none ∧
       (List.replicate 16 (0 : Byte)).length = 16) ∧
    (∀ time ∈ [99, 100], let s := debugging { haltAt := some (100, 1) } thread .running time
     (s.module 0).haltAt = some (100, 1) ∧ (s.module 0).halted = false ∧ s.powered 0 = true ∧ 512 ∈ s.tilesOf 0 ∧ (s.tile 512).segValid = true ∧
       (s.tile 512).gang = .running ∧ (s.thread 512 0 0).st ≠ .free ∧ (s.thread 512 0 0).st ≠ .normalise) ∧
    (∀ norm ∈ [[], normalising.myTile.norm], let s := debugging { halted := true } haltedThread .halted
     let s := s.mapTile 512 (fun tl => { tl with norm := norm })
     let m := s.module 0
     m.haltAt = none ∧ m.halted = true ∧ m.stepping = false ∧ m.haltDone = false ∧ s.powered 0 = true ∧ s.haltParked 0 = norm.isEmpty) ∧
    (∀ time ∈ [99, 100], let s := debugging { halted := true, resumeAt := some 100 } haltedThread .halted time
     (s.module 0).resumeAt = some 100 ∧ (s.module 0).halted = true ∧ (s.module 0).stepping = false ∧ s.powered 0 = true ∧ 512 ∈ s.tilesOf 0 ∧
       (s.tile 512).gang = .halted ∧ (s.thread 512 0 0).haltedFrom = .ready ∧ ((s.tile 512).core 0).stopped = false) ∧
    (let s := debugging { halted := true, stepping := true, stepIssued := true, stepTid := some 0x200001 }
     (s.module 0).stepTid = some 0x200001 ∧ (s.module 0).stepping = true ∧ (s.module 0).stepIssued = true ∧
       (List.range s.podSize).findSome? (fun n => s.findTid n 0x200001) = some (512, 0, 0) ∧ (s.thread 512 0 0).stepOver = true) ∧
    (let o : Op := { op (.load ⟨8, false⟩) .remote with origin := .thread 512 0x200001 0 }
     let s := { demo { waitingThread with wait := waitingThread.wait } with hostWait := [o] }
     s.hostWait[0]? = some o ∧ s.unitsRun o.src = true ∧ (s.tile 512).resident o.asid = true ∧ o.path = .remote ∧
       (s.thread 512 0 0).wait.isSome = true ∧ (s.thread 512 0 0).pending = [] ∧ (s.thread 512 0 0).priv ≠ 3 ∧ (s.thread 512 0 0).st ≠ .halted ∧
       (s.thread 512 0 0).awaits 0x200001 0 = true) ∧
    (∀ kind ∈ [OpKind.amo .add 8 1 false, .store 8 1],
     let o : Op := { op kind .posted with origin := .thread 512 0x200001 0, src := 512 }
     let s := { demo { thread with posted := [{ tag := 0, owner := 512, acq := false }] } with hostWait := [o] }
     s.hostWait[0]? = some o ∧ s.unitsRun o.src = true ∧ (s.tile o.src).resident o.asid = true ∧ o.path = .posted ∧
       (s.thread 512 0 0).tid = 0x200001 ∧ (s.thread 512 0 0).st = .ready ∧ (s.thread 512 0 0).denial = none ∧
       ∃ x ∈ (s.thread 512 0 0).posted, x.tag = 0) := by
  refine ⟨by decide, by decide, by decide, by decide, by decide, by decide, by decide, ⟨rfl, by decide, by decide, rfl, rfl, rfl, by decide, by decide, by decide⟩,
    fun kind hk => ?_⟩
  simp only [List.mem_cons, List.not_mem_nil, or_false] at hk
  obtain rfl | rfl := hk <;> exact ⟨rfl, by decide, by decide, rfl, rfl, rfl, rfl, by decide⟩

/-- Bookend 0 of the tile runs; x1 names offset 0x40 of segment 0, x2 its data store, x3 a length. -/
def bookend : Bookend := { mode := 1, x := [(1, 0x40), (2, 0x10000), (3, 16), (4, 1)], bkseg := 0 }
def bookends (b : Bookend := bookend) : State :=
  { State.reset with tiles := [(512, { tile with bookends := [(0, b)] })], curBk := (512, 0) }

set_option maxRecDepth 4000 in
theorem witness_BookendOwnForms :
    (let s := bookends
     s.bookendRuns = true ∧ (s.tile s.curBk.1).scWaiters = [] ∧ s.bkCheck (s.bk.va 1) 4 4 .rd = none ∧ s.bkCheck (s.bk.va 1) 4 4 .w = none ∧
       (s.bkPoint (s.bk.va 1)).owner = some 512 ∧ s.bkCheck (s.bk.va 4) 4 4 .rd = some Cause.misaligned ∧
       s.bkCheck (s.bk.va 4) 4 4 .w = some Cause.misaligned ∧ s.bk.xfers.length < 32 ∧ s.bk.outbox.length < 8 ∧ s.bk.inbox = []) ∧
    (let s := bookends
     let b := s.bk
     let addr := (b.rx 2).toNat
     let len := (b.rx 3).toNat
     let g := (s.tile 512).seg (vaSeg (b.va 1))
     let pool := some ((s.tile 512).poolBase, (s.tile 512).poolSize)
     0 < len ∧ len ≤ 16384 ∧ bkPlace addr len = .data ∧ g.kind = 3 ∧ s.reachable 512 = true ∧ addr % 64 + len ≤ 64 ∧
       g.check pool (vaOff (b.va 1)) len 1 .rd = none ∧ (b.va 1).toNat % 64 + len ≤ 64 ∧ g.check pool (vaOff (b.va 1)) len 1 .w = none ∧
       g.check pool 0x1000 len 1 .rd = some Cause.segBounds ∧ g.check pool 0x1000 len 1 .w = some Cause.segBounds) ∧
    (let s := bookends { bookend with xfers := List.replicate 32 (0, 1, false), outbox := List.replicate 8 0, inbox := [7] }
     s.bookendRuns = true ∧ 32 ≤ s.bk.xfers.length ∧ 8 ≤ s.bk.outbox.length ∧ s.bk.inbox = 7 :: [] ∧ s.bk.rx 0 = 0 ∧ s.bk.rx 4 = 1 ∧ s.bk.rx 3 ≠ 0 ∧
       s.bk.rx 3 ≠ 1 ∧ (s.bk.rx 0).toNat < s.bk.xfers.length ∧ s.bk.xferFault = none) ∧
    (let s := bookends { bookend with xferFault := some (Cause.poison, 5, 0x40) }
     s.bookendRuns = true ∧ s.bk.rx 0 = 0 ∧ s.bk.xferFault = some (Cause.poison, 5, 0x40) ∧ s.bk.xfers.length ≤ (s.bk.rx 4).toNat) := by decide

theorem witness_BookendBaseForms :
    bookends.bookendRuns = true ∧ (bookends.tile bookends.curBk.1).scWaiters = [] ∧ bookends.bk.pc.toNat + 4 ≤ 0x8000 ∧
    (let at_ := bookends.bk.rx 2 + (4 : BitVec 12).signExtend 32
     0x10000 ≤ at_.toNat ∧ at_.toNat + 4 ≤ 0x14000 ∧ at_.toNat % 4 = 0) := by decide

/-! ## The step and the checks that go first -/

/-- The small machine about to take the thread's turn, its page of code holding the halfword lo, and hi, at PC 0x100 of segment 2. -/
def toTurn (th : Thread := thread) (code : List Byte := []) (tl : Tile := tile) : State :=
  { demo { th with pc := 0x400000000100 } tl with
    mem := (code.zipIdx.filter (fun e => e.1 != 0)).map (fun e => (sramAt 512 (0x30100 + e.2), e.1)), agenda := [(1, .turn 512 0 0)] }

/-- The machine as the thread's turn begins at the agenda's time, and what its fetch gives. -/
def moved (s : State) : State := { s with agenda := s.agenda.tail, time := s.time + 1 }
def begun (s : State) : State := ((moved s).takePort (.turn 512 0 0)).beginTurn 512 0 0
def fetched (s : State) : Fetched :=
  let x := (begun s).reclaims.decodeCode
  x.fetch x.here x.me.asid.toNat x.me.scratch x.me.pc
/-- The thread's turn is next, no tick is owed, a port is free and the turn is the thread's. -/
def onTurn (s : State) : Bool :=
  s.agenda == [(1, .turn 512 0 0)] && (s.owed (s.time + 1)).isNone && (moved s).portFree (.turn 512 0 0) &&
  ((moved s).takePort (.turn 512 0 0)).chosen 512 0 == some 0

set_option maxRecDepth 8000 in
theorem witness_StepRunsDecoded :
    (let s := toTurn { thread with wait := some { op := op (.load ⟨8, false⟩) .here, dests := [.g 2] } } [] { tile with
       pipe := { cycle := 1, served := [0] } }
     s.agenda = [(1, .turn 512 0 0)] ∧ s.owed (s.time + 1) = none ∧ (moved s).portFree (.turn 512 0 0) = false) ∧
    (let s := toTurn { thread with st := .sleeping }
     s.owed (s.time + 1) = none ∧ (moved s).portFree (.turn 512 0 0) = true ∧
       ((moved s).takePort (.turn 512 0 0)).chosen 512 0 ≠ some 0) ∧
    (let s := toTurn { thread with wait := some { op := op (.load ⟨8, false⟩) .here, dests := [.g 2] } }
     onTurn s = true ∧ (begun s).me.resumes = true) ∧
    (let s := toTurn thread [0x01, 0x41, 0x0C, 0x00]
     onTurn s = true ∧ (begun s).me.resumes = false ∧ ((begun s).tile 512).errs = [] ∧ fetched s = .bits 0x000C4101 ∧
       (∀ e ∈ (begun s).myTile.accs, e.2.orphaned = false) ∧
       ((begun s).reclaims.tile 512).errs = [] ∧ ∃ u, exec (.add false 1 2 3) (begun s).reclaims.decodeCode = .next u) ∧
    decodeWord 0x000C4101 = .ok (.add false 1 2 3) ∧
    (let s := toTurn
     onTurn s = true ∧ (begun s).me.resumes = false ∧ (begun s).reclaims.decodeCode.me.runs = true ∧ fetched s = .bits 0 ∧
       ∃ e, decodeWord 0 = .error e) ∧
    (let s := toTurn thread [] { tile with segs := [] }
     onTurn s = true ∧ (begun s).me.resumes = false ∧ (begun s).me.runs = true ∧ (begun s).me.priv = 0 ∧ ∃ c va, fetched s = .fault c va) ∧
    (let s := toTurn { thread with priv := 1 } [] { tile with vector := 0x400000000100, segs := [] }
     onTurn s = true ∧ (begun s).me.resumes = false ∧ (begun s).me.runs = true ∧ (begun s).me.priv = 1 ∧
       (begun s).me.pc = (begun s).vectorOf 512 ∧ ∃ c va, fetched s = .fault c va) ∧
    (let s := { toTurn { thread with priv := 3 } [] { tile with segs := [] } with mods := [(0, { firmwareVector := 0x400000000100 })] }
     onTurn s = true ∧ (begun s).me.resumes = false ∧ (begun s).me.runs = true ∧ (begun s).me.priv = 3 ∧
       (begun s).me.pc = (begun s).firmwareOf 512 ∧ ∃ c va, fetched s = .fault c va) ∧
    (let s := toTurn thread [] { tile with tlb := [] }
     onTurn s = true ∧ (begun s).me.resumes = false ∧ ∃ va, fetched s = .miss va) ∧
    (let s := toTurn thread [0x01, 0x41, 0x0C, 0x00]
     let va := codeVA s.me.pc
     let d := (s.tile 512).seg (vaSeg va)
     d.check none (vaOff va) 2 2 .none = none ∧ d.kind = 2 ∧ d.x = true ∧ isFull 0x4101 = true ∧
       s.fetchHalf 512 1 none (s.me.pc + 2) = .bits 0x000C ∧
       ∃ e, (s.tile 512).lookup 1 (vaSeg va) d.psize (vaOff va) false = some e ∧ s.isPoisoned (e.addr 512 (vaOff va)) 2 = false ∧
         s.num (e.addr 512 (vaOff va)) 2 = 0x4101) ∧
    (let s := { bookends { bookend with imem := [(0, 0x8B), (2, 0x01)] } with agenda := [(1, .bookend 512 0)] }
     let s0 : State := { (moved s).takePort (.bookend 512 0) with curBk := (512, 0) }
     s.owed (s.time + 1) = none ∧ (moved s).portFree (.bookend 512 0) = true ∧
       s0.bookendRuns = true ∧ s0.bk.pc.toNat + 4 ≤ 0x8000 ∧ decodeBookend s0.bookendWord = .ok (.bkRd 1 2)) ∧
    (let s := { bookends with agenda := [(1, .bookend 512 0)] }
     let s0 : State := { (moved s).takePort (.bookend 512 0) with curBk := (512, 0) }
     s0.bookendRuns = true ∧ ∃ e, decodeBookend s0.bookendWord = .error e) ∧
    (let s := { bookends { bookend with mode := 0 } with agenda := [(1, .bookend 512 0)] }
     ({ (moved s).takePort (.bookend 512 0) with curBk := (512, 0) } : State).bookendRuns = false) ∧
    (let s := { demo with agenda := [(1, .event (.ageTick 0))] }
     encode (.ageTick 0) = none ∧ firstOf (.event (.ageTick 0)) [] = (.event (.ageTick 0), []) ∧ s.owed (s.time + 1) = none ∧
       (moved s).portFree (.event (.ageTick 0)) = true) ∧
    (let s := { demo with agenda := [(1, .event (.mgSemRead 0 1 5)), (0, .event (.mgSemRead 0 0 5))] }
     s.owed (s.time + 1) = none) ∧
    (let s := { arriving clsREQ .quotaSub with time := 255, agenda := [(2, .turn 512 0 0)] }
     s.owed (s.time + 2) = some 256 ∧ firstOf (.turn 512 0 0) [] = (.turn 512 0 0, [])) := by
  refine ⟨by decide, by decide, by decide, ⟨by decide, by decide, by decide, by decide, by decide, by decide, _, rfl⟩, rfl,
    ⟨by decide, by decide, by decide, by decide, _, rfl⟩, ⟨by decide, by decide, by decide, by decide, _, _, rfl⟩,
    ⟨by decide, by decide, by decide, by decide, by decide, _, _, rfl⟩,
    ⟨by decide, by decide, by decide, by decide, by decide, _, _, rfl⟩, ⟨by decide, by decide, _, rfl⟩,
    ⟨by decide, by decide, by decide, by decide, by decide, _, rfl, by decide, by decide⟩, ⟨by decide, by decide, by decide, by decide, rfl⟩,
    ⟨by decide, _, rfl⟩, by decide, ⟨rfl, rfl, by decide, by decide⟩, by decide, by decide⟩

def awaitedLoad (d : Nat) (acq : Bool := false) : Pending := { tag := d, dests := [.g d], ready := false, writes := [], mem := true, acq := acq }

set_option maxRecDepth 4000 in
theorem witness_ChecksBeforeForms :
    (let th := { thread with pending := [awaitedLoad 2 true], hz := true }
     let s := demo th
     s.me.st = .ready ∧ s.me.walking = false ∧ s.me.wait = none ∧ s.me.pending ≠ [] ∧ s.me.awaited < 16 ∧ (∃ p ∈ s.me.pending, p.acq = true) ∧
       s.me.hz = true ∧ (∀ p ∈ s.me.pending, gd 3 ∉ p.dests) ∧ ∃ p ∈ s.me.pending, gd 2 ∈ p.dests) ∧
    (let s := demo { thread with pending := (List.range 16).map (fun i => awaitedLoad (i + 1)) }
     s.me.st = .ready ∧ 16 ≤ s.me.awaited) ∧
    (∀ cause ∈ [0, Cause.machineCheck], let s := demo { thread with parity := [.g 2], priv := 1, cause := cause }
     s.me.pending = [] ∧ gd 2 ∈ s.me.parity ∧ s.me.priv = 1 ∧ s.me.cause = cause) ∧
    (let s := demo { thread with frm := 5 }
     s.me.pending = [] ∧ 5 ≤ s.me.frm.toNat ∧ gd 1 ∉ s.me.parity ∧ gd 2 ∉ s.me.parity) ∧
    (let s := demo { thread with vregs := 4 }
     s.me.vregs ≤ (4 : BitVec 3).toNat ∧ (1 : BitVec 3).toNat < s.me.vregs) ∧
    (let s := demo thread { tile with slotsReg := 0x84210 }
     s.Clear false [vd 1] [vd 1, vd 2, vd 3, kd 1] (long := true) ∧ s.myTile.laneGroups = [] ∧ s.Clear false [] [] ∧ s.myTile.hasTrestle = false) ∧
    (let co : Core := { slots := [(0, thread)], vq := (List.range 8).map (fun i => { slot := 0, tag := i, cost := 2 }) }
     let s := { demo with tiles := [(512, { tile with cores := [(0, co)] })] }
     s.Clear false [vd 1] [vd 1, vd 2, vd 3, kd 1] (long := true) ∧ s.myTile.laneGroups ≠ [] ∧ 8 ≤ s.myCore.vq.length) := by
  refine ⟨by decide, by decide, by decide, by decide, by decide, ⟨calm_clear (by decide) (by decide), by decide, calm_clear (by decide) (by decide), by decide⟩,
    calm_clear (by decide) (by decide), by decide, by decide⟩

theorem witness_TileRegisters :
    (∀ priv ∈ [(0 : BitVec 2), 1, 3], (demo { thread with priv := priv }).Clear true [gd 1] [] ∧
      (demo { thread with priv := priv }).Clear true [] [gd 1] ∧ (demo { thread with priv := priv }).me.priv = priv) ∧
    (0x200 ∈ countersRW ∧ 0x200 ∉ [0x203, 0x262, 0x264, 0x268] ∧ demo.me.sent = false ∧ classLawful 3 0x8080F = true ∧
      classLawful 3 0 = false) ∧
    ∀ b, (demo { thread with sent := true, switching := b }).Clear true [] [gd 1] ∧
      (demo { thread with sent := true, switching := b }).me.sent = true ∧ (demo { thread with sent := true, switching := b }).me.switching = b := by
  refine ⟨fun priv hp => ?_, by decide, fun b => ⟨?_, rfl, rfl⟩⟩
  · simp only [List.mem_cons, List.not_mem_nil, or_false] at hp
    obtain rfl | rfl | rfl := hp <;> exact ⟨calm_clear (by decide) (by decide), calm_clear (by decide) (by decide), rfl⟩
  · cases b <;> exact calm_clear (by decide) (by decide)

theorem witness_MemoryFormKept : Memory.wf (demo.store (at0 0x40) [1, 0, 2]).mem = true ∧ ∃ t, step (toTurn { thread with st := .sleeping }) = .next t :=
  ⟨by decide, _, rfl⟩

theorem witness_EncodeDecodeAgree : WellFormed (.add false 1 2 3) ∧ encode (.add false 1 2 3) = some 0x000C4101 ∧ WellFormed (.cBp1 true 0x05F) ∧
    encode (.cBp1 true 0x05F) = some 0x8BFE ∧ WellFormed (.bkRd 1 2) ∧ encode (.bkRd 1 2) = some 0x0001008B :=
  ⟨rfl, rfl, rfl, rfl, rfl, rfl⟩

/-! ## The manual's worked encodings and instances -/

/-- 02 R50, R52, 05 R107 to R124, 06 R127: its words of the integer, control and memory families. -/
theorem test_worked_words : [0x7872, 0x149C].map decodeHalf = [.ok (.cAddi false 3 30), .ok (.cCmplt false 4 5)] ∧
    [0x00082301, 0x0680C61D, 0x0320622D, 0x01148231, 0x00018249, 0x00008045, 0x01000059, 0x12344421, 0xFFFC8C51].map decodeFull =
      [.ok (.add false 3 1 2), .ok (.shli false 6 6 13), .ok (.bfxZ false 2 3 8 3), .ok (.cmp false 2 4 5 2), .ok (.bp false 2 12),
       .ok (.call false 0x80), .ok (.exit false), .ok (.lui false 4 0x91A2), .ok (.bz false 12 4 0x3FFF)] ∧
    [0x0058E563, 0xFFD12361, 0x000C446D, 0x00010671, 0x002D0571, 0x00006075, 0x00100775].map decodeFull =
      [.ok (.ld true 5 7 6 2), .ok (.ld false 3 9 4 0x7FE), .ok (.str false 4 2 3 0), .ok (.ldfe false 6 8 0), .ok (.stff false 5 8 1),
       .ok (.migrate false 3 0), .ok (.here false 7)] := ⟨rfl, rfl, rfl⟩

/-- 07 R148 to R164, 08 R171, R179, 09 R185 to R195, 12 R265, 18 R378: its words of the other families. -/
theorem test_worked_words_2 :
    [0x000C4081, 0x281CA685, 0x04882485, 0xD20C4889, 0x01948991, 0x04804395, 0x45804395].map decodeFull =
      [.ok (.ramo false 2 3 0 0 0), .ok (.amo false 6 5 7 0 1 1), .ok (.amo false 4 1 2 9 0 0), .ok (.cas false 8 2 3 4 1 3),
       .ok (.barArrw false 9 4 5), .ok (.hbarCmb false 3 2 1 0), .ok (.hbarCmb false 3 2 3 2)] ∧
    [0x000823A1, 0xE99CC5A1, 0x050047A1, 0x221464AD, 0x01022BB1, 0x010580B5, 0x110222B9, 0x1900A0C1, 0x0CA061C5, 0x000882CD, 0x210443CD,
     0x2000C1D1, 0x806480F9].map decodeFull =
      [.ok (.fadd false 3 1 2 0 0), .ok (.fdiv false 5 6 7 1 7), .ok (.fclass false 7 2 0), .ok (.fcvt false 4 3 5 8 0 1), .ok (.vadd false 3 1 1 2 2),
       .ok (.vfma false 0 0 4 5 2), .ok (.vcmp false 2 0 1 2 2 2), .ok (.vrmaxabs false 0 0 5 2), .ok (.vquant false 1 0 3 0 1 9),
       .ok (.vld false 2 0 4 2), .ok (.vgth false 3 0 2 1 2), .ok (.kmovGk false 1 6), .ok (.sysw false 4 0x403)] ∧
    [0x0005850B, 0x60B5228B].map decodeBookend = [.ok (.bkRd 10 11), .ok (.bkGet 5 10 11 12)] := ⟨rfl, rfl, rfl⟩

/-- The small machine's thread with registers set, after one instruction; and what its one pending result will write. -/
def after (g : Tab Dword) (i : Instr) : Thread := (next (exec i (demo { thread with g := g }))).me
def pends (g : Tab Dword) (i : Instr) : List RegWrite × BitVec 5 :=
  match (after g i).pending with
  | [p] => (p.writes, p.flags)
  | _ => ([], 31)
def toG (r : Nat) (x : Nat) : RegWrite := .to (.g r) (BitVec.ofNat 512 x)

/-- 05 R107: g1 = 0xFFFF_FFFF_8000_0000 and g2 = 4. -/
theorem test_shift_words : let g := [(1, (0xFFFFFFFF80000000 : Dword)), (2, 4)]
    (after g (.shrW false 3 1 2)).rg 3 = 0x08000000 ∧ (after g (.sraW false 3 1 2)).rg 3 = 0xFFFFFFFFF8000000 := by decide

set_option exponentiation.threshold 600 in
set_option maxRecDepth 8000 in
/-- 05 R108, R109: -7 by 2, 7 by 0 and -1 by 2. -/
theorem test_division : let g := [(1, (-7 : Dword)), (2, 2), (3, 7), (5, -1)]
    pends g (.divS false 4 1 2) = ([toG 4 0xFFFFFFFFFFFFFFFD], 0) ∧ pends g (.remS false 4 1 2) = ([toG 4 0xFFFFFFFFFFFFFFFF], 0) ∧
    pends g (.divZ false 4 3 0) = ([toG 4 0xFFFFFFFFFFFFFFFF], 0) ∧ pends g (.remZ false 4 3 0) = ([toG 4 7], 0) ∧
    pends g (.mulhSz false 4 5 2) = ([toG 4 0xFFFFFFFFFFFFFFFF], 0) := ⟨rfl, rfl, rfl, rfl, rfl⟩

/-- 05 R113: LUI g4, -0x40000, then LIH g4, 0; and AUIPC g5, 0 in segment 2. -/
theorem test_constants : (after [] (.lui false 4 0x40000)).rg 4 = 0xFFFFFFFF80000000 ∧
    (after [(4, 0xFFFFFFFF80000000)] (.lih false 4 0)).rg 4 = 0x80000000 ∧
    (next (exec (.auipc false 5 0) (demo { thread with pc := 0x400000001A30 }))).me.rg 5 = 0x4000000000001A30 := by decide

/-- 05 R114: bits 11 to 8 of 0xABCD. -/
theorem test_bit_fields : let g := [(3, (0xABCD : Dword))]
    (after g (.bfxZ false 2 3 8 3)).rg 2 = 11 ∧ (after g (.bfxS false 2 3 8 3)).rg 2 = -5 := by decide

/-- 05 R121, R122: the fourth CALL of a run traps, with the oldest entry as its value; a RET of an empty store with a count traps. -/
theorem test_return_store :
    (let th : Thread := { thread with pc := 0x40000000040C, ldepth := 3, links := [(0, 0x400000000104), (1, 0x400000000214), (2, 0x40000000031C)] }
     let u := (next (exec (.call false 0x100) (demo th))).me
     u.cause = Cause.linkOverflow ∧ u.epc = 0x40000000040C ∧ u.ldepth = 2 ∧ u.links.get 0 0 = 0x400000000214 ∧ u.links.get 0 1 = 0x40000000031C) ∧
    (next (exec (.ret false) (demo { thread with linkcnt := 1 }))).me.cause = Cause.linkUnderflow := by decide

/-- 05 R126: SLEEP of 1,800 cycles at 0x1_0000_0000. -/
theorem test_sleep : let u := (next (exec (.sleep false 3) { demo { thread with g := [(3, 1800)] } with time := 0x100000000 })).me
    u.ava = 0x100000708 ∧ u.st = .sleeping := by decide

/-- 01 R33: 0x2000_0000_0001_2345 in a segment of 4 KiB granules over 4 by 2 tiles from (0, 8, 16). -/
theorem test_distribution : let d : Segment := { kind := 1, g := 12, lw := 2, lh := 1, limit := 2 ^ 20, origin := Config.tileName 0 8 16 }
    d.owner 0 0x12345 = some (Config.tileName 0 10 16) ∧ d.localOffset none 0x12345 = 0x2345 ∧
    d.owner 0 0x13000 = some (Config.tileName 0 11 16) ∧ d.localOffset none 0x13000 = 0x2000 := by decide

/-- 07 R150: FADD of 1 and 2^-24 in FP32 is a tie and stays 1. -/
theorem test_atomic_float : let s := { (demo { thread with g := [(1, 0x40), (2, 0x33800000)] }) with mem := [(at0 0x42, 0x80), (at0 0x43, 0x3F)] }
    (next (exec (.amo false 4 1 2 9 0 0) s)).dword (at0 0x40) = 0x3F800000 := rfl

/-- 07 R160 to R163: steps 3 and 4 of the run, a stale arrival and one beyond EXPECTED. -/
theorem test_barrier :
    (let s := (demo { thread with g := [(1, 0x40), (2, 0x140001)] }).setDword (at0 0x40) 0x0F0500030004
     (next (exec (.barArr false 3 1 2) s)).dword (at0 0x40) = 0x0F1500030004) ∧
    (let s := (demo { thread with g := [(1, 0x40), (2, 3)] }).setDword (at0 0x40) 0x0F1500030004
     (next (exec (.barArr false 3 1 2) s)).dword (at0 0x40) = 0x0F1600000004) := ⟨rfl, rfl⟩

set_option exponentiation.threshold 600 in
set_option maxRecDepth 8000 in
/-- 08 R172, R174: 1 - 1 under RDN and RNE; -3 by +0; FABS of -6.5 in FP16. -/
theorem test_scalar_float : let g := [(1, (0x3FF0000000000000 : Dword)), (2, 0xC0400000), (3, 0xC680)]
    pends g (.fsub false 4 1 1 0 2) = ([toG 4 0x8000000000000000], 0) ∧ pends g (.fsub false 4 1 1 0 0) = ([toG 4 0], 0) ∧
    pends g (.fdiv false 4 2 0 1 0) = ([toG 4 0xFF800000], 8) ∧ pends g (.fsgnjx false 4 3 3 2) = ([toG 4 0x4680], 0) := ⟨rfl, rfl, rfl, rfl⟩

set_option exponentiation.threshold 600 in
set_option maxRecDepth 8000 in
/-- 08 R179, 04 R97: -5 as n32 and 2^64 - 1 as i32; -2.5 in FP64 as i32 under RNE and RDN, inexact. -/
theorem test_conversions : let g := [(1, (-5 : Dword)), (2, -1), (3, 0xC004000000000000)]
    pends g (.fcvt false 4 1 0 3 0 0) = ([toG 4 0], 0) ∧ pends g (.fcvt false 4 2 1 2 0 0) = ([toG 4 0x7FFFFFFF], 0) ∧
    pends g (.fcvt false 4 3 4 2 0 0) = ([toG 4 0xFFFFFFFFFFFFFFFE], 1) ∧ pends g (.fcvt false 4 3 4 2 2 0) = ([toG 4 0xFFFFFFFFFFFFFFFD], 1) :=
  ⟨rfl, rfl, rfl, rfl⟩

/-- 12 R252: the run of two copies into a word of TARGET 4,096 and GEN 7. -/
theorem test_arrival_word : arriveWords 0x1000 7 4096 false = (0x1000, 8, true) ∧ arriveWords 0x1000 8 6144 false = (0x0000080000001000, 9, true) ∧
    arriveWords 32 7 64 false = (32, 0x10009, true) := by decide

/-- What the one pending vector result will write, with its flags. -/
def pendsV (th : Thread) (i : Instr) : List RegWrite × BitVec 5 :=
  match (next (exec i (demo th))).me.pending with
  | [p] => (p.writes, p.flags)
  | _ => ([], 31)

set_option exponentiation.threshold 600 in
set_option maxRecDepth 8000 in
/-- 09 R189: VIOTA.I32 under lanes 1, 2, 4 and 7 counts them. -/
theorem test_viota : pendsV { thread with k1 := 0x0096 } (.viota false 2 1 0) =
    ([.to (.v 2) (BitVec.ofNat 512 (1 * 2 ^ 64 + 2 * 2 ^ 128 + 3 * 2 ^ 224))], 0) := rfl

set_option exponentiation.threshold 600 in
set_option maxRecDepth 8000 in
/-- 09 R191: VQUANT.E4M3.RNE.SAT of 3.5, 1.3 and -0.01 by 128.0 gives the bytes 7E 72 BA in each quarter, and inexact. -/
theorem test_vquant : pendsV { thread with g := [(3, 0x43000000)], vlive := 2, v := [(1, 0xBC23D70A3FA6666640600000)] } (.vquant false 1 0 3 0 1 9) =
    ([.to (.v 1) (BitVec.ofNat 512 (0xBA727E * (1 + 2 ^ 128 + 2 ^ 256 + 2 ^ 384)))], 1) := rfl

/-! ## A step from reset -/

/-- The machine after one step from reset with a word placed (log 11). -/
def booted (w : Nat) : State := next (step (State.reset.withFetchWord 32 w))

/-- 05 R107, R111, 02 R61: ADDI g1, g0, 5 writes 5 and goes past its word; C.LI g3, -2 past its halfword; the zero halfword traps ILLEGAL. -/
theorem test_step : (booted 0x0014010D).me.rg 1 = 5 ∧ (booted 0x0014010D).me.pc = 0x400000000004 ∧
    (next (step (State.reset.withFetchWord 16 0x7874))).me.rg 3 = -2 ∧ (next (step (State.reset.withFetchWord 16 0x7874))).me.pc = 0x400000000002 ∧
    (next (step (State.reset.withFetchWord 16 0))).me.cause = Cause.illegal := by decide

/-- 12 R265: a Bookend's word runs at its Bookend: BK.WAIT x1, x0, x0 with nothing outstanding writes 0 and goes on. -/
theorem test_step_bookend : (booted 0x0000408B).bk.pc = 4 := by decide

/-- 18 R388, case A: a BULK turn that begins with CREDIT 0 at weight 15 sends two-flit pieces at credits 15, 13, 11, 9, 7, 5, 3 and 1. -/
def bulkTurn (n : Nat) : Arbiter :=
  (List.range n).foldl (fun a _ => (a.choose (fun _ => 15) [({ packet clsBULK .quotaSub with len := 2 }, 0)]).1) {}
theorem test_arbiter_turn : (bulkTurn 1).credit.get 0 4 = 13 ∧ (bulkTurn 7).credit.get 0 4 = 1 ∧ (bulkTurn 7).ptr = 4 ∧
    (bulkTurn 8).credit.get 0 4 = -1 ∧ (bulkTurn 8).ptr = 5 := by decide

end Sys2Proof.Tests
end

namespace Sys2Proof.Machine.NumberFormats

/-! ## Scalar floating point (08 R169 to R179) -/

/-- A request enters the queue of the executing thread's tile for its normaliser (04 R99). -/
def queueRequest (s : State) (q : NormReq) : State := s.mapTile s.here (fun tl => { tl with norm := q.queue tl.norm })

@[simp] theorem me_queueRequest (s : State) (q : NormReq) : (queueRequest s q).me = s.me := by
  simp only [queueRequest, State.me, State.thread, State.mapTile_cur, State.here_eq, State.tile_mapTile_same]
  rfl

theorem sameMemory_queueRequest (s : State) (n : Nat) (th : Thread) (q : NormReq) : s.SameMemory (queueRequest (s.retire n th) q) := by
  constructor <;> rfl

/-- What a scalar form leaves where it needs no normaliser: its rounded result pends with its flags (04 R95, R98). -/
def pendsResult (s : State) (d : BitVec 5) (o : FOut) : Out :=
  .next (s.retire 4 (s.me.pends true [gd d] [toG d (BitVec.ofNat 64 o.bits)] o.flags))

/-- What it leaves where it needs the normaliser: the thread waits and its result stands in the queue (04 R98, R99). -/
def normalisedState (s : State) (d : BitVec 5) (o : FOut) : State :=
  queueRequest (s.retire 4 { s.me with st := .normalise })
    { core := s.cur.2.1, slot := s.cur.2.2, at_ := s.time, result :=
      { tag := 0, dests := live [gd d], ready := true, writes := [toG d (BitVec.ofNat 64 o.bits)], flags := o.flags } }

theorem floatForm_clear {s : State} {i : Instr} {m : Bool} {d : BitVec 5} {src : List Dest} {r : BitVec 3}
    (h : s.Clear m [gd d] src (long := true) (dyn := r == 7)) (hi : i.size = 4) (uses : Bool) (sub : Thread → Bool)
    (op : Nat → Thread → FOut) :
    floatForm i m d src r uses sub op s =
      let o := op (roundingMode r s.me.frm) s.me
      if uses = true ∧ (sub s.me = true ∨ o.tiny = true) then .next (normalisedState s d o) else pendsResult s d o := by
  unfold floatForm
  rw [issue_clear (f := { i := i, m := m, dst := [gd d], src := src, long := true, dyn := r == 7 }) h]
  simp only [floatResult, Thread.nextPc, hi, Bool.and_eq_true, Bool.or_eq_true]
  rfl

/-- What a form that rounds leaves: the normaliser is asked where a source or the result is subnormal (04 R98). -/
def roundedResult (s : State) (d : BitVec 5) (sub : Bool) (o : FOut) : Out :=
  if sub = true ∨ o.tiny = true then .next (normalisedState s d o) else pendsResult s d o

section
variable {s : State} {m : Bool} {d a b c : BitVec 5} {f : BitVec 2} {r : BitVec 3}

theorem floatForm_rounds {i : Instr} {src : List Dest} (h : s.Clear m [gd d] src (long := true) (dyn := r == 7)) (hi : i.size = 4)
    (sub : Thread → Bool) (op : Nat → Thread → FOut) :
    floatForm i m d src r true sub op s = roundedResult s d (sub s.me) (op (roundingMode r s.me.frm) s.me) := by
  simp only [floatForm_clear h hi, true_and, roundedResult]

/-- A form that does not use the normaliser leaves its result at once. -/
theorem floatForm_picks {i : Instr} {src : List Dest} (h : s.Clear m [gd d] src (long := true)) (hi : i.size = 4)
    (sub : Thread → Bool) (op : Nat → Thread → FOut) :
    floatForm i m d src 0 false sub op s = pendsResult s d (op 0 s.me) := by
  rw [floatForm_clear h hi, if_neg (fun hn => Bool.false_ne_true hn.1)]
  rfl

theorem floatBinary_clear {i : Instr} (h : s.Clear m [gd d] [gd a, gd b] (long := true) (dyn := r == 7)) (hi : i.size = 4)
    (op : Fmt → Nat → Nat → Nat → FOut) :
    floatBinary i m d a b f r op s =
      roundedResult s d ((scalarFmt f).subnormal (s.me.rg a).toNat || (scalarFmt f).subnormal (s.me.rg b).toNat)
        (op (scalarFmt f) (roundingMode r s.me.frm) (s.me.rg a).toNat (s.me.rg b).toNat) := by
  rw [floatBinary, floatForm_rounds h hi]

theorem floatPick_clear {i : Instr} (h : s.Clear m [gd d] [gd a, gd b] (long := true)) (hi : i.size = 4)
    (op : Fmt → Nat → Nat → FOut) :
    floatPick i m d a b f op s = pendsResult s d (op (scalarFmt f) (s.me.rg a).toNat (s.me.rg b).toNat) := by
  rw [floatPick, floatForm_picks h hi]

theorem floatFused_clear {i : Instr} (h : s.Clear m [gd d] [gd a, gd b, gd c] (long := true) (dyn := true)) (hi : i.size = 4)
    (np na : Bool) :
    floatFused i m d a b c f np na s =
      roundedResult s d ((scalarFmt f).subnormal (s.me.rg a).toNat || (scalarFmt f).subnormal (s.me.rg b).toNat ||
          (scalarFmt f).subnormal (s.me.rg c).toNat)
        ((scalarFmt f).fma s.me.frm.toNat np na (s.me.rg a).toNat (s.me.rg b).toNat (s.me.rg c).toNat) := by
  rw [floatFused, floatForm_rounds h hi]
  rfl

end

/-- 08 R170: the codes of the formats. -/
theorem eq_scalarFmt {f : BitVec 2} {fm : Fmt} (hf : (f.toNat, fm) ∈ [(0, f64), (1, f32), (2, f16), (3, bf16)]) :
    fm = scalarFmt f := by
  have codes : ∀ f : BitVec 2, ∀ e ∈ [(0, f64), (1, f32), (2, f16), (3, bf16)], f.toNat = e.1 → e.2 = scalarFmt f := by decide
  exact codes f _ hf rfl

/-- 08 R174: a sign injection puts the chosen sign bit, said as a number, above the first operand's magnitude. -/
theorem floatPick_signInject {s : State} {i : Instr} {m : Bool} {d a b : BitVec 5} {f : BitVec 2}
    (h : s.Clear m [gd d] [gd a, gd b] (long := true)) (hi : i.size = 4) {sign : Bool → Bool → Bool} {bit : Nat → Nat → Nat}
    (hbit : ∀ p < 2, ∀ q < 2, bit p q = (sign (p == 1) (q == 1)).toNat) :
    floatPick i m d a b f (signInject sign) s = pendsResult s d
      { bits := bit ((s.me.rg a).toNat / (scalarFmt f).signBit % 2) ((s.me.rg b).toNat / (scalarFmt f).signBit % 2) *
          (scalarFmt f).signBit + (s.me.rg a).toNat % (scalarFmt f).signBit } := by
  rw [floatPick_clear h hi, hbit _ (Nat.mod_lt _ Nat.two_pos) _ (Nat.mod_lt _ Nat.two_pos), signInject, Fmt.signed]
  generalize sign _ _ = neg
  cases neg with
  | false => rw [if_neg Bool.false_ne_true, Bool.toNat_false, Nat.zero_mul, Nat.zero_add]
  | true => rw [if_pos rfl, Bool.toNat_true, Nat.one_mul, Nat.add_comm]

/-! ## Conversions (08 R178, R179) -/

/-- Whether a conversion uses the normaliser: one between integer types never does. -/
def convertsFloat (src dst : NumTy) : Bool :=
  match src, dst with
  | .int _ _, .int _ _ => false
  | _, _ => true

/-- Whether a conversion's source is subnormal. -/
def subnormalOf (t : NumTy) (x : Nat) : Bool :=
  match t with
  | .flt f => f.subnormal x
  | .int _ _ => false

/-- The types of codes 0 to 3 are the integer ones (08 R170). -/
theorem convertsFloat_scalarTy (f o : BitVec 4) :
    convertsFloat (scalarTy f.toNat) (scalarTy o.toNat) = true ↔ 4 ≤ f.toNat ∨ 4 ≤ o.toNat := by
  revert f o; decide

theorem execFcvt_eq_floatForm (m : Bool) (d a : BitVec 5) (f o : BitVec 4) (r : BitVec 3) (u : BitVec 1) (s : State) :
    execFcvt m d a f o r u s =
      floatForm (.fcvt m d a f o r u) m d [gd a] r (convertsFloat (scalarTy f.toNat) (scalarTy o.toNat))
        (fun th => subnormalOf (scalarTy f.toNat) (th.rg a).toNat)
        (fun rm th =>
          let res := convert (scalarTy f.toNat) (scalarTy o.toNat) rm (u == 1) (th.rg a).toNat
          { res with bits := conversionResult (scalarTy o.toNat) res.bits }) s := rfl

theorem intValue_eq_toInt (w x : Nat) (hw : 0 < w) : intValue true w x = (BitVec.ofNat w x).toInt := by
  have hpow : 2 ^ w = 2 * 2 ^ (w - 1) := by rw [← Nat.pow_succ', Nat.succ_eq_add_one, Nat.sub_add_cancel hw]
  unfold intValue
  simp only [BitVec.toInt_eq_toNat_cond, BitVec.toNat_ofNat, Bool.true_and, decide_eq_true_eq]
  simp only [Int.natCast_emod, Int.natCast_pow, Int.cast_ofNat_Int]
  by_cases hneg : 2 ^ (w - 1) ≤ x % 2 ^ w
  · rw [if_pos hneg, if_neg (by omega)]
  · rw [if_neg hneg, if_pos (by omega)]

/-- 04 R87, R92: a signed integer of `w` bits in a register is sign-extended. -/
theorem conversionResult_signed (w x : Nat) (hw : 0 < w) :
    BitVec.ofNat 64 (conversionResult (.int true w) x) = (BitVec.ofNat w x).signExtend 64 := by
  rw [conversionResult, intValue_eq_toInt w x hw, intBits, BitVec.signExtend]
  refine BitVec.eq_of_toNat_eq ?_
  rw [BitVec.toNat_ofNat, BitVec.toNat_ofInt]
  omega

/-- Whether a type is a signed integer one. -/
def signedInt (t : NumTy) : Bool :=
  match t with
  | .int g _ => g
  | .flt _ => false

theorem signedInt_scalarTy (o : BitVec 4) : signedInt (scalarTy o.toNat) = decide (o = 0 ∨ o = 2) := by
  revert o; decide

theorem conversionResult_other {t : NumTy} (ht : signedInt t = false) (x : Nat) : conversionResult t x = x := by
  cases t with
  | int g w => cases g with
    | false => rfl
    | true => cases ht
  | flt f => rfl

/-- The register a conversion to the type of each code leaves. -/
theorem conversionResult_scalarTy (o : BitVec 4) (x : Nat) :
    BitVec.ofNat 64 (conversionResult (scalarTy o.toNat) x) =
      if o = 0 then BitVec.ofNat 64 x else if o = 2 then (BitVec.ofNat 32 x).signExtend 64 else BitVec.ofNat 64 x := by
  by_cases h0 : o = 0
  · subst o
    exact (conversionResult_signed 64 x (by decide)).trans (BitVec.signExtend_eq _)
  by_cases h2 : o = 2
  · subst o
    exact conversionResult_signed 32 x (by decide)
  rw [if_neg h0, if_neg h2, conversionResult_other ((signedInt_scalarTy o).trans (decide_eq_false (not_or.2 ⟨h0, h2⟩)))]

/-- What a conversion leaves: the normaliser is asked where a format and a subnormal number take part (04 R97, R98). -/
theorem execFcvt_clear {s : State} {m : Bool} {d a : BitVec 5} {f o : BitVec 4} {r : BitVec 3} {u : BitVec 1}
    (h : s.Clear m [gd d] [gd a] (long := true) (dyn := r == 7)) :
    execFcvt m d a f o r u s =
      let res := convert (scalarTy f.toNat) (scalarTy o.toNat) (roundingMode r s.me.frm) (u == 1) (s.me.rg a).toNat
      let out : FOut := { res with bits := conversionResult (scalarTy o.toNat) res.bits }
      if (4 ≤ f.toNat ∨ 4 ≤ o.toNat) ∧ (subnormalOf (scalarTy f.toNat) (s.me.rg a).toNat = true ∨ res.tiny = true)
      then .next (normalisedState s d out) else pendsResult s d out := by
  rw [execFcvt_eq_floatForm, floatForm_clear h rfl]
  simp only [convertsFloat_scalarTy]

/-- Settles O24: each form is one of the cases of `floatForm_clear`, whose result is the model's own operation on the encodings read. -/
theorem scalarFloatForms : Obligations.ScalarFloatForms := by
  unfold Obligations.ScalarFloatForms
  refine ⟨fun s m d a b c f r fm hf => ?_, fun s m q d a b code f from_ into r u fm hf => ?_⟩
  · obtain rfl := eq_scalarFmt hf
    refine ⟨fun h => ⟨?_, ?_, ?_, ?_⟩, fun h => ?_, fun h => ⟨?_, ?_, ?_, ?_, ?_⟩, fun h => ?_, fun h => ⟨?_, ?_, ?_, ?_⟩⟩
    · rw [exec_fadd]; exact floatBinary_clear h rfl _
    · rw [exec_fsub]; exact floatBinary_clear h rfl _
    · rw [exec_fmul]; exact floatBinary_clear h rfl _
    · rw [exec_fdiv]; exact floatBinary_clear h rfl _
    · rw [exec_fsqrt, execFsqrt, floatForm_rounds h rfl]; rfl
    · rw [exec_fmin]; exact floatPick_clear h rfl _
    · rw [exec_fmax]; exact floatPick_clear h rfl _
    · rw [exec_fsgnj]; exact floatPick_signInject (bit := fun _ q => q) h rfl (by decide)
    · rw [exec_fsgnjn]; exact floatPick_signInject (bit := fun _ q => 1 - q) h rfl (by decide)
    · rw [exec_fsgnjx]; exact floatPick_signInject (bit := fun p q => (p + q) % 2) h rfl (by decide)
    · rw [exec_fclass, execFclass, floatForm_picks h rfl]; rfl
    · rw [exec_fma]; exact floatFused_clear h rfl _ _
    · rw [exec_fms]; exact floatFused_clear h rfl _ _
    · rw [exec_fnma]; exact floatFused_clear h rfl _ _
    · rw [exec_fnms]; exact floatFused_clear h rfl _ _
  · refine ⟨fun h => ?_, fun h => ?_⟩
    · obtain rfl := eq_scalarFmt hf
      rw [exec_fcmp, execFcmp, long_clear (f := { i := _, m := m, dst := [pd q], src := [gd a, gd b], long := true }) h]
      rfl
    · rw [exec_fcvt, execFcvt_clear h]
      refine ⟨fun hn => (if_neg hn).trans ?_, fun hn => ⟨_, if_pos hn, ?_⟩⟩
      · rw [pendsResult, conversionResult_scalarTy]
        rfl
      · simp only [normalisedState, me_queueRequest, State.me_retire]
        exact ⟨trivial, rfl, trivial, sameMemory_queueRequest ..⟩

/-! ## Elements of a vector (09 R180, R181) -/

theorem packElems_digit (w : Nat) (l : List Nat) (j : Nat) (hj : j < l.length) :
    packElems w l / 2 ^ (w * j) % 2 ^ w = l[j] % 2 ^ w := by
  induction l generalizing j with
  | nil => cases hj
  | cons x xs ih =>
    cases j with
    | zero =>
      rw [Nat.mul_zero, Nat.pow_zero, Nat.div_one, packElems, Nat.add_mul_mod_self_left, Nat.mod_mod]
      rfl
    | succ j =>
      have hlow : (x % 2 ^ w + 2 ^ w * packElems w xs) / 2 ^ w = packElems w xs := by
        rw [Nat.add_mul_div_left _ _ (Nat.two_pow_pos w), Nat.div_eq_of_lt (Nat.mod_lt _ (Nat.two_pow_pos w)), Nat.zero_add]
      rw [packElems, Nat.mul_succ, Nat.add_comm (w * j), Nat.pow_add, ← Nat.div_div_eq_div_mul, hlow]
      exact ih j (Nat.lt_of_succ_lt_succ hj)

theorem packElems_lt (w : Nat) (l : List Nat) : packElems w l < 2 ^ (w * l.length) := by
  induction l with
  | nil => exact Nat.one_pos
  | cons x xs ih =>
    rw [packElems, List.length_cons, Nat.mul_succ, Nat.add_comm _ w, Nat.pow_add]
    calc x % 2 ^ w + 2 ^ w * packElems w xs
        < 2 ^ w + 2 ^ w * packElems w xs := Nat.add_lt_add_right (Nat.mod_lt _ (Nat.two_pow_pos w)) _
      _ = 2 ^ w * (packElems w xs + 1) := by rw [Nat.mul_succ, Nat.add_comm]
      _ ≤ 2 ^ w * 2 ^ (w * xs.length) := Nat.mul_le_mul_left _ ih

theorem elem_packElems (w : Nat) (l : List Nat) (hl : w * l.length ≤ 512) (j : Nat) (hj : j < l.length) :
    elem w (BitVec.ofNat 512 (packElems w l)) j = l[j] % 2 ^ w := by
  have hfits := Nat.lt_of_lt_of_le (packElems_lt w l) (Nat.pow_le_pow_right Nat.two_pos hl)
  rw [elem, BitVec.toNat_ofNat, Nat.mod_eq_of_lt hfits, packElems_digit w l j hj]

/-- 09 R181: an active element is computed, and another keeps its value. -/
theorem elem_lanewise (w : Nat) (mask : BitVec 16) (old : Line) (f : Nat → FOut) (j : Nat) (hj : j < 512 / w) :
    elem w (lanewise w mask old f).1 j = if active mask w j then (f j).bits % 2 ^ w else elem w old j := by
  rw [lanewise, elem_packElems w _ (by
    rw [List.length_map, List.length_map, List.length_range]; exact Nat.mul_div_le 512 w) j (by
    rw [List.length_map, List.length_map, List.length_range]; exact hj)]
  simp only [List.getElem_map, List.getElem_range]
  split
  · rfl
  · exact Nat.mod_mod _ _

theorem getLsbD_foldl_flags (rs : List FOut) (a : Flags) (n : Nat) :
    (rs.foldl (fun a r => a ||| r.flags) a).getLsbD n = true ↔ a.getLsbD n = true ∨ ∃ r ∈ rs, r.flags.getLsbD n = true := by
  induction rs generalizing a with
  | nil => simp only [List.foldl_nil, List.not_mem_nil, false_and, exists_false, or_false]
  | cons r rs ih =>
    simp only [List.foldl_cons, ih, BitVec.getLsbD_or, Bool.or_eq_true, List.mem_cons, or_and_right, exists_or, exists_eq_left, or_assoc]

theorem getLsbD_noFlags (n : Nat) : (0 : Flags).getLsbD n ≠ true := fun h =>
  Bool.false_ne_true (BitVec.getLsbD_zero.symm.trans h)

/-- 04 R96: the flags are those that some active element raises. -/
theorem getLsbD_lanewise_flags (w : Nat) (mask : BitVec 16) (old : Line) (f : Nat → FOut) (n : Nat) :
    (lanewise w mask old f).2.getLsbD n = true ↔ ∃ j < 512 / w, active mask w j = true ∧ (f j).flags.getLsbD n = true := by
  rw [lanewise, getLsbD_foldl_flags]
  constructor
  · rintro (hnone | ⟨r, hr, hflag⟩)
    · exact absurd hnone (getLsbD_noFlags n)
    · obtain ⟨j, hj, rfl⟩ := List.mem_map.1 hr
      by_cases ha : active mask w j = true
      · rw [if_pos ha] at hflag
        exact ⟨j, List.mem_range.1 hj, ha, hflag⟩
      · rw [if_neg ha] at hflag
        exact absurd hflag (getLsbD_noFlags n)
  · rintro ⟨j, hj, ha, hflag⟩
    exact .inr ⟨f j, List.mem_map.2 ⟨j, List.mem_range.2 hj, if_pos ha⟩, hflag⟩

/-! ## Vector forms (09 R183 to R186) -/

section
variable {s : State} {m : Bool} {d a b : BitVec 3} {k : BitVec 2} {t : BitVec 4}

/-- A form that passes its checks, where its registers are allowed, a lane group is left and the queue has room, enters the queue and its
result pends (09 R183). -/
theorem vectorForm_clear {f : Form} (h : s.Clear f.m f.dst f.src f.long f.mem f.waits f.dyn) (hi : f.i.size = 4) {vs : List (BitVec 3)}
    (hv : ∀ v ∈ vs, v.toNat < s.me.vregs) (hg : s.myTile.laneGroups ≠ []) (hq : s.myCore.vq.length < 8) (cost : Nat)
    (res : Thread → List RegWrite × Flags) :
    vectorForm f vs cost s res =
      .next ((s.retire 4 (s.me.pends false f.dst (res s.me).1 (res s.me).2)).enqueue s.me.tags cost) := by
  have hv' : vs.any (fun v => decide (s.me.vregs ≤ v.toNat)) = false :=
    List.any_eq_false.2 fun v hm => by rw [decide_eq_true_eq]; exact Nat.not_le.2 (hv v hm)
  have hg' : s.myTile.laneGroups.isEmpty = false := List.isEmpty_eq_false_iff.2 hg
  rw [vectorForm, groupIssue, vectorIssue, issue_clear h]
  simp only [hv', hg', Bool.false_eq_true, if_false, if_neg (Nat.not_le.2 hq), Thread.nextPc, hi]
  rfl

/-- The outcome of an element-wise form on elements of width w: `f` of the two sources' elements and the destination's in each active
element, with the flags it raises there (09 R181, 04 R96). -/
def Computes (s : State) (d a b : BitVec 3) (k : BitVec 2) (w : Nat) (out : Out) (f : Nat → Nat → Nat → FOut) : Prop :=
  ∃ (r : Line) (fl : BitVec 5),
    out = .next ((s.retire 4 (s.me.pends false [vd d] [toV d r] fl)).enqueue s.me.tags 1) ∧
    (∀ j < 512 / w, elem w r j = if active (s.me.rk k.toNat) w j
      then (f (elem w (s.me.rv a.toNat) j) (elem w (s.me.rv b.toNat) j) (elem w (s.me.rv d.toNat) j)).bits % 2 ^ w
      else elem w (s.me.rv d.toNat) j) ∧
    ∀ n < 5, fl.getLsbD n = true ↔ ∃ j < 512 / w, active (s.me.rk k.toNat) w j = true ∧
      (f (elem w (s.me.rv a.toNat) j) (elem w (s.me.rv b.toNat) j) (elem w (s.me.rv d.toNat) j)).flags.getLsbD n = true

variable {i : Instr} (hi : i.size = 4) (hg : s.myTile.laneGroups ≠ []) (hq : s.myCore.vq.length < 8)
include hi hg hq

theorem vvv_computes {two : Bool} {w : Nat}
    (h : s.Clear m [vd d] ([vd d, vd a] ++ (if two then [vd b] else []) ++ [kd k]) (long := true))
    (hv : ∀ v ∈ (if two then [d, a, b] else [d, a]), v.toNat < s.me.vregs) (f : Nat → Nat → Nat → FOut) :
    Computes s d a b k w (vvv i m d k a b two 1 s (fun mask old x y =>
      lanewise w mask old (fun j => f (elem w x j) (elem w y j) (elem w old j)))) f :=
  ⟨_, _, vectorForm_clear (f := { i := i, m := m, dst := [vd d], src := _, long := true }) h hi hv hg hq 1 _,
    elem_lanewise w _ _ _, fun n _ => getLsbD_lanewise_flags w _ _ _ n⟩

variable {fm : Fmt} (ht : vecTy t.toNat = .flt fm)
include ht

theorem valuForm_computes {two : Bool}
    (h : s.Clear m [vd d] ([vd d, vd a] ++ (if two then [vd b] else []) ++ [kd k]) (long := true))
    (hv : ∀ v ∈ (if two then [d, a, b] else [d, a]), v.toNat < s.me.vregs) (o : ValuOp) :
    Computes s d a b k fm.width (valuForm i m d k a b t two o s) (fun x y _ => valuFloat o fm x y) := by
  rw [valuForm, ht]
  exact vvv_computes hi hg hq h hv (fun x y _ => valuFloat o fm x y)

theorem vfmaForm_computes (h : s.Clear m [vd d] [vd d, vd a, vd b, kd k] (long := true))
    (hv : ∀ v ∈ [d, a, b], v.toNat < s.me.vregs) (np na : Bool) :
    Computes s d a b k fm.width (vfmaForm i m d k a b t np na s) (fun x y z => fm.fma 0 np na x y z) := by
  rw [vfmaForm, ht]
  exact vvv_computes (two := true) hi hg hq h hv (fun x y z => fm.fma 0 np na x y z)

end

/-- 02 R58: the codes of the floating-point types that the element-wise forms take. -/
theorem vecTy_flt {t : BitVec 4} {fm : Fmt} (ht : (t.toNat, fm) ∈ [(2, f32), (3, bf16), (4, f16)]) : vecTy t.toNat = .flt fm := by
  have codes : ∀ t : BitVec 4, ∀ e ∈ [(2, f32), (3, bf16), (4, f16)], t.toNat = e.1 → vecTy t.toNat = .flt e.2 := by decide
  exact codes t _ ht rfl

theorem signBit_eq_width (fm : Fmt) : fm.signBit = 2 ^ (fm.width - 1) := by
  rw [Fmt.signBit, Fmt.width, Nat.add_assoc, Nat.add_sub_cancel_left]

/-- Settles O26: each form is element-wise (`vvv_computes`), and `lanewise` gives its elements and flags. -/
theorem vectorFloatForms : Obligations.VectorFloatForms := by
  unfold Obligations.VectorFloatForms
  intro s m d a b k t fm hfm hd ha hg hq
  have ht := vecTy_flt hfm
  refine ⟨fun hb h => ?_, fun h => ?_⟩
  · have hv : ∀ v ∈ [d, a, b], v.toNat < s.me.vregs := by
      simpa only [List.forall_mem_cons, List.not_mem_nil, false_implies, implies_true, and_true] using ⟨hd, ha, hb⟩
    refine ⟨?_, ?_, ?_, ?_, ?_, ?_, ?_, ?_⟩
    · rw [exec_vadd]; exact valuForm_computes (two := true) rfl hg hq ht h hv .add
    · rw [exec_vsub]; exact valuForm_computes (two := true) rfl hg hq ht h hv .sub
    · rw [exec_vmul]; exact valuForm_computes (two := true) rfl hg hq ht h hv .mul
    · rw [exec_vmin]; exact valuForm_computes (two := true) rfl hg hq ht h hv .min
    · rw [exec_vmax]; exact valuForm_computes (two := true) rfl hg hq ht h hv .max
    · rw [exec_vfma]; exact vfmaForm_computes rfl hg hq ht h hv false false
    · rw [exec_vfms]; exact vfmaForm_computes rfl hg hq ht h hv false true
    · rw [exec_vfnma]; exact vfmaForm_computes rfl hg hq ht h hv true true
  · have hv : ∀ v ∈ [d, a], v.toNat < s.me.vregs := by
      simpa only [List.forall_mem_cons, List.not_mem_nil, false_implies, implies_true, and_true] using ⟨hd, ha⟩
    rw [← signBit_eq_width, exec_vabs, exec_vneg]
    exact ⟨valuForm_computes (two := false) rfl hg hq ht h hv .abs, valuForm_computes (two := false) rfl hg hq ht h hv .neg⟩

end Sys2Proof.Machine.NumberFormats

namespace Sys2Proof.Machine.IntegerControl

/-! ## Shapes of the integer forms (05 R104, R105) -/

section
variable {s : State} {i : Instr} {m : Bool} {d a b : BitVec 5} {src : List Dest} {v : Dword}

/-- A form of two source registers leaves the value that its function has on what they hold. -/
theorem aluRR_clear (h : s.Clear m [gd d] [gd a, gd b]) {f : Dword → Dword → Dword} (hv : f (s.me.rg a) (s.me.rg b) = v) :
    aluRR i m d a b f s = .next (s.retire i.size (s.me.setG d.toNat v)) := by
  rw [aluRR, short_clear (f := { i := i, m := m, dst := [gd d], src := [gd a, gd b] }) h, Thread.writes_toG, hv]

theorem aluR_clear (h : s.Clear m [gd d] [gd a]) {f : Dword → Dword} (hv : f (s.me.rg a) = v) :
    aluR i m d a f s = .next (s.retire i.size (s.me.setG d.toNat v)) := by
  rw [aluR, short_clear (f := { i := i, m := m, dst := [gd d], src := [gd a] }) h, Thread.writes_toG, hv]

/-- A short form whose value depends on the thread in another way. -/
theorem short_toG (h : s.Clear m [gd d] src) {f : Thread → Dword} (hv : f s.me = v) :
    short { i := i, m := m, dst := [gd d], src := src } s (fun th => [toG d (f th)]) =
      .next (s.retire i.size (s.me.setG d.toNat v)) := by
  rw [short_clear (f := { i := i, m := m, dst := [gd d], src := src }) h, Thread.writes_toG, hv]

theorem aluRD_clear (h : s.Clear m [gd d] src) {f : Thread → Dword} (hv : f s.me = v) :
    aluRD i m d src f s = .next (s.retire i.size (s.me.setG d.toNat v)) := short_toG h hv

theorem predForm_clear {p : BitVec 4} (h : s.Clear m [pd p] src) {f : Thread → Bool} {c : Bool} (hc : f s.me = c) :
    predForm i m p src f s = .next (s.retire i.size (s.me.setP p.toNat c)) := by
  rw [predForm, short_clear (f := { i := i, m := m, dst := [pd p], src := src }) h, Thread.writes_toP, hc]

/-- A long form's value is fixed at issue and pends (05 R105). -/
theorem longRR_clear (h : s.Clear m [gd d] [gd a, gd b] (long := true)) {f : Dword → Dword → Dword}
    (hv : f (s.me.rg a) (s.me.rg b) = v) :
    longRR i m d a b f s = .next (s.retire i.size (s.me.pends true [gd d] [toG d v])) := by
  rw [longRR, long_clear (f := { i := i, m := m, dst := [gd d], src := [gd a, gd b], long := true }) h, hv]

end

/-! ## Register-register forms (05 R107, R108) -/

theorem minS_eq (x y : Dword) : minS x y = if y.slt x then y else x := by
  simp only [minS, BitVec.slt_iff_toInt_lt, ← Int.not_lt, ite_not]

theorem maxS_eq (x y : Dword) : maxS x y = if x.slt y then y else x := by
  simp only [maxS, BitVec.slt_iff_toInt_lt, ← Int.not_lt, ite_not]

theorem minZ_eq (x y : Dword) : minZ x y = if y.ult x then y else x := by
  simp only [minZ, BitVec.ult_iff_toNat_lt, ← Nat.not_lt, ite_not]

theorem maxZ_eq (x y : Dword) : maxZ x y = if x.ult y then y else x := by
  simp only [maxZ, BitVec.ult_iff_toNat_lt, ← Nat.not_lt, ite_not]

theorem amount6_lt (y : Dword) : amount6 y < 64 := Nat.mod_lt _ (by decide)

theorem rol_eq_rotateLeft (x : Dword) {n : Nat} (hn : n < 64) : rol x n = x.rotateLeft n := by
  rw [rol, BitVec.rotateLeft_def, Nat.mod_eq_of_lt hn]

theorem ror_eq_rotateRight (x : Dword) {n : Nat} (hn : n < 64) : ror x n = x.rotateRight n := by
  rw [ror, BitVec.rotateRight_def, Nat.mod_eq_of_lt hn]

/-- 05 R107, R108: the low word of a sum, difference or product is that of the low words. -/
theorem sx32_add (x y : Dword) : sx32 (x + y) = (x.truncate 32 + y.truncate 32 : Word).signExtend 64 := by
  rw [sx32, BitVec.truncate_eq_setWidth, BitVec.setWidth_add _ _ (by decide)]

theorem sx32_sub (x y : Dword) : sx32 (x - y) = (x.truncate 32 - y.truncate 32 : Word).signExtend 64 := by
  rw [sx32, BitVec.truncate_eq_setWidth, BitVec.sub_eq_add_neg, BitVec.setWidth_add _ _ (by decide),
    BitVec.setWidth_neg_of_le (by decide), ← BitVec.sub_eq_add_neg]

theorem sx32_mul (x y : Dword) : sx32 (x * y) = (x.truncate 32 * y.truncate 32 : Word).signExtend 64 := by
  rw [sx32, BitVec.truncate_eq_setWidth, BitVec.setWidth_mul _ _ (by decide)]

/-- Settles O1: every form is `aluRR` of a function whose value the lemmas above give. -/
theorem integerRegisterForms : Obligations.IntegerRegisterForms := by
  unfold Obligations.IntegerRegisterForms
  intro s m d a b h
  refine ⟨?_, ?_, ?_, ?_, ?_, ?_, ?_, ?_, ?_, ?_, ?_, ?_, ?_, ?_, ?_, ?_, ?_, ?_, ?_, ?_, ?_, ?_, ?_, ?_⟩
  · rw [exec_add]; exact aluRR_clear h rfl
  · rw [exec_sub]; exact aluRR_clear h rfl
  · rw [exec_and]; exact aluRR_clear h rfl
  · rw [exec_or]; exact aluRR_clear h rfl
  · rw [exec_xor]; exact aluRR_clear h rfl
  · rw [exec_andn]; exact aluRR_clear h rfl
  · rw [exec_orn]; exact aluRR_clear h rfl
  · rw [exec_xnor]; exact aluRR_clear h rfl
  · rw [exec_shl]; exact aluRR_clear h rfl
  · rw [exec_shr]; exact aluRR_clear h rfl
  · rw [exec_sra]; exact aluRR_clear h rfl
  · rw [exec_rol]; exact aluRR_clear h (rol_eq_rotateLeft _ (amount6_lt _))
  · rw [exec_ror]; exact aluRR_clear h (ror_eq_rotateRight _ (amount6_lt _))
  · rw [exec_minS]; exact aluRR_clear h (minS_eq _ _)
  · rw [exec_minZ]; exact aluRR_clear h (minZ_eq _ _)
  · rw [exec_maxS]; exact aluRR_clear h (maxS_eq _ _)
  · rw [exec_maxZ]; exact aluRR_clear h (maxZ_eq _ _)
  · rw [exec_addW]; exact aluRR_clear h (sx32_add _ _)
  · rw [exec_subW]; exact aluRR_clear h (sx32_sub _ _)
  · rw [exec_shlW]; exact aluRR_clear h rfl
  · rw [exec_shrW]; exact aluRR_clear h rfl
  · rw [exec_sraW]; exact aluRR_clear h rfl
  · rw [exec_mul]; exact aluRR_clear h rfl
  · rw [exec_mulW]; exact aluRR_clear h (sx32_mul _ _)

/-! ## Multiply-high and division (05 R108, R109) -/

theorem mulHigh_toNat (x y : Dword) : mulHigh x.toNat y.toNat = BitVec.ofNat 64 (x.toNat * y.toNat / 2 ^ 64) :=
  BitVec.ofInt_natCast 64 _

theorem divRem_zero (x : Dword) {y : Dword} (hy : y = 0) (signed : Bool) : divRem x y signed = (BitVec.allOnes 64, x) := if_pos hy

theorem divRem_unsigned (x : Dword) {y : Dword} (hy : y ≠ 0) : divRem x y false = (x.udiv y, x.umod y) := by
  rw [divRem, if_neg hy]
  exact Prod.ext BitVec.udiv_def.symm BitVec.umod_def.symm

/-- Division of bit vectors is the truncated one of integers, wrapped to 64 bits. -/
theorem ofInt_tdiv (x y : Dword) : BitVec.ofInt 64 (x.toInt.tdiv y.toInt) = x.sdiv y :=
  BitVec.eq_of_toInt_eq (by rw [BitVec.toInt_ofInt, BitVec.toInt_sdiv])

theorem ofInt_tmod (x y : Dword) : BitVec.ofInt 64 (x.toInt.tmod y.toInt) = x.srem y := by
  rw [← BitVec.toInt_srem, BitVec.ofInt_toInt]

/-- The quotient that does not fit is the one that the division of bit vectors wraps to, and its remainder is 0. -/
theorem divRem_signed (x : Dword) {y : Dword} (hy : y ≠ 0) : divRem x y true = (x.sdiv y, x.srem y) := by
  rw [divRem, if_neg hy, if_pos rfl, ofInt_tdiv, ofInt_tmod]
  split
  next hover =>
    obtain ⟨rfl, rfl⟩ : x = 0x8000000000000000 ∧ y = BitVec.allOnes 64 := by simpa using hover
    decide
  next => rfl

/-- Settles O6: every form is `longRR` of a function whose value the lemmas above give. -/
theorem multiplyDivideForms : Obligations.MultiplyDivideForms := by
  unfold Obligations.MultiplyDivideForms
  intro s m d a b h
  refine ⟨?_, ?_, ?_, fun hy => ⟨?_, ?_, ?_, ?_⟩, fun hy => ⟨?_, ?_, ?_, ?_⟩⟩
  · rw [exec_mulhS]; exact longRR_clear h rfl
  · rw [exec_mulhZ]; exact longRR_clear h (mulHigh_toNat _ _)
  · rw [exec_mulhSz]; exact longRR_clear h rfl
  · rw [exec_divS]; exact longRR_clear h (congrArg Prod.fst (divRem_zero _ hy true))
  · rw [exec_divZ]; exact longRR_clear h (congrArg Prod.fst (divRem_zero _ hy false))
  · rw [exec_remS]; exact longRR_clear h (congrArg Prod.snd (divRem_zero _ hy true))
  · rw [exec_remZ]; exact longRR_clear h (congrArg Prod.snd (divRem_zero _ hy false))
  · rw [exec_divZ]; exact longRR_clear h (congrArg Prod.fst (divRem_unsigned _ hy))
  · rw [exec_remZ]; exact longRR_clear h (congrArg Prod.snd (divRem_unsigned _ hy))
  · rw [exec_divS]; exact longRR_clear h (congrArg Prod.fst (divRem_signed _ hy))
  · rw [exec_remS]; exact longRR_clear h (congrArg Prod.snd (divRem_signed _ hy))

/-! ## Counts (05 R110) -/

theorem leadingZeros_le (x n : Nat) : leadingZeros x n ≤ n := by
  induction n with
  | zero => exact Nat.le_refl 0
  | succ n ih => rw [leadingZeros]; split <;> omega

/-- Below the top of the counted bits as many are 0 as the count says, and the next one, where there is one, is 1. -/
theorem leadingZeros_spec (x n : Nat) :
    (leadingZeros x n < n → x.testBit (n - 1 - leadingZeros x n) = true) ∧ ∀ i < leadingZeros x n, x.testBit (n - 1 - i) = false := by
  induction n with
  | zero => exact ⟨fun h => absurd h (Nat.not_lt_zero _), fun i h => absurd h (Nat.not_lt_zero _)⟩
  | succ n ih =>
    obtain ⟨hone, hzero⟩ := ih
    rw [leadingZeros]
    split
    next htop => exact ⟨fun _ => htop, fun i h => absurd h (Nat.not_lt_zero _)⟩
    next htop =>
      refine ⟨fun h => ?_, fun i h => ?_⟩
      · rw [show n + 1 - 1 - (1 + leadingZeros x n) = n - 1 - leadingZeros x n by omega]
        exact hone (by omega)
      · cases i with
        | zero => exact Bool.eq_false_iff.2 htop
        | succ i =>
          rw [show n + 1 - 1 - (i + 1) = n - 1 - i by omega]
          exact hzero i (by omega)

theorem trailingZeros_le (x i n : Nat) : trailingZeros x i n ≤ n := by
  induction n generalizing i with
  | zero => exact Nat.le_refl 0
  | succ n ih => have := ih (i + 1); rw [trailingZeros]; split <;> omega

theorem trailingZeros_spec (x i n : Nat) :
    (trailingZeros x i n < n → x.testBit (i + trailingZeros x i n) = true) ∧
      ∀ j < trailingZeros x i n, x.testBit (i + j) = false := by
  induction n generalizing i with
  | zero => exact ⟨fun h => absurd h (Nat.not_lt_zero _), fun j h => absurd h (Nat.not_lt_zero _)⟩
  | succ n ih =>
    obtain ⟨hone, hzero⟩ := ih (i + 1)
    rw [trailingZeros]
    split
    next hlow => exact ⟨fun _ => hlow, fun j h => absurd h (Nat.not_lt_zero _)⟩
    next hlow =>
      refine ⟨fun h => ?_, fun j h => ?_⟩
      · rw [← Nat.add_assoc]
        exact hone (by omega)
      · cases j with
        | zero => exact Bool.eq_false_iff.2 hlow
        | succ j =>
          rw [show i + (j + 1) = i + 1 + j by omega]
          exact hzero j (by omega)

/-- The count of the ones is the number of positions that hold one. -/
theorem ones_eq_length_filter (x n : Nat) : ones x n = ((List.range n).filter x.testBit).length := by
  induction n with
  | zero => rfl
  | succ n ih =>
    rw [ones, ih, List.range_succ, List.filter_append, List.length_append, Nat.add_comm, List.filter_cons, List.filter_nil]
    cases x.testBit n <;> rfl

/-! ## Reversals (05 R110) -/

theorem reverseBits_lt (x n : Nat) : reverseBits x n < 2 ^ n := by
  induction n generalizing x with
  | zero => exact Nat.one_pos
  | succ n ih =>
    have := ih (x / 2)
    have : x % 2 * 2 ^ n ≤ 1 * 2 ^ n := Nat.mul_le_mul_right _ (by omega)
    rw [reverseBits, Nat.pow_succ]
    omega

theorem testBit_reverseBits (x n i : Nat) (hi : i < n) : (reverseBits x n).testBit i = x.testBit (n - 1 - i) := by
  induction n generalizing x with
  | zero => exact absurd hi (Nat.not_lt_zero _)
  | succ n ih =>
    rw [reverseBits, Nat.mul_comm, Nat.testBit_two_pow_mul_add _ (reverseBits_lt _ _)]
    split
    next hlow =>
      rw [ih _ hlow, Nat.testBit_div_two, show n - 1 - i + 1 = n + 1 - 1 - i by omega]
    next htop =>
      obtain rfl : i = n := by omega
      rw [Nat.sub_self, show i + 1 - 1 - i = 0 by omega, Nat.testBit_zero, Nat.testBit_zero, Nat.mod_mod]

/-- 00 R5: bit j of byte i of the bytes of a number. -/
theorem testBit_ofBytes (bs : List Byte) (i j : Nat) (hj : j < 8) : (ofBytes bs).testBit (8 * i + j) = (bs.getD i 0).getLsbD j := by
  induction bs generalizing i with
  | nil => simp [ofBytes]
  | cons b bs ih =>
    rw [ofBytes, Nat.add_comm, show 256 = 2 ^ 8 from rfl, Nat.testBit_two_pow_mul_add _ b.isLt]
    cases i with
    | zero => rw [if_pos (by omega), Nat.mul_zero, Nat.zero_add]; rfl
    | succ i => rw [if_neg (by omega), show 8 * (i + 1) + j - 8 = 8 * i + j by omega, ih, List.getD_cons_succ]

theorem getLsbD_leBytes (n x i j : Nat) (hi : i < n) (hj : j < 8) : ((leBytes n x).getD i 0).getLsbD j = x.testBit (8 * i + j) := by
  rw [leBytes_getD n x i hi, BitVec.getLsbD_ofNat, Nat.testBit_div_two_pow, decide_eq_true hj, Bool.true_and, Nat.add_comm]

theorem getLsbD_swapBytes (x : Dword) (i j : Nat) (hi : i < 8) (hj : j < 8) :
    (swapBytes x).getLsbD (8 * i + j) = x.getLsbD (8 * (7 - i) + j) := by
  have hrev : (leBytes 8 x.toNat).reverse.getD i 0 = (leBytes 8 x.toNat).getD (7 - i) 0 := by
    simp only [List.getD_eq_getElem?_getD]
    rw [List.getElem?_reverse (by rw [leBytes_length]; exact hi), leBytes_length]
  rw [swapBytes, BitVec.getLsbD_ofNat, decide_eq_true (by omega), Bool.true_and, testBit_ofBytes _ _ _ hj, hrev,
    getLsbD_leBytes _ _ _ _ (by omega) hj]
  rfl

/-! ## Bit fields (05 R114) -/

theorem testBit_field (x : Dword) (p n i : Nat) : (field x p n).testBit i = (decide (i < n) && x.getLsbD (p + i)) := by
  rw [field, Nat.testBit_mod_two_pow, Nat.testBit_div_two_pow, Nat.add_comm]
  rfl

theorem getLsbD_extractZ (x : Dword) (p n i : Nat) (hi : i < 64) :
    (extractZ x p n).getLsbD i = (decide (i < n) && x.getLsbD (p + i)) := by
  rw [extractZ, BitVec.getLsbD_ofNat, decide_eq_true hi, Bool.true_and, testBit_field]

/-- A signed field repeats its last bit. -/
theorem getLsbD_extractS (x : Dword) (p l i : Nat) (hi : i < 64) :
    (extractS x p (l + 1)).getLsbD i = x.getLsbD (p + min i l) := by
  have hbit (j : Nat) (hj : j ≤ l) : (BitVec.ofNat (l + 1) (field x p (l + 1))).getLsbD j = x.getLsbD (p + j) := by
    rw [BitVec.getLsbD_ofNat, testBit_field, decide_eq_true (Nat.lt_succ_of_le hj), Bool.true_and, Bool.true_and]
  rw [extractS, BitVec.getLsbD_signExtend, decide_eq_true hi, Bool.true_and]
  split
  next hin => rw [hbit i (Nat.le_of_lt_succ hin), Nat.min_eq_left (Nat.le_of_lt_succ hin)]
  next hout => rw [BitVec.msb_eq_getLsbD_last, Nat.add_sub_cancel, hbit l (Nat.le_refl l), Nat.min_eq_right (by omega)]

/-- A field replaced: the new value's bits inside it, the old register's outside. -/
theorem getLsbD_putField (x : Dword) (p n v i : Nat) (hi : i < 64) :
    (putField x p n v).getLsbD i = if p ≤ i ∧ i < p + n then v.testBit (i - p) else x.getLsbD i := by
  rw [putField, BitVec.getLsbD_or, BitVec.getLsbD_and, BitVec.getLsbD_not, BitVec.getLsbD_ofNat, BitVec.getLsbD_ofNat,
    Nat.testBit_mul_two_pow, Nat.testBit_mul_two_pow, Nat.testBit_two_pow_sub_one, Nat.testBit_mod_two_pow]
  by_cases hp : p ≤ i
  · by_cases hn : i < p + n
    · have : i - p < n := by omega
      simp [hi, hp, hn, this]
    · have : ¬ i - p < n := by omega
      simp [hi, hp, hn, this]
  · simp [hi, hp]

/-- Settles O2: every form is `aluR` or `aluRD` of a function whose bits the lemmas above give. -/
theorem bitForms : Obligations.BitForms := by
  unfold Obligations.BitForms
  refine ⟨fun s m d a h => ?_, fun s m d a p l hpl => ⟨fun h => ⟨?_, ?_⟩, fun h => ?_⟩⟩
  · refine ⟨?_, ?_, ?_, ?_, ?_, ?_, ?_, ?_, ?_, ?_, ?_⟩
    · rw [exec_clz]; exact ⟨_, leadingZeros_le _ 64, aluR_clear h rfl, leadingZeros_spec _ 64⟩
    · obtain ⟨hone, hzero⟩ := trailingZeros_spec (s.me.rg a).toNat 0 64
      simp only [Nat.zero_add] at hone hzero
      rw [exec_ctz]; exact ⟨_, trailingZeros_le _ 0 64, aluR_clear h rfl, hone, hzero⟩
    · rw [exec_popc]; exact aluR_clear h (congrArg _ (ones_eq_length_filter _ 64))
    · rw [exec_bswap]; exact ⟨_, aluR_clear h rfl, fun i hi j hj => getLsbD_swapBytes _ i j hi hj⟩
    · rw [exec_brev]
      refine ⟨_, aluR_clear h rfl, fun i hi => ?_⟩
      rw [BitVec.getLsbD_ofNat, decide_eq_true hi, Bool.true_and, testBit_reverseBits _ _ _ hi]
      rfl
    · rw [exec_sextB]; exact aluR_clear h rfl
    · rw [exec_sextH]; exact aluR_clear h rfl
    · rw [exec_sextW]; exact aluR_clear h rfl
    · rw [exec_zextB]; exact aluR_clear h rfl
    · rw [exec_zextH]; exact aluR_clear h rfl
    · rw [exec_zextW]; exact aluR_clear h rfl
  · rw [exec_bfxZ]; exact ⟨_, aluR_clear h rfl, fun i hi => getLsbD_extractZ _ _ _ i hi⟩
  · rw [exec_bfxS]; exact ⟨_, aluR_clear h rfl, fun i hi => getLsbD_extractS _ _ _ i hi⟩
  · rw [exec_bfi]; exact ⟨_, aluRD_clear h rfl, fun i hi => getLsbD_putField _ _ _ _ i hi⟩

/-! ## Immediates (05 R111 to R113) -/

/-- A sign-extended field with zeros below it: extending and shifting commute. -/
theorem signExtend_shiftLeft {n : Nat} (i : BitVec n) (w k : Nat) :
    i.signExtend w <<< k = (i ++ (0 : BitVec k)).signExtend w := by
  refine BitVec.eq_of_getLsbD_eq fun j hj => ?_
  have hmsb : (i ++ (0 : BitVec k)).msb = i.msb := by
    rw [BitVec.msb_append]
    split
    next hn => subst hn; simp [BitVec.eq_nil i]
    next => rfl
  rw [BitVec.getLsbD_shiftLeft, BitVec.getLsbD_signExtend, BitVec.getLsbD_signExtend, hmsb, BitVec.getLsbD_append]
  by_cases hk : j < k
  · have : j < n + k := by omega
    simp [hk, this]
  · have : j - k < w := by omega
    by_cases hn : j - k < n
    · have : j < n + k := by omega
      simp [*]
    · have : ¬ j < n + k := by omega
      simp [*]

/-- 05 R118: segment number, zeros and offset of a code address. -/
theorem codeVA_eq_append (c : CodeAddr) :
    codeVA c = (c.extractLsb' 45 3 ++ (0 : BitVec 16) ++ c.extractLsb' 0 45).setWidth 64 := by
  refine BitVec.eq_of_getLsbD_eq fun j hj => ?_
  simp only [codeVA, BitVec.getLsbD_or, BitVec.getLsbD_shiftLeft, BitVec.truncate_eq_setWidth, BitVec.getLsbD_setWidth,
    BitVec.getLsbD_ushiftRight, BitVec.getLsbD_append, BitVec.getLsbD_extractLsb']
  by_cases hoff : j < 45
  · have : j < 61 := by omega
    simp [*]
  by_cases hgap : j < 61
  · have : j - 45 < 16 := by omega
    simp [*]
  · have hseg : ¬ j - 45 < 16 := by omega
    have hpart : j - 45 - 16 < 3 := by omega
    have : j - 45 - 16 = j - 61 := by omega
    have : j - 61 < 64 := by omega
    have : j - 61 < 3 := by omega
    simp [*]

/-- LIH puts its immediate above the low word. -/
theorem highWord_eq_append (i : BitVec 19) (x : Dword) :
    imm 19 i <<< 32 ||| (x.truncate 32 : Word).zeroExtend 64 = i.signExtend 32 ++ (x.truncate 32 : Word) := by
  refine BitVec.eq_of_getLsbD_eq fun j hj => ?_
  simp only [imm, BitVec.getLsbD_or, BitVec.getLsbD_shiftLeft, BitVec.getLsbD_setWidth,
     BitVec.getLsbD_append, BitVec.getLsbD_signExtend]
  by_cases hlow : j < 32
  · simp [*]
  · have : j - 32 < 64 := by omega
    have : j - 32 < 32 := by omega
    simp [*]

/-- Settles O3: the values are the model's own but for the constants, whose bits the lemmas above place. -/
theorem integerImmediateForms : Obligations.IntegerImmediateForms := by
  unfold Obligations.IntegerImmediateForms
  intro s m d a i n u
  refine ⟨fun h => ⟨?_, ?_, ?_, ?_, ?_, ?_, ?_, ?_, ?_, ?_, ?_⟩, fun h => ⟨?_, fun target ht => ?_⟩, fun h => ?_⟩
  · rw [exec_addi]; exact aluR_clear h rfl
  · rw [exec_andi]; exact aluR_clear h rfl
  · rw [exec_ori]; exact aluR_clear h rfl
  · rw [exec_xori]; exact aluR_clear h rfl
  · rw [exec_shli]; exact aluR_clear h rfl
  · rw [exec_shri]; exact aluR_clear h rfl
  · rw [exec_srai]; exact aluR_clear h rfl
  · rw [exec_roli]; exact aluR_clear h (rol_eq_rotateLeft _ n.isLt)
  · rw [exec_shliW]; exact aluR_clear h rfl
  · rw [exec_shriW]; exact aluR_clear h rfl
  · rw [exec_sraiW]; exact aluR_clear h rfl
  · rw [exec_lui]; exact short_toG h (signExtend_shiftLeft u 64 13)
  · rw [exec_auipc]; exact short_toG h (by rw [signExtend_shiftLeft, ← ht, codeVA_eq_append])
  · rw [exec_lih]; exact aluRD_clear h (highWord_eq_append u _)

/-! ## Comparisons and predicates (05 R115, R116) -/

/-- 05 R115: the conditions in the order of their codes. -/
theorem condition_eq_getD (x y : Dword) : ∀ {c : Nat}, c ≤ 10 →
    condition c x y =
      [x == y, x != y, x.slt y, x.ult y, x.sle y, x.ule y, y.slt x, y.ult x, y.sle x, y.ule x, x &&& y != 0].getD c false
  | 0, _ | 1, _ | 2, _ | 3, _ | 4, _ | 5, _ | 6, _ | 7, _ | 8, _ | 9, _ | 10, _ => rfl
  | _ + 11, hc => absurd hc (by omega)

theorem getLsbD_setP (th : Thread) {q i : Nat} (b : Bool) (hq : q ≠ 0) (hi : i < 16) :
    (th.setP q b).p.getLsbD i = if i = q then b else th.p.getLsbD i := by
  have hmask : (BitVec.ofNat 16 (2 ^ q)).getLsbD i = decide (i = q) := by
    rw [BitVec.getLsbD_ofNat, Nat.testBit_two_pow, decide_eq_true hi, Bool.true_and]
    exact decide_eq_decide.2 eq_comm
  have hset : (if b then BitVec.ofNat 16 (2 ^ q) else 0).getLsbD i = (b && decide (i = q)) := by
    cases b with
    | true => exact hmask
    | false => exact BitVec.getLsbD_zero
  rw [Thread.setP, if_neg hq]
  simp only [BitVec.getLsbD_or, BitVec.getLsbD_and, BitVec.getLsbD_not, hmask, hset]
  by_cases h : i = q <;> simp [hi, h]

/-- PWR's writes to the predicates up to `n` (05 R116). -/
def predWrites (x : Dword) (n : Nat) : List RegWrite :=
  (List.range n).map (fun i => .to (.p (i + 1)) (if x.getLsbD (i + 1) then 1 else 0))

theorem writes_predWrites_succ (th : Thread) (x : Dword) (n : Nat) :
    th.writes (predWrites x (n + 1)) = (th.writes (predWrites x n)).setP (n + 1) (x.getLsbD (n + 1)) := by
  rw [predWrites, List.range_succ, List.map_append, Thread.writes, List.foldl_append]
  have hbit : (if x.getLsbD (n + 1) then 1 else 0 : Line).getLsbD 0 = x.getLsbD (n + 1) := by
    cases x.getLsbD (n + 1) <;> simp
  exact congrArg (Thread.setP _ (n + 1)) hbit

theorem getLsbD_writes_predWrites (th : Thread) (x : Dword) (n i : Nat) (hi : i < 16) :
    (th.writes (predWrites x n)).p.getLsbD i = if 1 ≤ i ∧ i ≤ n then x.getLsbD i else th.p.getLsbD i := by
  induction n with
  | zero => rw [if_neg (by omega)]; rfl
  | succ n ih =>
    rw [writes_predWrites_succ, getLsbD_setP _ _ (Nat.succ_ne_zero n) hi, ih]
    by_cases hlast : i = n + 1
    · rw [if_pos hlast, if_pos (by omega), hlast]
    · rw [if_neg hlast]
      have hrange : (1 ≤ i ∧ i ≤ n) ↔ (1 ≤ i ∧ i ≤ n + 1) := by omega
      simp only [hrange]

/-- PWR's writes change nothing of the thread but the predicates and their parity. -/
theorem writes_predWrites (th : Thread) (x : Dword) (n : Nat) :
    th.writes (predWrites x n) =
      { th with p := (th.writes (predWrites x n)).p, parity := (th.writes (predWrites x n)).parity } := by
  induction n with
  | zero => rfl
  | succ n ih =>
    rw [writes_predWrites_succ, ih, Thread.setP, if_neg (Nat.succ_ne_zero n)]

/-- Settles O4: a comparison's code picks its condition, and PWR of the whole set is `predWrites` of all 15. -/
theorem compareAndPredicateForms : Obligations.CompareAndPredicateForms := by
  unfold Obligations.CompareAndPredicateForms
  refine ⟨fun s m q a b i c hc => ⟨fun h => ?_, fun h => ?_⟩, fun s m d a b q g h k => ?_⟩
  · have hcode : (BitVec.ofNat 9 c).toNat = c := Nat.mod_eq_of_lt (by omega)
    rw [exec_cmp]; exact predForm_clear h (by rw [hcode, condition_eq_getD _ _ hc])
  · have hcode : (BitVec.ofNat 4 c).toNat = c := Nat.mod_eq_of_lt (by omega)
    rw [exec_cmpi]; exact predForm_clear h (by rw [hcode, condition_eq_getD _ _ hc]; rfl)
  refine ⟨fun hc => ⟨?_, ?_, ?_, ?_⟩, fun hc => ?_, fun hq hc => ?_, fun hc => ?_, fun hq hc => ?_, fun hc => ?_, fun hc => ?_⟩
  · rw [exec_pand]; exact predForm_clear hc rfl
  · rw [exec_por]; exact predForm_clear hc rfl
  · rw [exec_pxor]; exact predForm_clear hc rfl
  · rw [exec_pandn]; exact predForm_clear hc rfl
  · rw [exec_pnot]; exact predForm_clear hc rfl
  · rw [exec_prd, execPrd, if_neg hq]; exact short_toG hc (if_neg hq)
  · rw [exec_prd]; exact short_toG hc rfl
  · rw [exec_pwr, execPwr, if_neg hq]
    simp only [if_neg hq]
    exact predForm_clear hc rfl
  · refine ⟨s.me.writes (predWrites (s.me.rg g) 15), ?_, fun i hi => ?_, writes_predWrites _ _ _⟩
    · rw [exec_pwr]
      exact short_clear (f := { i := .pwr m g 0, m := m, dst := allPreds, src := [gd g] }) hc _
    · rw [getLsbD_writes_predWrites _ _ _ _ hi]
      by_cases h0 : i = 0
      · rw [if_neg (by omega), if_pos h0, h0]
      · rw [if_pos (by omega), if_neg h0]
  · rw [exec_sel]; exact short_toG hc rfl

/-! ## Control transfer (05 R117 to R122) -/

/-- 05 R117: the PC goes to the target or past the instruction. -/
theorem branch_clear {s : State} {f : Form} (h : s.Clear f.m f.dst f.src f.long f.mem f.waits f.dyn) (taken : Thread → Bool)
    (goTo : CodeAddr → CodeAddr) :
    branch f s taken goTo =
      if taken s.me then .next (s.issued { s.me with pc := goTo s.me.pc }) else .next (s.retire f.i.size s.me) := by
  rw [branch, issue_clear h]
  cases taken s.me <;> rfl

theorem target_eq_append {n : Nat} (pc : CodeAddr) (i : BitVec n) : target pc i = pc + (i ++ (0 : BitVec 1)).signExtend 48 := by
  rw [target, signExtend_shiftLeft]

/-- 05 R121, R122: a call pushes where the store has room, and traps where it is full. -/
theorem callTo_push {th : Thread} {s : State} (h : th.ldepth ≠ 3) (t : CodeAddr) :
    callTo th s t = .next (s.issued { th.push (th.pc + 4) with pc := t }) := if_neg h

theorem callTo_full {th : Thread} {s : State} (h : th.ldepth = 3) (t : CodeAddr) :
    callTo th s t = .next (s.trap Cause.linkOverflow 0) := if_pos h

/-- 12 R273: with no result pending a trap is entered at once. -/
theorem me_trap {s : State} (h : s.me.pending = []) (cause : BitVec 8) (v : Dword) :
    (s.trap cause v).me = s.me.enter (s.vectorOf s.cur.1) (s.firmwareOf s.cur.1) cause v s.me.pc := by
  have hp : (s.thread s.cur.1 s.cur.2.1 s.cur.2.2).pending.isEmpty = true := by
    rw [List.isEmpty_iff]; exact h
  rw [State.me, State.trap_cur, State.trap, State.trapAt, if_pos hp, State.thread_bb, State.thread_setThread_same]
  rfl

/-- 05 R118: an address is odd, has bits beyond a code address, or names one. -/
theorem codeAddr_eq (v : Dword) :
    codeAddr v = if v.getLsbD 0 then .error Cause.misaligned
      else if v.extractLsb' 45 16 ≠ 0 then .error Cause.segBounds
      else .ok (v.extractLsb' 61 3 ++ v.extractLsb' 0 45) := by
  have hgap : field v 45 16 ≠ 0 ↔ v.extractLsb' 45 16 ≠ 0 := by
    rw [field, Ne, Ne, ← BitVec.toNat_inj, BitVec.extractLsb'_toNat, Nat.shiftRight_eq_div_pow]
    rfl
  have haddr : ((v >>> 61).truncate 48 <<< 45) ||| (v.truncate 45).zeroExtend 48 = v.extractLsb' 61 3 ++ v.extractLsb' 0 45 := by
    refine BitVec.eq_of_getLsbD_eq fun j hj => ?_
    simp only [BitVec.getLsbD_or, BitVec.getLsbD_shiftLeft, BitVec.truncate_eq_setWidth, BitVec.getLsbD_setWidth,
      BitVec.getLsbD_ushiftRight, BitVec.getLsbD_append, BitVec.getLsbD_extractLsb']
    by_cases hoff : j < 45
    · simp [*]
    · have : j - 45 < 3 := by omega
      have : j - 45 < 48 := by omega
      simp [*]
  rw [codeAddr, haddr]
  simp only [hgap]

theorem codeAddr_odd {v : Dword} (h : v.getLsbD 0 = true) : codeAddr v = .error Cause.misaligned := by
  rw [codeAddr_eq, if_pos h]

theorem codeAddr_beyond {v : Dword} (h : v.getLsbD 0 = false) (hg : v.extractLsb' 45 16 ≠ 0) :
    codeAddr v = .error Cause.segBounds := by
  rw [codeAddr_eq, if_neg (Bool.eq_false_iff.1 h), if_pos hg]

theorem codeAddr_ok {v : Dword} (h : v.getLsbD 0 = false) (hg : v.extractLsb' 45 16 = 0) :
    codeAddr v = .ok (v.extractLsb' 61 3 ++ v.extractLsb' 0 45) := by
  rw [codeAddr_eq, if_neg (Bool.eq_false_iff.1 h), if_neg (not_not_intro hg)]

section
variable {s : State} {m : Bool} {a : BitVec 5} (h : s.Clear m [] [gd a])
include h

theorem execJr_ok {t : CodeAddr} (ht : codeAddr (s.me.rg a) = .ok t) : execJr m a s = .next (s.issued { s.me with pc := t }) := by
  rw [execJr, issue_clear (f := { i := .jr m a, m := m, src := [gd a] }) h]
  simp only [ht]

theorem execJr_error {c : BitVec 8} (hc : codeAddr (s.me.rg a) = .error c) : execJr m a s = .next (s.trap c (s.me.rg a)) := by
  rw [execJr, issue_clear (f := { i := .jr m a, m := m, src := [gd a] }) h]
  simp only [hc]

theorem execCallr_ok {t : CodeAddr} (ht : codeAddr (s.me.rg a) = .ok t) : execCallr m a s = callTo s.me s t := by
  rw [execCallr, issue_clear (f := { i := .callr m a, m := m, src := [gd a] }) h]
  simp only [ht]

theorem execCallr_error {c : BitVec 8} (hc : codeAddr (s.me.rg a) = .error c) :
    execCallr m a s = .next (s.trap c (s.me.rg a)) := by
  rw [execCallr, issue_clear (f := { i := .callr m a, m := m, src := [gd a] }) h]
  simp only [hc]

end

section
variable {s : State} {m : Bool} (h : s.Clear m [] [])
include h

theorem execCall_clear (i : BitVec 24) : execCall m i s = callTo s.me s (target s.me.pc i) :=
  issue_clear (f := { i := .call m i, m := m }) h _

theorem execRet_pop (hd : s.me.ldepth ≠ 0) : execRet m s = .next (s.issued { s.me.pop with pc := s.me.top }) := by
  rw [execRet, issue_clear (f := { i := .ret m, m := m }) h, if_neg hd]

theorem execRet_empty (hd : s.me.ldepth = 0) :
    execRet m s = .next (s.trap (if s.me.linkcnt = 0 then Cause.returnEmpty else Cause.linkUnderflow) 0) := by
  rw [execRet, issue_clear (f := { i := .ret m, m := m }) h, if_pos hd]

end

/-- Settles O8: a branch is `branch_clear`, a call `callTo`, and a register transfer follows what `codeAddr` answers. -/
theorem transferForms : Obligations.TransferForms := by
  unfold Obligations.TransferForms
  refine ⟨fun s m a lo q i o hi => ⟨fun h => ?_, fun h => ⟨?_, ?_⟩, fun h => ⟨?_, ?_, fun hodd hgap => ?_⟩⟩,
    fun s m a i => ⟨fun h hd => ?_, fun h hd hodd hgap => ?_, fun h hd => ?_⟩,
    fun s m a i => ⟨fun h hodd => ⟨?_, ?_⟩, fun h hodd hgap => ⟨?_, ?_⟩,
      fun hd => ⟨fun h => ?_, fun h hodd hgap => ?_, fun hp => ?_⟩, fun h hd => ?_⟩⟩
  · rw [exec_j, execJ, branch_clear h, target_eq_append, if_pos rfl]
  · rw [exec_bp, execBp, branch_clear (f := { i := .bp m q o, m := m, src := [pd q] }) h, target_eq_append]; rfl
  · rw [exec_bnp, execBnp, branch_clear (f := { i := .bnp m q o, m := m, src := [pd q] }) h, target_eq_append]
    cases s.me.rp q <;> rfl
  · rw [exec_bz, execBz, branch_clear (f := { i := .bz m lo a hi, m := m, src := [gd a] }) h, target_eq_append]
    simp only [beq_iff_eq]; rfl
  · rw [exec_bnz, execBnz, branch_clear (f := { i := .bnz m lo a hi, m := m, src := [gd a] }) h, target_eq_append]
    simp only [bne_iff_ne, ite_not]; rfl
  · rw [exec_jr]; exact execJr_ok h (codeAddr_ok hodd hgap)
  · rw [exec_call, execCall_clear h, callTo_push hd, target_eq_append]; rfl
  · rw [exec_callr, execCallr_ok h (codeAddr_ok hodd hgap), callTo_push hd]; rfl
  · rw [exec_ret]; exact execRet_pop h hd
  · rw [exec_jr]; exact execJr_error h (codeAddr_odd hodd)
  · rw [exec_callr]; exact execCallr_error h (codeAddr_odd hodd)
  · rw [exec_jr]; exact execJr_error h (codeAddr_beyond hodd hgap)
  · rw [exec_callr]; exact execCallr_error h (codeAddr_beyond hodd hgap)
  · rw [exec_call, execCall_clear h, callTo_full hd]
  · rw [exec_callr, execCallr_ok h (codeAddr_ok hodd hgap), callTo_full hd]
  · rw [me_trap hp]
    exact ⟨rfl, rfl, rfl, rfl, rfl, rfl, rfl⟩
  · rw [exec_ret]; exact execRet_empty h hd

/-! ## Waits and reads (05 R124, R126, 06 R138, R141, 07 R168, 11 R230) -/

/-- A form with a check of its operand does its own part where the check finds nothing, and traps PRIVILEGE with what it finds. -/
theorem guarded_free {s : State} {f : Form} (h : s.Clear f.m f.dst f.src f.long f.mem f.waits f.dyn) {bad : Thread → Option Dword}
    (hb : bad s.me = none) (act : Thread → State → Out) : guarded f bad s act = act s.me s := by
  rw [guarded, hb, ite_self]
  exact issue_clear h act

theorem guarded_barred {s : State} {f : Form} (hr : s.me.runs = true) {bad : Thread → Option Dword} {v : Dword}
    (hb : bad s.me = some v) (act : Thread → State → Out) : guarded f bad s act = .next (s.trap Cause.privilege v) := by
  rw [guarded, hb, if_pos hr]

theorem field_low (x : Dword) (n : Nat) : field x 0 n = (x.truncate n : BitVec n).toNat := by
  rw [field, Nat.pow_zero, Nat.div_one, BitVec.truncate_eq_setWidth, BitVec.toNat_setWidth]

section
variable {s : State} {m : Bool} {a : BitVec 5} (h : s.Clear m [] [gd a])
include h

theorem execSleep_clear :
    execSleep m a s = .next (s.retire 4 (if s.me.rg a = 0 then s.me else
      { s.me with st := .sleeping, waitt := false, ava := deadline s.time (s.me.rg a) })) := by
  rw [execSleep, issue_clear (f := { i := .sleep m a, m := m, src := [gd a] }) h]
  split <;> rfl

theorem execWaitt_clear :
    execWaitt m a s = .next (s.retire 4 (if (s.me.rg a).toNat ≤ s.time then s.me else
      { s.me with st := .sleeping, waitt := true, ava := s.me.rg a })) := by
  rw [execWaitt, issue_clear (f := { i := .waitt m a, m := m, src := [gd a] }) h]
  split <;> rfl

/-- 11 R230: the priority asked for is the register's low two bits, and only a user thread is held to its own. -/
theorem execPrio_allowed (hp : s.me.priv = 0 → ((s.me.rg a).truncate 2 : BitVec 2).toNat ≤ s.me.prio.toNat) :
    execPrio m a s = .next (s.retire 4 { s.me with prio := (s.me.rg a).truncate 2 }) := by
  have hfree : ¬ (s.me.priv = 0 && decide (s.me.prio.toNat < field (s.me.rg a) 0 2)) = true := by
    rw [Bool.and_eq_true, decide_eq_true_eq, decide_eq_true_eq, field_low]
    exact fun hn => absurd hn.2 (Nat.not_lt.2 (hp hn.1))
  rw [execPrio, guarded_free (f := { i := .prio m a, m := m, src := [gd a] }) h (if_neg hfree), field_low, BitVec.ofNat_toNat,
    BitVec.setWidth_eq]
  rfl

theorem execPrio_barred (hu : s.me.priv = 0) (hp : s.me.prio.toNat < ((s.me.rg a).truncate 2 : BitVec 2).toNat) :
    execPrio m a s = .next (s.trap Cause.privilege (s.me.rg a)) := by
  have hbar : (s.me.priv = 0 && decide (s.me.prio.toNat < field (s.me.rg a) 0 2)) = true := by
    rw [Bool.and_eq_true, decide_eq_true_eq, decide_eq_true_eq, field_low]
    exact ⟨hu, hp⟩
  rw [execPrio, guarded_barred (f := { i := .prio m a, m := m, src := [gd a] }) h.runs (if_pos hbar)]

end

/-- Settles O9: each form's own part is short, and PRIO's check compares the low two bits of its register. -/
theorem waitAndReadForms : Obligations.WaitAndReadForms := by
  unfold Obligations.WaitAndReadForms
  intro s m d a
  refine ⟨fun h => ⟨?_, ?_, ?_, ?_⟩, fun h => ⟨?_, ?_, ?_, ?_⟩, fun h => ⟨?_, ?_, fun hp => ?_, fun hu hp => ?_⟩⟩
  · rw [exec_nop]; exact short_clear (f := { i := .nop m, m := m }) h _
  · rw [exec_yield, execYield, issue_clear (f := { i := .yield m, m := m }) h]; rfl
  · rw [exec_pin, execPin, issue_clear (f := { i := .pin m, m := m }) h]; rfl
  · rw [exec_unpin, execUnpin, issue_clear (f := { i := .unpin m, m := m }) h]; rfl
  · rw [exec_time]; exact short_toG h rfl
  · rw [exec_cycle]; exact short_toG h rfl
  · rw [exec_here]; exact short_toG h rfl
  · rw [exec_tid]; exact short_toG h rfl
  · rw [exec_sleep]; exact execSleep_clear h
  · rw [exec_waitt]; exact execWaitt_clear h
  · rw [exec_prio]; exact execPrio_allowed h hp
  · rw [exec_prio]; exact execPrio_barred h hu hp

end Sys2Proof.Machine.IntegerControl
